-- ==== Sys2Proof/Word.lean ====
section
/-! DEFINITION. The word types of the Gathar G7 (R3, R12) and the generic sorted list of keyed cells. -/

namespace Sys2Proof

/-- One byte of memory. -/
abbrev Byte := BitVec 8
/-- One instruction word (R57). -/
abbrev Word := BitVec 32
/-- A 64-bit scalar register, address or control register. -/
abbrev X64 := BitVec 64
/-- The data bits of one vector or accumulator register (R12). -/
abbrev VBits := BitVec 16384
/-- The side bytes of one vector register: byte j belongs to 64-bit lane j (R12). -/
abbrev SBits := BitVec 2048
/-- One mask register: bit p governs element position p (R12). -/
abbrev MBits := BitVec 4096

/-- Look a key up in a list of keyed cells; `d` is what an unlisted key holds. -/
def alookup {α : Type} (d : α) : List (Nat × α) → Nat → α
  | [], _ => d
  | (j, w) :: t, k => if j = k then w else alookup d t k

/-- Put a value at a key, keeping rising keys in rising order. -/
def ainsert {α : Type} : List (Nat × α) → Nat → α → List (Nat × α)
  | [], k, v => [(k, v)]
  | (j, w) :: t, k, v =>
    if k < j then (k, v) :: (j, w) :: t
    else if k = j then (k, v) :: t
    else (j, w) :: ainsert t k v

/-- Remove a key from a list of keyed cells. -/
def aerase {α : Type} : List (Nat × α) → Nat → List (Nat × α)
  | [], _ => []
  | (j, w) :: t, k => if j = k then aerase t k else (j, w) :: aerase t k

end Sys2Proof
end

