-- ==== Sys2Proof/Syntax.lean ====
section
/-! DEFINITION. The syntax of the G7: one constructor of `Instr` per row of the opcode table. The first 289 are
instructions with a 32-bit word (R57 to R75). The last 97 are the device's own steps, which have no word: their operands
are what the step is about (which slot, core, queue or port) and what the outside world hands in. -/

namespace Sys2Proof

/-- Element types, by the codes of R33, R35 and R63. Code 15 names no type; a word that carries it raises the illegal-type
trap, so the syntax holds it. -/
inductive Ty where
  | s8 | n8 | s16 | n16 | s32 | n32 | s64 | n64 | f16 | bf16 | f32 | f8e4 | f8e5 | c4 | f64s | t15
  deriving DecidableEq, Repr, Inhabited

/-- Scopes of R68 and R228. -/
inductive Scope where
  | thread | core | cluster | device | system
  deriving DecidableEq, Repr, Inhabited

/-- Cross-lane modifiers of R65. -/
inductive XMod where
  | none | bc | up | dn
  deriving DecidableEq, Repr, Inhabited

/-- Link classes of R300 (code 3, link-control, belongs to no packet). -/
inductive LinkClass where
  | bulk | urgent | control
  deriving DecidableEq, Repr, Inhabited

/-- What a Farrier `set` writes (R330): an x register or a control register. -/
inductive ThreadReg where
  | x (i : Fin 32)
  | csr (n : BitVec 11)
  deriving DecidableEq, Repr, Inhabited

/-- The instructions and steps of the opcode table. -/
inductive Instr where
  /-- ADD_VV (R111). -/
  | addVv (d a b : Fin 32) (t : Ty) (q : Fin 4) (c : XMod)
  /-- ADD_VS (R111). -/
  | addVs (d a b : Fin 32) (t : Ty) (q : Fin 4)
  /-- ADD_VI (R111). -/
  | addVi (d a : Fin 32) (i : BitVec 9) (t : Ty)
  /-- ADD_SC (R111). -/
  | addSc (d a b : Fin 32) (t : Ty) (q : Fin 4)
  /-- SUB_VV (R111). -/
  | subVv (d a b : Fin 32) (t : Ty) (q : Fin 4) (c : XMod)
  /-- SUB_VS (R111). -/
  | subVs (d a b : Fin 32) (t : Ty) (q : Fin 4)
  /-- SUB_VI (R111). -/
  | subVi (d a : Fin 32) (i : BitVec 9) (t : Ty)
  /-- SUB_SC (R111). -/
  | subSc (d a b : Fin 32) (t : Ty) (q : Fin 4)
  /-- MUL_VV (R111). -/
  | mulVv (d a b : Fin 32) (t : Ty) (q : Fin 4) (c : XMod)
  /-- MUL_VS (R111). -/
  | mulVs (d a b : Fin 32) (t : Ty) (q : Fin 4)
  /-- MUL_VI (R111). -/
  | mulVi (d a : Fin 32) (i : BitVec 9) (t : Ty)
  /-- MUL_SC (R111). -/
  | mulSc (d a b : Fin 32) (t : Ty) (q : Fin 4)
  /-- MULH_VV (R111). -/
  | mulhVv (d a b : Fin 32) (t : Ty) (c : XMod)
  /-- MULH_VS (R111). -/
  | mulhVs (d a b : Fin 32) (t : Ty)
  /-- MULH_VI (R111). -/
  | mulhVi (d a : Fin 32) (i : BitVec 9) (t : Ty)
  /-- MULH_SC (R111). -/
  | mulhSc (d a b : Fin 32) (t : Ty)
  /-- MIN_VV (R111). -/
  | minVv (d a b : Fin 32) (t : Ty) (c : XMod)
  /-- MIN_VS (R111). -/
  | minVs (d a b : Fin 32) (t : Ty)
  /-- MIN_VI (R111). -/
  | minVi (d a : Fin 32) (i : BitVec 9) (t : Ty)
  /-- MIN_SC (R111). -/
  | minSc (d a b : Fin 32) (t : Ty)
  /-- MAX_VV (R111). -/
  | maxVv (d a b : Fin 32) (t : Ty) (c : XMod)
  /-- MAX_VS (R111). -/
  | maxVs (d a b : Fin 32) (t : Ty)
  /-- MAX_VI (R111). -/
  | maxVi (d a : Fin 32) (i : BitVec 9) (t : Ty)
  /-- MAX_SC (R111). -/
  | maxSc (d a b : Fin 32) (t : Ty)
  /-- AND_VV (R111). -/
  | andVv (d a b : Fin 32) (t : Ty) (c : XMod)
  /-- AND_VS (R111). -/
  | andVs (d a b : Fin 32) (t : Ty)
  /-- AND_VI (R111). -/
  | andVi (d a : Fin 32) (i : BitVec 9) (t : Ty)
  /-- AND_SC (R111). -/
  | andSc (d a b : Fin 32) (t : Ty)
  /-- OR_VV (R111). -/
  | orVv (d a b : Fin 32) (t : Ty) (c : XMod)
  /-- OR_VS (R111). -/
  | orVs (d a b : Fin 32) (t : Ty)
  /-- OR_VI (R111). -/
  | orVi (d a : Fin 32) (i : BitVec 9) (t : Ty)
  /-- OR_SC (R111). -/
  | orSc (d a b : Fin 32) (t : Ty)
  /-- XOR_VV (R111). -/
  | xorVv (d a b : Fin 32) (t : Ty) (c : XMod)
  /-- XOR_VS (R111). -/
  | xorVs (d a b : Fin 32) (t : Ty)
  /-- XOR_VI (R111). -/
  | xorVi (d a : Fin 32) (i : BitVec 9) (t : Ty)
  /-- XOR_SC (R111). -/
  | xorSc (d a b : Fin 32) (t : Ty)
  /-- SHL_VV (R111). -/
  | shlVv (d a b : Fin 32) (t : Ty) (q : Fin 4) (c : XMod)
  /-- SHL_VS (R111). -/
  | shlVs (d a b : Fin 32) (t : Ty) (q : Fin 4)
  /-- SHL_VI (R111). -/
  | shlVi (d a : Fin 32) (i : BitVec 9) (t : Ty)
  /-- SHL_SC (R111). -/
  | shlSc (d a b : Fin 32) (t : Ty) (q : Fin 4)
  /-- SHR_VV (R111). -/
  | shrVv (d a b : Fin 32) (t : Ty) (c : XMod)
  /-- SHR_VS (R111). -/
  | shrVs (d a b : Fin 32) (t : Ty)
  /-- SHR_VI (R111). -/
  | shrVi (d a : Fin 32) (i : BitVec 9) (t : Ty)
  /-- SHR_SC (R111). -/
  | shrSc (d a b : Fin 32) (t : Ty)
  /-- SHRA_VV (R111). -/
  | shraVv (d a b : Fin 32) (t : Ty) (c : XMod)
  /-- SHRA_VS (R111). -/
  | shraVs (d a b : Fin 32) (t : Ty)
  /-- SHRA_VI (R111). -/
  | shraVi (d a : Fin 32) (i : BitVec 9) (t : Ty)
  /-- SHRA_SC (R111). -/
  | shraSc (d a b : Fin 32) (t : Ty)
  /-- MADD_VV (R113). -/
  | maddVv (d a b : Fin 32) (t : Ty) (q : Fin 4) (c : XMod)
  /-- MADD_VS (R113). -/
  | maddVs (d a b : Fin 32) (t : Ty) (q : Fin 4)
  /-- MADD_VI (R113). -/
  | maddVi (d a : Fin 32) (i : BitVec 9) (t : Ty)
  /-- DIV_VV (R112). -/
  | divVv (d a b : Fin 32) (t : Ty) (q : Fin 4) (c : XMod)
  /-- DIV_VS (R112). -/
  | divVs (d a b : Fin 32) (t : Ty) (q : Fin 4)
  /-- DIV_SC (R112). -/
  | divSc (d a b : Fin 32) (t : Ty) (q : Fin 4)
  /-- REM_VV (R112). -/
  | remVv (d a b : Fin 32) (t : Ty) (c : XMod)
  /-- REM_VS (R112). -/
  | remVs (d a b : Fin 32) (t : Ty)
  /-- REM_SC (R112). -/
  | remSc (d a b : Fin 32) (t : Ty)
  /-- RSHR_VV (R111). -/
  | rshrVv (d a b : Fin 32) (t : Ty) (c : XMod)
  /-- RSHR_VS (R111). -/
  | rshrVs (d a b : Fin 32) (t : Ty)
  /-- RSHR_VI (R111). -/
  | rshrVi (d a : Fin 32) (i : BitVec 9) (t : Ty)
  /-- RSHR_SC (R111). -/
  | rshrSc (d a b : Fin 32) (t : Ty)
  /-- ANDN_VV (R111). -/
  | andnVv (d a b : Fin 32) (t : Ty) (c : XMod)
  /-- ANDN_VS (R111). -/
  | andnVs (d a b : Fin 32) (t : Ty)
  /-- ANDN_VI (R111). -/
  | andnVi (d a : Fin 32) (i : BitVec 9) (t : Ty)
  /-- ANDN_SC (R111). -/
  | andnSc (d a b : Fin 32) (t : Ty)
  /-- CLZ_VV (R111). -/
  | clzVv (d a : Fin 32) (t : Ty)
  /-- CLZ_SC (R111). -/
  | clzSc (d a : Fin 32) (t : Ty)
  /-- POPC_VV (R111). -/
  | popcVv (d a : Fin 32) (t : Ty)
  /-- POPC_SC (R111). -/
  | popcSc (d a : Fin 32) (t : Ty)
  /-- PICK_VV (R114). -/
  | pickVv (d a b : Fin 32) (t : Ty) (c : XMod)
  /-- PICK_VS (R114). -/
  | pickVs (d a b : Fin 32) (t : Ty)
  /-- PICK_VI (R114). -/
  | pickVi (d a : Fin 32) (i : BitVec 9) (t : Ty)
  /-- WMUL_VV (R115). -/
  | wmulVv (d a b : Fin 32) (t : Ty) (c : XMod)
  /-- WMAC_VV (R116). -/
  | wmacVv (d a b : Fin 32) (t : Ty) (q : Fin 4) (c : XMod)
  /-- WMAC_VS (R116). -/
  | wmacVs (d a b : Fin 32) (t : Ty) (q : Fin 4)
  /-- NRSHR_VV (R117). -/
  | nrshrVv (d a b : Fin 32) (t : Ty) (c : XMod)
  /-- NRSHR_VS (R117). -/
  | nrshrVs (d a b : Fin 32) (t : Ty)
  /-- NRSHR_VI (R117). -/
  | nrshrVi (d a : Fin 32) (i : BitVec 9) (t : Ty)
  /-- ABS_VV (R111). -/
  | absVv (d a : Fin 32) (t : Ty) (q : Fin 4)
  /-- ABS_SC (R111). -/
  | absSc (d a : Fin 32) (t : Ty) (q : Fin 4)
  /-- FADD_VV (R118). -/
  | faddVv (d a b : Fin 32) (t : Ty) (q : Fin 4) (c : XMod)
  /-- FADD_VS (R118). -/
  | faddVs (d a b : Fin 32) (t : Ty) (q : Fin 4)
  /-- FADD_VI (R118). -/
  | faddVi (d a : Fin 32) (i : BitVec 9) (t : Ty)
  /-- FADD_SC (R118). -/
  | faddSc (d a b : Fin 32) (t : Ty) (q : Fin 4)
  /-- FSUB_VV (R118). -/
  | fsubVv (d a b : Fin 32) (t : Ty) (q : Fin 4) (c : XMod)
  /-- FSUB_VS (R118). -/
  | fsubVs (d a b : Fin 32) (t : Ty) (q : Fin 4)
  /-- FSUB_VI (R118). -/
  | fsubVi (d a : Fin 32) (i : BitVec 9) (t : Ty)
  /-- FSUB_SC (R118). -/
  | fsubSc (d a b : Fin 32) (t : Ty) (q : Fin 4)
  /-- FMUL_VV (R118). -/
  | fmulVv (d a b : Fin 32) (t : Ty) (q : Fin 4) (c : XMod)
  /-- FMUL_VS (R118). -/
  | fmulVs (d a b : Fin 32) (t : Ty) (q : Fin 4)
  /-- FMUL_VI (R118). -/
  | fmulVi (d a : Fin 32) (i : BitVec 9) (t : Ty)
  /-- FMUL_SC (R118). -/
  | fmulSc (d a b : Fin 32) (t : Ty) (q : Fin 4)
  /-- FMA_VV (R118). -/
  | fmaVv (d a b : Fin 32) (t : Ty) (q : Fin 4) (c : XMod)
  /-- FMA_VS (R118). -/
  | fmaVs (d a b : Fin 32) (t : Ty) (q : Fin 4)
  /-- FMA_VI (R118). -/
  | fmaVi (d a : Fin 32) (i : BitVec 9) (t : Ty)
  /-- FMA_SC (R118). -/
  | fmaSc (d a b : Fin 32) (t : Ty) (q : Fin 4)
  /-- FNMS_VV (R118). -/
  | fnmsVv (d a b : Fin 32) (t : Ty) (q : Fin 4) (c : XMod)
  /-- FNMS_VS (R118). -/
  | fnmsVs (d a b : Fin 32) (t : Ty) (q : Fin 4)
  /-- FNMS_VI (R118). -/
  | fnmsVi (d a : Fin 32) (i : BitVec 9) (t : Ty)
  /-- FNMS_SC (R118). -/
  | fnmsSc (d a b : Fin 32) (t : Ty) (q : Fin 4)
  /-- FNMA_VV (R118). -/
  | fnmaVv (d a b : Fin 32) (t : Ty) (q : Fin 4) (c : XMod)
  /-- FNMA_VS (R118). -/
  | fnmaVs (d a b : Fin 32) (t : Ty) (q : Fin 4)
  /-- FNMA_VI (R118). -/
  | fnmaVi (d a : Fin 32) (i : BitVec 9) (t : Ty)
  /-- FNMA_SC (R118). -/
  | fnmaSc (d a b : Fin 32) (t : Ty) (q : Fin 4)
  /-- FMIN_VV (R119). -/
  | fminVv (d a b : Fin 32) (t : Ty) (c : XMod)
  /-- FMIN_VS (R119). -/
  | fminVs (d a b : Fin 32) (t : Ty)
  /-- FMIN_VI (R119). -/
  | fminVi (d a : Fin 32) (i : BitVec 9) (t : Ty)
  /-- FMIN_SC (R119). -/
  | fminSc (d a b : Fin 32) (t : Ty)
  /-- FMAX_VV (R119). -/
  | fmaxVv (d a b : Fin 32) (t : Ty) (c : XMod)
  /-- FMAX_VS (R119). -/
  | fmaxVs (d a b : Fin 32) (t : Ty)
  /-- FMAX_VI (R119). -/
  | fmaxVi (d a : Fin 32) (i : BitVec 9) (t : Ty)
  /-- FMAX_SC (R119). -/
  | fmaxSc (d a b : Fin 32) (t : Ty)
  /-- FDIV_VV (R118). -/
  | fdivVv (d a b : Fin 32) (t : Ty) (q : Fin 4) (c : XMod)
  /-- FDIV_SC (R118). -/
  | fdivSc (d a b : Fin 32) (t : Ty) (q : Fin 4)
  /-- FSQRT_VV (R118). -/
  | fsqrtVv (d a : Fin 32) (t : Ty) (q : Fin 4)
  /-- FSQRT_SC (R118). -/
  | fsqrtSc (d a : Fin 32) (t : Ty) (q : Fin 4)
  /-- FRCP_VV (R118). -/
  | frcpVv (d a : Fin 32) (t : Ty) (q : Fin 4)
  /-- FRCP_SC (R118). -/
  | frcpSc (d a : Fin 32) (t : Ty) (q : Fin 4)
  /-- FRSQ_VV (R118). -/
  | frsqVv (d a : Fin 32) (t : Ty) (q : Fin 4)
  /-- FRSQ_SC (R118). -/
  | frsqSc (d a : Fin 32) (t : Ty) (q : Fin 4)
  /-- FSCALE_VV (R121). -/
  | fscaleVv (d a b : Fin 32) (t : Ty) (q : Fin 4) (c : XMod)
  /-- FSCALE_VS (R121). -/
  | fscaleVs (d a b : Fin 32) (t : Ty) (q : Fin 4)
  /-- FSCALE_VI (R121). -/
  | fscaleVi (d a : Fin 32) (i : BitVec 9) (t : Ty)
  /-- FRINT_VV (R122). -/
  | frintVv (d a : Fin 32) (t : Ty) (q : Fin 4)
  /-- FCLASS_VV (R123). -/
  | fclassVv (d a : Fin 32) (t : Ty)
  /-- FCLASS_SC (R123). -/
  | fclassSc (d a : Fin 32) (t : Ty)
  /-- FSGN_ABS (R124). -/
  | fsgnAbs (d a : Fin 32) (t : Ty)
  /-- FSGN_NEG (R124). -/
  | fsgnNeg (d a : Fin 32) (t : Ty)
  /-- FSGN_COPY (R124). -/
  | fsgnCopy (d a b : Fin 32) (t : Ty)
  /-- CVT_VV (R126). -/
  | cvtVv (d a : Fin 32) (s t : Ty) (m : Fin 16)
  /-- CVT_SC (R126). -/
  | cvtSc (d a : Fin 32) (s t : Ty) (m : Fin 16)
  /-- CVTS (R128). -/
  | cvts (d a : Fin 32) (s t : Ty) (m : Fin 16)
  /-- CVTW (R127). -/
  | cvtw (d a : Fin 32) (s t : Ty) (m : Fin 16)
  /-- SCLD (R129). -/
  | scld (d a : Fin 32) (s t : Ty) (m : Fin 16)
  /-- CBLD (R130). -/
  | cbld (k : Fin 8) (a : Fin 32)
  /-- CMP_EQ_VV (R135). -/
  | cmpEqVv (d : Fin 8) (a b : Fin 32) (t : Ty) (c : XMod)
  /-- CMP_EQ_VS (R135). -/
  | cmpEqVs (d : Fin 8) (a b : Fin 32) (t : Ty)
  /-- CMP_EQ_VI (R135). -/
  | cmpEqVi (d : Fin 8) (a : Fin 32) (i : BitVec 9) (t : Ty)
  /-- CMP_EQ_SC (R136). -/
  | cmpEqSc (d : Fin 8) (a b : Fin 32) (t : Ty)
  /-- CMP_NE_VV (R135). -/
  | cmpNeVv (d : Fin 8) (a b : Fin 32) (t : Ty) (c : XMod)
  /-- CMP_NE_VS (R135). -/
  | cmpNeVs (d : Fin 8) (a b : Fin 32) (t : Ty)
  /-- CMP_NE_VI (R135). -/
  | cmpNeVi (d : Fin 8) (a : Fin 32) (i : BitVec 9) (t : Ty)
  /-- CMP_NE_SC (R136). -/
  | cmpNeSc (d : Fin 8) (a b : Fin 32) (t : Ty)
  /-- CMP_LT_VV (R135). -/
  | cmpLtVv (d : Fin 8) (a b : Fin 32) (t : Ty) (c : XMod)
  /-- CMP_LT_VS (R135). -/
  | cmpLtVs (d : Fin 8) (a b : Fin 32) (t : Ty)
  /-- CMP_LT_VI (R135). -/
  | cmpLtVi (d : Fin 8) (a : Fin 32) (i : BitVec 9) (t : Ty)
  /-- CMP_LT_SC (R136). -/
  | cmpLtSc (d : Fin 8) (a b : Fin 32) (t : Ty)
  /-- CMP_LE_VV (R135). -/
  | cmpLeVv (d : Fin 8) (a b : Fin 32) (t : Ty) (c : XMod)
  /-- CMP_LE_VS (R135). -/
  | cmpLeVs (d : Fin 8) (a b : Fin 32) (t : Ty)
  /-- CMP_LE_VI (R135). -/
  | cmpLeVi (d : Fin 8) (a : Fin 32) (i : BitVec 9) (t : Ty)
  /-- CMP_LE_SC (R136). -/
  | cmpLeSc (d : Fin 8) (a b : Fin 32) (t : Ty)
  /-- FCMP_EQ_VV (R135). -/
  | fcmpEqVv (d : Fin 8) (a b : Fin 32) (t : Ty) (c : XMod)
  /-- FCMP_EQ_VS (R135). -/
  | fcmpEqVs (d : Fin 8) (a b : Fin 32) (t : Ty)
  /-- FCMP_EQ_VI (R135). -/
  | fcmpEqVi (d : Fin 8) (a : Fin 32) (i : BitVec 9) (t : Ty)
  /-- FCMP_EQ_SC (R136). -/
  | fcmpEqSc (d : Fin 8) (a b : Fin 32) (t : Ty)
  /-- FCMP_LT_VV (R135). -/
  | fcmpLtVv (d : Fin 8) (a b : Fin 32) (t : Ty) (c : XMod)
  /-- FCMP_LT_VS (R135). -/
  | fcmpLtVs (d : Fin 8) (a b : Fin 32) (t : Ty)
  /-- FCMP_LT_VI (R135). -/
  | fcmpLtVi (d : Fin 8) (a : Fin 32) (i : BitVec 9) (t : Ty)
  /-- FCMP_LT_SC (R136). -/
  | fcmpLtSc (d : Fin 8) (a b : Fin 32) (t : Ty)
  /-- FCMP_LE_VV (R135). -/
  | fcmpLeVv (d : Fin 8) (a b : Fin 32) (t : Ty) (c : XMod)
  /-- FCMP_LE_VS (R135). -/
  | fcmpLeVs (d : Fin 8) (a b : Fin 32) (t : Ty)
  /-- FCMP_LE_VI (R135). -/
  | fcmpLeVi (d : Fin 8) (a : Fin 32) (i : BitVec 9) (t : Ty)
  /-- FCMP_LE_SC (R136). -/
  | fcmpLeSc (d : Fin 8) (a b : Fin 32) (t : Ty)
  /-- FCMP_UN_VV (R135). -/
  | fcmpUnVv (d : Fin 8) (a b : Fin 32) (t : Ty) (c : XMod)
  /-- FCMP_UN_VS (R135). -/
  | fcmpUnVs (d : Fin 8) (a b : Fin 32) (t : Ty)
  /-- FCMP_UN_VI (R135). -/
  | fcmpUnVi (d : Fin 8) (a : Fin 32) (i : BitVec 9) (t : Ty)
  /-- FCMP_UN_SC (R136). -/
  | fcmpUnSc (d : Fin 8) (a b : Fin 32) (t : Ty)
  /-- MLOG_AND (R137). -/
  | mlogAnd (d a b : Fin 8)
  /-- MLOG_OR (R137). -/
  | mlogOr (d a b : Fin 8)
  /-- MLOG_XOR (R137). -/
  | mlogXor (d a b : Fin 8)
  /-- MSBF (R139). -/
  | msbf (d a : Fin 8)
  /-- MSIF (R139). -/
  | msif (d a : Fin 8)
  /-- MPOPC (R140). -/
  | mpopc (d : Fin 32) (a : Fin 8)
  /-- MFIRST (R140). -/
  | mfirst (d : Fin 32) (a : Fin 8)
  /-- MSET_ALL (R138). -/
  | msetAll (d : Fin 8)
  /-- MSET_NONE (R138). -/
  | msetNone (d : Fin 8)
  /-- MSET_VL (R138). -/
  | msetVl (d : Fin 8)
  /-- COMPRESS (R142). -/
  | compress (d a : Fin 32) (t : Ty)
  /-- EXPAND (R143). -/
  | expand (d a : Fin 32) (t : Ty)
  /-- IOTA (R141). -/
  | iota (d : Fin 32) (t : Ty)
  /-- VPERM (R144). -/
  | vperm (d a b : Fin 32) (t : Ty)
  /-- VSLUP_VS (R145). -/
  | vslupVs (d a b : Fin 32) (t : Ty)
  /-- VSLUP_VI (R145). -/
  | vslupVi (d a : Fin 32) (i : BitVec 9) (t : Ty)
  /-- VSLDN_VS (R145). -/
  | vsldnVs (d a b : Fin 32) (t : Ty)
  /-- VSLDN_VI (R145). -/
  | vsldnVi (d a : Fin 32) (i : BitVec 9) (t : Ty)
  /-- VBCAST_VS (R146). -/
  | vbcastVs (d b : Fin 32) (t : Ty)
  /-- VBCAST_VI (R146). -/
  | vbcastVi (d : Fin 32) (i : BitVec 9) (t : Ty)
  /-- BPERM (R147). -/
  | bperm (d a b : Fin 32) (t : Ty)
  /-- VZIP_ZIP (R148). -/
  | vzipZip (d a b : Fin 32) (t : Ty)
  /-- VZIP_UNZIP (R148). -/
  | vzipUnzip (d a : Fin 32) (t : Ty)
  /-- VMOVE_EXT (R149). -/
  | vmoveExt (d a : Fin 32) (t : Ty)
  /-- VMOVE_INS (R149). -/
  | vmoveIns (d a : Fin 32) (t : Ty)
  /-- VMOVE_ELT (R149). -/
  | vmoveElt (d a : Fin 32) (t : Ty)
  /-- RED_SUM (R150). -/
  | redSum (d a b : Fin 32) (t : Ty) (sat : Bool)
  /-- RED_MIN (R150). -/
  | redMin (d a b : Fin 32) (t : Ty)
  /-- RED_MAX (R150). -/
  | redMax (d a b : Fin 32) (t : Ty)
  /-- RED_AND (R150). -/
  | redAnd (d a b : Fin 32) (t : Ty)
  /-- RED_OR (R150). -/
  | redOr (d a b : Fin 32) (t : Ty)
  /-- RED_XOR (R150). -/
  | redXor (d a b : Fin 32) (t : Ty)
  /-- FRED_OSUM (R54). -/
  | fredOsum (d a b : Fin 32) (t : Ty)
  /-- FRED_TSUM (R55). -/
  | fredTsum (d a b : Fin 32) (t : Ty)
  /-- FRED_MIN (R151). -/
  | fredMin (d a b : Fin 32) (t : Ty)
  /-- FRED_MAX (R151). -/
  | fredMax (d a b : Fin 32) (t : Ty)
  /-- VMRG_LO (R153). -/
  | vmrgLo (d a b : Fin 32) (t : Ty)
  /-- VMRG_HI (R153). -/
  | vmrgHi (d a b : Fin 32) (t : Ty)
  /-- VSORT (R152). -/
  | vsort (d a : Fin 32) (t : Ty)
  /-- MMA_ACC_RESIDENT (R160). -/
  | mmaAccResident (d a : Fin 32) (q : Fin 16) (t : Ty) (m g : Fin 4)
  /-- MMA_ZERO_RESIDENT (R160). -/
  | mmaZeroResident (d a : Fin 32) (q : Fin 16) (t : Ty) (m g : Fin 4)
  /-- MMA_ACC_REGISTER (R160). -/
  | mmaAccRegister (d a b : Fin 32) (t : Ty) (m g : Fin 4)
  /-- MMA_ZERO_REGISTER (R160). -/
  | mmaZeroRegister (d a b : Fin 32) (t : Ty) (m g : Fin 4)
  /-- ACCRD (R164). -/
  | accrd (d a : Fin 32) (t : Ty) (q : Fin 4) (sat : Bool)
  /-- ACCWR (R165). -/
  | accwr (d a : Fin 32) (t : Ty)
  /-- ACCZ (R166). -/
  | accz (d : Fin 32)
  /-- DFMA (R168). -/
  | dfma (d a b : Fin 32) (q : Fin 4)
  /-- LDR (R206). -/
  | ldr (d : Fin 32) (q : Fin 16) (b : Fin 32) (t : Ty)
  /-- STR (R206). -/
  | str (d : Fin 32) (q : Fin 16) (b : Fin 32) (t : Ty)
  /-- LDRX (R206). -/
  | ldrx (d : Fin 32) (q : Fin 16) (b : Fin 32) (t : Ty)
  /-- STRX (R206). -/
  | strx (d : Fin 32) (q : Fin 16) (b : Fin 32) (t : Ty)
  /-- LDF (R212). -/
  | ldf (sc : Scope) (d a b : Fin 32) (t : Ty) (ord urg strm : Bool)
  /-- LDFX (R212). -/
  | ldfx (sc : Scope) (d a b : Fin 32) (t : Ty) (ord urg strm : Bool)
  /-- STF (R213). -/
  | stf (sc : Scope) (d a b : Fin 32) (t : Ty) (ord urg strm : Bool)
  /-- STFX (R213). -/
  | stfx (sc : Scope) (d a b : Fin 32) (t : Ty) (ord urg strm : Bool)
  /-- STFM (R218). -/
  | stfm (sc : Scope) (d a b : Fin 32) (t : Ty) (ord urg strm : Bool)
  /-- SCADD_INT (R220). -/
  | scaddInt (sc : Scope) (d a b : Fin 32) (t : Ty)
  /-- SCADD_FLT (R220). -/
  | scaddFlt (sc : Scope) (d a b : Fin 32) (t : Ty)
  /-- AMO_ADD (R222). -/
  | amoAdd (sc : Scope) (d a b : Fin 32) (t : Ty)
  /-- AMO_MIN (R222). -/
  | amoMin (sc : Scope) (d a b : Fin 32) (t : Ty)
  /-- AMO_MAX (R222). -/
  | amoMax (sc : Scope) (d a b : Fin 32) (t : Ty)
  /-- AMO_AND (R222). -/
  | amoAnd (sc : Scope) (d a b : Fin 32) (t : Ty)
  /-- AMO_OR (R222). -/
  | amoOr (sc : Scope) (d a b : Fin 32) (t : Ty)
  /-- AMO_XOR (R222). -/
  | amoXor (sc : Scope) (d a b : Fin 32) (t : Ty)
  /-- AMO_SWAP (R222). -/
  | amoSwap (sc : Scope) (d a b : Fin 32) (t : Ty)
  /-- CAS (R223). -/
  | cas (sc : Scope) (d a b : Fin 32) (t : Ty)
  /-- SETVL (R88). -/
  | setvl (d a : Fin 32) (t : Ty)
  /-- LDS_B (R221). -/
  | ldsB (d a b : Fin 32)
  /-- LDS_H (R221). -/
  | ldsH (d a b : Fin 32)
  /-- LDS_W (R221). -/
  | ldsW (d a b : Fin 32)
  /-- LDS_D (R221). -/
  | ldsD (d a b : Fin 32)
  /-- LDS_BZ (R221). -/
  | ldsBz (d a b : Fin 32)
  /-- LDS_HZ (R221). -/
  | ldsHz (d a b : Fin 32)
  /-- LDS_WZ (R221). -/
  | ldsWz (d a b : Fin 32)
  /-- STS_B (R221). -/
  | stsB (d a b : Fin 32)
  /-- STS_H (R221). -/
  | stsH (d a b : Fin 32)
  /-- STS_W (R221). -/
  | stsW (d a b : Fin 32)
  /-- STS_D (R221). -/
  | stsD (d a b : Fin 32)
  /-- FENCE_SV (R231). -/
  | fenceSv (sc : Scope)
  /-- FENCE_VS (R231). -/
  | fenceVs (sc : Scope)
  /-- FENCE_VV (R231). -/
  | fenceVv (sc : Scope)
  /-- FENCE_ALL (R231). -/
  | fenceAll (sc : Scope)
  /-- QSET (R194). -/
  | qset (q : Fin 16) (a : Fin 32) (sc : Scope)
  /-- QDROP (R195). -/
  | qdrop (q : Fin 16)
  /-- QWAIT (R196). -/
  | qwait (q : Fin 16) (a : Fin 32)
  /-- QSTAT (R197). -/
  | qstat (q : Fin 16) (d : Fin 32) (s : Fin 4)
  /-- WAIT_ANY (R198). -/
  | waitAny (a : Fin 32)
  /-- WAIT_ALL (R198). -/
  | waitAll (a : Fin 32)
  /-- FFRDY (R199). -/
  | ffrdy (a d : Fin 32)
  /-- LAUNCH (R283). -/
  | launch (a b : Fin 32)
  /-- LOOP (R95). -/
  | loop (n : Fin 8) (x : Fin 32) (l : Fin 64) (s : Fin 4)
  /-- KADV (R102). -/
  | kadv (k : Fin 6)
  /-- KRD (R102). -/
  | krd (k : Fin 6) (d : Fin 32)
  /-- KSET (R102). -/
  | kset (k : Fin 6) (a : Fin 32)
  /-- BR (R93). -/
  | br (o : BitVec 20)
  /-- BC (R93). -/
  | bc (c : Fin 16) (o : BitVec 20)
  /-- BC_CLR (R93). -/
  | bcClr (c : Fin 16) (o : BitVec 20)
  /-- CALL (R93). -/
  | call (o : BitVec 20)
  /-- JMP_RET (R94). -/
  | jmpRet
  /-- JMP_JR (R94). -/
  | jmpJr (d : Fin 32)
  /-- LI_LO (R72). -/
  | liLo (d : Fin 32) (i : BitVec 19)
  /-- LI_HI (R72). -/
  | liHi (d : Fin 32) (i : BitVec 19)
  /-- WORKID (R287). -/
  | workid (d : Fin 32) (i : Fin 7)
  /-- ENDK (R281). -/
  | endk (sc : Scope)
  /-- WMARK (R282). -/
  | wmark (sc : Scope) (a b : Fin 32)
  /-- BAR_INIT (R296). -/
  | barInit (sc : Scope) (a b : Fin 32)
  /-- BAR_ARRIVE (R296). -/
  | barArrive (sc : Scope) (a : Fin 32)
  /-- BAR_WAIT (R296). -/
  | barWait (sc : Scope) (a : Fin 32)
  /-- BAR_TEST (R296). -/
  | barTest (sc : Scope) (d a : Fin 32)
  /-- VPUSH (R289). -/
  | vpush (d a b : Fin 32) (n : Fin 16)
  /-- TRAP (R265). -/
  | trap (i : BitVec 11)
  /-- SVC (R265). -/
  | svc (i : BitVec 11)
  /-- ERET (R265). -/
  | eret
  /-- CSRR (R18). -/
  | csrr (d : Fin 32) (c : BitVec 11)
  /-- CSRW (R18). -/
  | csrw (a : Fin 32) (c : BitVec 11)
  /-- TLBI (R249). -/
  | tlbi (a : Fin 32)
  /-- TLBS (R249). -/
  | tlbs
  /-- SWEEP (R248). -/
  | sweep (d a : Fin 32)
  /-- RELMOVE (R247). -/
  | relmove (d a : Fin 32)
  /-- VSAVE (R260). -/
  | vsave (a : Fin 32)
  /-- VREST (R261). -/
  | vrest (a : Fin 32)
  /-- IDLE (R262). -/
  | idle
  /-- VLCAP_WRITE (R90). -/
  | vlcapWrite (a : Fin 32)
  /-- NEST_WRITE (R357). -/
  | nestWrite (a : Fin 32)
  /-- FEMASK_WRITE (R288). -/
  | femaskWrite (a : Fin 32)
  /-- CTXID_WRITE (R263). -/
  | ctxidWrite (a : Fin 32)
  /-- STALL_CLEARS (R85). -/
  | stallClears (k : Fin 1024)
  /-- PASS_END (R96). -/
  | passEnd (k : Fin 1024)
  /-- COUNTER_EVENT_RETIRE (R97). -/
  | counterEventRetire (k : Fin 1024)
  /-- ISSUE_OPPORTUNITY (R275). -/
  | issueOpportunity (core : Fin 64)
  /-- FAR_ACCESS_COMPLETE (R213). -/
  | farAccessComplete (k : Fin 1024)
  /-- DELIVERY_LANDS (R182). -/
  | deliveryLands (k : Fin 1024) (q : Fin 16)
  /-- WATERMARK_REREAD (R191). -/
  | watermarkReread (k : Fin 1024) (q : Fin 16)
  /-- ELEMENT_RELEASE (R184). -/
  | elementRelease (k : Fin 1024) (q : Fin 16)
  /-- WRITEBACK_ACK (R186). -/
  | writebackAck (k : Fin 1024) (q : Fin 16)
  /-- QDROP_COMPLETE (R193). -/
  | qdropComplete (k : Fin 1024) (q : Fin 16)
  /-- TRAP_ENTRY (R254). -/
  | trapEntry (k : Fin 1024)
  /-- PREEMPT_REQUEST (R255). -/
  | preemptRequest (k : Fin 1024)
  /-- PREEMPT_TAKEN (R255). -/
  | preemptTaken (k : Fin 1024)
  /-- DROVER_COPY_LINE (R242). -/
  | droverCopyLine (op : Fin 4)
  /-- DROVER_INVALIDATE_ACK (R242). -/
  | droverInvalidateAck (op : Fin 4)
  /-- SWEEP_WORD (R248). -/
  | sweepWord (op : Fin 4)
  /-- TLBI_RECEIVE (R249). -/
  | tlbiReceive (core : Fin 64)
  /-- TLBI_ACKNOWLEDGE (R249). -/
  | tlbiAcknowledge
  /-- HQTAIL_DOORBELL (R267). -/
  | hqtailDoorbell (n : Fin 64) (tail : BitVec 32)
  /-- HQCTL_RESUME (R270). -/
  | hqctlResume (n : Fin 64)
  /-- HQCTL_SKIP (R270). -/
  | hqctlSkip (n : Fin 64)
  /-- HQCFG_ENABLE (R270). -/
  | hqcfgEnable (n : Fin 64)
  /-- HQCFG_DISABLE (R270). -/
  | hqcfgDisable (n : Fin 64)
  /-- PACKET_LAUNCH (R269). -/
  | packetLaunch (n : Fin 64)
  /-- PACKET_WAIT_WORD (R269). -/
  | packetWaitWord (n : Fin 64)
  /-- PACKET_WRITE_WORD (R269). -/
  | packetWriteWord (n : Fin 64)
  /-- PACKET_MARKER (R269). -/
  | packetMarker (n : Fin 64)
  /-- WAIT_WORD_REREAD (R269). -/
  | waitWordReread (n : Fin 64)
  /-- GROUP_PLACE (R273). -/
  | groupPlace
  /-- MGMT_RELEASE_RECORD (R250). -/
  | mgmtReleaseRecord (crec : BitVec 64)
  /-- DHALT_HALT (R322). -/
  | dhaltHalt (core : Fin 64)
  /-- DHALT_RESUME (R320). -/
  | dhaltResume (core : Fin 64)
  /-- DHALT_STEP (R324). -/
  | dhaltStep (core : Fin 64) (thr : Fin 16)
  /-- CONVOY_DRAIN_LIMIT (R323). -/
  | convoyDrainLimit (k : Fin 1024)
  /-- TRACE_SAMPLE (R326). -/
  | traceSample (core : Fin 64)
  /-- BUCKET_REFILL (R315). -/
  | bucketRefill (core : Fin 64)
  /-- PRESSURE_WINDOW_END (R316). -/
  | pressureWindowEnd (core : Fin 64) (waited : Nat)
  /-- LANE_GROUP_GATE (R317). -/
  | laneGroupGate (core : Fin 64) (lg : Fin 32)
  /-- LANE_GROUP_UNGATE (R317). -/
  | laneGroupUngate (core : Fin 64) (lg : Fin 32)
  /-- CLUSTER_IDLE_TIMEOUT (R318). -/
  | clusterIdleTimeout (cl : Fin 16)
  /-- CLUSTER_GATING_COMPLETE (R318). -/
  | clusterGatingComplete (cl : Fin 16)
  /-- CPWR_WAKE (R318). -/
  | cpwrWake (cl : Fin 16)
  /-- CLUSTER_WAKE_COMPLETE (R318). -/
  | clusterWakeComplete (cl : Fin 16)
  /-- CCUR_WRITE (R319). -/
  | ccurWrite (core : Fin 64) (v : BitVec 64)
  /-- ENERGY_METER_UPDATE (R263). -/
  | energyMeterUpdate (cl : Fin 16) (v : BitVec 64)
  /-- PORT_REFILL (R264). -/
  | portRefill (core : Fin 64)
  /-- PIECE_ISSUE (R353). -/
  | pieceIssue (core : Fin 64)
  /-- CONGESTION_WINDOW_INCREASE (R314). -/
  | congestionWindowIncrease (core : Fin 64) (marked : Bool)
  /-- TLCTL_TRAIN (R312). -/
  | tlctlTrain (p : Fin 16)
  /-- TLCTL_RELEASE (R312). -/
  | tlctlRelease (p : Fin 16)
  /-- TLCTL_DISABLE (R312). -/
  | tlctlDisable (p : Fin 16)
  /-- TRAINING_COMPLETE (R312). -/
  | trainingComplete (p : Fin 16)
  /-- TRAINING_TIMEOUT (R312). -/
  | trainingTimeout (p : Fin 16)
  /-- FLIT_SEND (R303). -/
  | flitSend (p : Fin 16)
  /-- FLIT_RECEIVE (R305). -/
  | flitReceive (p : Fin 16) (flit : BitVec 1024)
  /-- LINK_ACK (R307). -/
  | linkAck (p : Fin 16) (seq : BitVec 12)
  /-- LINK_NAK (R307). -/
  | linkNak (p : Fin 16) (seq : BitVec 12)
  /-- LINK_CREDIT (R306). -/
  | linkCredit (p : Fin 16) (cls : LinkClass) (n : Nat)
  /-- LINK_DISCARD (R308). -/
  | linkDiscard (p : Fin 16) (cls : LinkClass)
  /-- LINK_KEEP_ALIVE (R312). -/
  | linkKeepAlive (p : Fin 16)
  /-- PEER_ERROR_HELD (R312). -/
  | peerErrorHeld (p : Fin 16)
  /-- ACK_TIMEOUT (R307). -/
  | ackTimeout (p : Fin 16)
  /-- REASSEMBLY_TIMEOUT (R308). -/
  | reassemblyTimeout (p : Fin 16) (cls : LinkClass)
  /-- RESPONSE_TIMEOUT (R309). -/
  | responseTimeout (p : Fin 16) (tag : BitVec 16)
  /-- KEEP_ALIVE_DUE (R312). -/
  | keepAliveDue (p : Fin 16)
  /-- KEEP_ALIVE_LOSS (R312). -/
  | keepAliveLoss (p : Fin 16)
  /-- WRITE (R301). -/
  | write (p : Fin 16)
  /-- READ (R301). -/
  | read (p : Fin 16)
  /-- ATOMIC (R311). -/
  | atomic (p : Fin 16)
  /-- READ_DATA (R301). -/
  | readData (p : Fin 16)
  /-- ATOMIC_DATA (R311). -/
  | atomicData (p : Fin 16)
  /-- WRITE_ACK (R301). -/
  | writeAck (p : Fin 16)
  /-- UPCTL_GO (R338). -/
  | upctlGo (v : BitVec 64)
  /-- UPDATE_VERIFY_DONE (R338). -/
  | updateVerifyDone
  /-- UPDATE_DRAIN_DONE (R337). -/
  | updateDrainDone
  /-- UPDATE_LOAD_DONE (R338). -/
  | updateLoadDone (ok : Bool)
  /-- COLD_RESET (R334); `intact` says whether the mask ROM reads the firmware's stored copy as it was written. -/
  | coldReset (intact : Bool)
  /-- ECC_CORRECTED (R339). -/
  | eccCorrected (unit : BitVec 16) (pa : BitVec 52)
  /-- ECC_UNCORRECTABLE (R339). -/
  | eccUncorrectable (unit : BitVec 16) (pa : BitVec 52)
  /-- ERCONS_WRITE (R339). -/
  | erconsWrite (v : BitVec 64)
  /-- ERPTR_LOST_CLEAR (R339). -/
  | erptrLostClear
  /-- QOWN_WRITE (R333). -/
  | qownWrite (n : Fin 64) (v : BitVec 8)
  /-- REGISTER_WRITE (R5). -/
  | registerWrite (pa : BitVec 52) (v : BitVec 64)
  /-- HOST_MEMORY_REQUEST (R332). -/
  | hostMemoryRequest (write : Bool) (addr : BitVec 64) (data : List Byte)
  /-- GET_VERSION (R335). -/
  | getVersion
  /-- GET_CAPABILITIES (R335). -/
  | getCapabilities
  /-- NEGOTIATE_ALGORITHMS (R335). -/
  | negotiateAlgorithms (sha3 mlDsa : Bool)
  /-- GET_DIGESTS (R335). -/
  | getDigests
  /-- GET_CERTIFICATE (R335). -/
  | getCertificate (slot : Fin 8)
  /-- CHALLENGE (R335). -/
  | challenge (slot : Fin 8) (nonce : BitVec 256)
  /-- GET_MEASUREMENTS (R335). -/
  | getMeasurements (index : BitVec 8)
  /-- KEY_EXCHANGE (R335). -/
  | keyExchange
  /-- THREAD_STATE_WRITE (R330). -/
  | threadStateWrite (k : Fin 1024) (reg : ThreadReg) (v : BitVec 64)
  deriving DecidableEq, Repr

/-- The steps of the device that have no instruction word. -/
def Instr.isEvent : Instr → Bool
  | .vlcapWrite _ => true
  | .nestWrite _ => true
  | .femaskWrite _ => true
  | .ctxidWrite _ => true
  | .stallClears _ => true
  | .passEnd _ => true
  | .counterEventRetire _ => true
  | .issueOpportunity _ => true
  | .farAccessComplete _ => true
  | .deliveryLands _ _ => true
  | .watermarkReread _ _ => true
  | .elementRelease _ _ => true
  | .writebackAck _ _ => true
  | .qdropComplete _ _ => true
  | .trapEntry _ => true
  | .preemptRequest _ => true
  | .preemptTaken _ => true
  | .droverCopyLine _ => true
  | .droverInvalidateAck _ => true
  | .sweepWord _ => true
  | .tlbiReceive _ => true
  | .tlbiAcknowledge => true
  | .hqtailDoorbell _ _ => true
  | .hqctlResume _ => true
  | .hqctlSkip _ => true
  | .hqcfgEnable _ => true
  | .hqcfgDisable _ => true
  | .packetLaunch _ => true
  | .packetWaitWord _ => true
  | .packetWriteWord _ => true
  | .packetMarker _ => true
  | .waitWordReread _ => true
  | .groupPlace => true
  | .mgmtReleaseRecord _ => true
  | .dhaltHalt _ => true
  | .dhaltResume _ => true
  | .dhaltStep _ _ => true
  | .convoyDrainLimit _ => true
  | .traceSample _ => true
  | .bucketRefill _ => true
  | .pressureWindowEnd _ _ => true
  | .laneGroupGate _ _ => true
  | .laneGroupUngate _ _ => true
  | .clusterIdleTimeout _ => true
  | .clusterGatingComplete _ => true
  | .cpwrWake _ => true
  | .clusterWakeComplete _ => true
  | .ccurWrite _ _ => true
  | .energyMeterUpdate _ _ => true
  | .portRefill _ => true
  | .pieceIssue _ => true
  | .congestionWindowIncrease _ _ => true
  | .tlctlTrain _ => true
  | .tlctlRelease _ => true
  | .tlctlDisable _ => true
  | .trainingComplete _ => true
  | .trainingTimeout _ => true
  | .flitSend _ => true
  | .flitReceive _ _ => true
  | .linkAck _ _ => true
  | .linkNak _ _ => true
  | .linkCredit _ _ _ => true
  | .linkDiscard _ _ => true
  | .linkKeepAlive _ => true
  | .peerErrorHeld _ => true
  | .ackTimeout _ => true
  | .reassemblyTimeout _ _ => true
  | .responseTimeout _ _ => true
  | .keepAliveDue _ => true
  | .keepAliveLoss _ => true
  | .write _ => true
  | .read _ => true
  | .atomic _ => true
  | .readData _ => true
  | .atomicData _ => true
  | .writeAck _ => true
  | .upctlGo _ => true
  | .updateVerifyDone => true
  | .updateDrainDone => true
  | .updateLoadDone _ => true
  | .coldReset _ => true
  | .eccCorrected _ _ => true
  | .eccUncorrectable _ _ => true
  | .erconsWrite _ => true
  | .erptrLostClear => true
  | .qownWrite _ _ => true
  | .registerWrite _ _ => true
  | .hostMemoryRequest _ _ _ => true
  | .getVersion => true
  | .getCapabilities => true
  | .negotiateAlgorithms _ _ => true
  | .getDigests => true
  | .getCertificate _ => true
  | .challenge _ _ => true
  | .getMeasurements _ => true
  | .keyExchange => true
  | .threadStateWrite _ _ _ => true
  | _ => false

end Sys2Proof
end

