-- ==== Sys2Proof/Machine/Types.lean ====
section
/-! DEFINITION. What each instruction accepts: the facts of the element types (R33, R35, R63), the operand and qualifier
rules that decide step 2 of R77, and the type rules that decide its steps 4 and 5. -/

namespace Sys2Proof

/-- Type code (R63). -/
def Ty.code : Ty → Fin 16
  | .s8 => 0 | .n8 => 1 | .s16 => 2 | .n16 => 3 | .s32 => 4 | .n32 => 5 | .s64 => 6 | .n64 => 7
  | .f16 => 8 | .bf16 => 9 | .f32 => 10 | .f8e4 => 11 | .f8e5 => 12 | .c4 => 13 | .f64s => 14 | .t15 => 15

/-- The type of a code (R63). -/
def Ty.ofCode (n : Nat) : Ty :=
  match n with
  | 0 => .s8 | 1 => .n8 | 2 => .s16 | 3 => .n16 | 4 => .s32 | 5 => .n32 | 6 => .s64 | 7 => .n64
  | 8 => .f16 | 9 => .bf16 | 10 => .f32 | 11 => .f8e4 | 12 => .f8e5 | 13 => .c4 | 14 => .f64s | _ => .t15

/-- Element width in bits (R33, R35; C4 is 4). Code 15 has no width. -/
def Ty.bits : Ty → Nat
  | .s8 | .n8 | .f8e4 | .f8e5 => 8
  | .s16 | .n16 | .f16 | .bf16 => 16
  | .s32 | .n32 | .f32 => 32
  | .s64 | .n64 | .f64s => 64
  | .c4 => 4
  | .t15 => 0

/-- Integer types, codes 0 to 7 (R111). -/
def Ty.isInt : Ty → Bool
  | .s8 | .n8 | .s16 | .n16 | .s32 | .n32 | .s64 | .n64 => true
  | _ => false
/-- Signed integer types (R33). -/
def Ty.isSigned : Ty → Bool
  | .s8 | .s16 | .s32 | .s64 => true
  | _ => false
/-- F16, BF16 and F32 (R118). -/
def Ty.isFloat3 : Ty → Bool
  | .f16 | .bf16 | .f32 => true
  | _ => false
/-- F16, BF16, F32 and F64S. -/
def Ty.isFloat4 : Ty → Bool
  | .f16 | .bf16 | .f32 | .f64s => true
  | _ => false
/-- The scaled types, whose blocks of 16 carry a scale (R16). -/
def Ty.isBlock : Ty → Bool
  | .f8e4 | .f8e5 | .c4 => true
  | _ => false
/-- F8E4 and F8E5. -/
def Ty.isF8 : Ty → Bool
  | .f8e4 | .f8e5 => true
  | _ => false
/-- Codes 0 to 14. -/
def Ty.isAny (t : Ty) : Bool := t != .t15
/-- Codes 0 to 10 and 14. -/
def Ty.isUnscaled (t : Ty) : Bool := t.isInt || t.isFloat4
/-- Codes 0 to 7 and 10: what the sc form accepts (R63). -/
def Ty.isScalar (t : Ty) : Bool := t.isInt || t == .f32
/-- S8 to N32, as WMUL and NRSHR take (R115, R117). -/
def Ty.isWide (t : Ty) : Bool := t.isInt && t.bits != 64
/-- Source types of WMAC (R116). -/
def Ty.isWmac : Ty → Bool
  | .s8 | .n8 | .s16 | .n16 | .f16 | .bf16 | .f8e4 | .f8e5 => true
  | _ => false
/-- Types of MMA (R158). -/
def Ty.isMma : Ty → Bool
  | .s8 | .n8 | .f8e4 | .f8e5 | .f16 | .bf16 | .c4 => true
  | _ => false
/-- Types of ACCRD and ACCWR (R164). -/
def Ty.isTile : Ty → Bool
  | .s32 | .n32 | .f32 | .f64s | .f16 | .bf16 => true
  | _ => false
/-- The 16-bit float types. -/
def Ty.isHalf : Ty → Bool
  | .f16 | .bf16 => true
  | _ => false
/-- Registers of the vector group of a tile move (R164). -/
def Ty.tileRegs (t : Ty) : Nat := if t.isHalf then 4 else 8
/-- S64 and N64 (R152, R153). -/
def Ty.is64 : Ty → Bool
  | .s64 | .n64 => true
  | _ => false
/-- S32, N32, S64 and N64, as atomics take (R222). -/
def Ty.isAtomic : Ty → Bool
  | .s32 | .n32 | .s64 | .n64 => true
  | _ => false
/-- Width codes of SETVL: T 1, 0, 2, 4, 6 for 4, 8, 16, 32, 64 bits (R88). -/
def Ty.isSetvl : Ty → Bool
  | .n8 | .s8 | .s16 | .s32 | .s64 => true
  | _ => false

/-- The element width that a width code of SETVL names (R88). -/
def Ty.setvlBits (t : Ty) : Nat := if t == .n8 then 4 else t.bits

/-- Scope code (R68). -/
def Scope.code : Scope → Fin 8
  | .thread => 0 | .core => 1 | .cluster => 2 | .device => 3 | .system => 4
/-- The scope of a code; 5 to 7 name none (R68). -/
def Scope.ofCode (n : Nat) : Option Scope :=
  match n with
  | 0 => some .thread | 1 => some .core | 2 => some .cluster | 3 => some .device | 4 => some .system | _ => none
/-- Cross-lane modifier code (R65). -/
def XMod.code : XMod → Fin 4
  | .none => 0 | .bc => 1 | .up => 2 | .dn => 3
/-- The cross-lane modifier of a code (R65). -/
def XMod.ofCode (n : Nat) : XMod :=
  match n with
  | 0 => .none | 1 => .bc | 2 => .up | _ => .dn

/-- Destination and source types of CVTW: a ratio of 2, 4 or 8, never into C4 (R127). -/
def cvtwPair (t s : Ty) : Bool :=
  t.isAny && s.isAny && t != .c4 &&
    (t.bits == 2 * s.bits || t.bits == 4 * s.bits || t.bits == 8 * s.bits)
/-- Destination and source types of CVTS (R128). -/
def cvtsPair (t s : Ty) : Bool := t.isBlock && s.isFloat3
/-- Destination and source types of SCLD (R129). -/
def scldPair (t s : Ty) : Bool := t.isBlock && s.isF8
/-- A type other than code 15 that is no integer. -/
def Ty.isFloatAny (t : Ty) : Bool := t.isAny && !t.isInt
/-- The reserved and required bits of a conversion's MOD outside the qualifier [3:2], judged for every pair of types (R77
step 2): without C4, [1] is 0, and [0] is 0 from float to integer (R125). -/
def cvtFixed (t s : Ty) (m : Fin 16) : Bool :=
  t == .c4 || s == .c4 || (decide (m.val / 2 % 2 = 0) && (!(t.isInt && s.isFloatAny) || decide (m.val % 2 = 0)))
/-- MOD of a conversion (R125): with C4, [3] is 0 and [2:0] the codebook; otherwise [3:2] is the rounding (00 between
integers, not 11 in the sc form), [1] is 0 and [0] is .SAT (0 from float to integer). -/
def cvtMod (t s : Ty) (m : Fin 16) (sc : Bool) : Bool :=
  if t == .c4 || s == .c4 then decide (m.val < 8)
  else decide (m.val / 2 % 2 = 0) && (!(t.isInt && s.isInt) || decide (m.val / 4 = 0)) &&
    (!(t.isInt && !s.isInt) || decide (m.val % 2 = 0)) && (!sc || decide (m.val / 4 ≠ 3))
/-- A register group starts at a multiple of its length and stays inside the file (R108). -/
def groupAt (d r : Nat) : Bool := decide (d % r = 0)
/-- Two register groups do not overlap (R108). -/
def apart (a n b m : Nat) : Bool := decide (a + n ≤ b) || decide (b + m ≤ a)

/-- Why the slice refuses a word at decode (R76, R77). -/
inductive DecodeTrap where
  | undefined | emulation | illegalType | illegalOperand
  deriving DecidableEq, Repr

/-- Step 2 of R77 for the fields that the constructor holds: operand ranges and reserved bits whatever the types are, and the
qualifier, which is judged only against a type that the instruction accepts (R64). -/
def Instr.shapeOk : Instr → Bool
  | .addVv _ _ _ t q _ => !t.isInt || decide (q.val ≤ 1)
  | .addVs _ _ _ t q => !t.isInt || decide (q.val ≤ 1)
  | .addSc _ _ _ t q => !t.isInt || decide (q.val ≤ 1)
  | .subVv _ _ _ t q _ => !t.isInt || decide (q.val ≤ 1)
  | .subVs _ _ _ t q => !t.isInt || decide (q.val ≤ 1)
  | .subSc _ _ _ t q => !t.isInt || decide (q.val ≤ 1)
  | .mulVv _ _ _ t q _ => !t.isInt || decide (q.val ≤ 1)
  | .mulVs _ _ _ t q => !t.isInt || decide (q.val ≤ 1)
  | .mulSc _ _ _ t q => !t.isInt || decide (q.val ≤ 1)
  | .shlVv _ _ _ t q _ => !t.isInt || decide (q.val ≤ 1)
  | .shlVs _ _ _ t q => !t.isInt || decide (q.val ≤ 1)
  | .shlSc _ _ _ t q => !t.isInt || decide (q.val ≤ 1)
  | .maddVv _ _ _ t q _ => !t.isInt || decide (q.val ≤ 1)
  | .maddVs _ _ _ t q => !t.isInt || decide (q.val ≤ 1)
  | .divVv _ _ _ t q _ => !t.isInt || decide (q.val ≤ 1)
  | .divVs _ _ _ t q => !t.isInt || decide (q.val ≤ 1)
  | .divSc _ _ _ t q => !t.isInt || decide (q.val ≤ 1)
  | .wmulVv d a b _ _ => decide (d.val % 2 = 0) && decide (a.val / 2 ≠ d.val / 2) && decide (b.val / 2 ≠ d.val / 2)
  | .wmacVv _ _ _ t q _ => !(t.isInt && t.isWmac) || decide (q.val ≤ 1)
  | .wmacVs _ _ _ t q => !(t.isInt && t.isWmac) || decide (q.val ≤ 1)
  | .absVv _ _ t q => !t.isInt || decide (q.val ≤ 1)
  | .absSc _ _ t q => !t.isInt || decide (q.val ≤ 1)
  | .faddSc _ _ _ t q => !(t == .f32) || decide (q.val ≤ 2)
  | .fsubSc _ _ _ t q => !(t == .f32) || decide (q.val ≤ 2)
  | .fmulSc _ _ _ t q => !(t == .f32) || decide (q.val ≤ 2)
  | .fmaSc _ _ _ t q => !(t == .f32) || decide (q.val ≤ 2)
  | .fnmsSc _ _ _ t q => !(t == .f32) || decide (q.val ≤ 2)
  | .fnmaSc _ _ _ t q => !(t == .f32) || decide (q.val ≤ 2)
  | .fdivSc _ _ _ t q => !(t == .f32) || decide (q.val ≤ 2)
  | .fsqrtSc _ _ t q => !(t == .f32) || decide (q.val ≤ 2)
  | .frcpSc _ _ t q => !(t == .f32) || decide (q.val ≤ 2)
  | .frsqSc _ _ t q => !(t == .f32) || decide (q.val ≤ 2)
  | .cvtVv _ _ s t m => cvtFixed t s m && (!((t.isAny && t != .c4) && s.isAny) || cvtMod t s m false)
  | .cvtSc _ _ s t m => cvtFixed t s m && (!(t.isScalar && s.isScalar) || cvtMod t s m true)
  | .cvts d a s t m => cvtFixed t s m && (!cvtsPair t s || (cvtMod t s m false && groupAt a.val (s.bits / t.bits) && apart d.val 1 a.val (s.bits / t.bits)))
  | .cvtw d a s t m => cvtFixed t s m && (!cvtwPair t s || (cvtMod t s m false && groupAt d.val (t.bits / s.bits) && apart a.val 1 d.val (t.bits / s.bits)))
  | .scld d a s t m => cvtFixed t s m && !(t == .c4 && a == d) && (!scldPair t s || cvtMod t s m false)
  | .vperm _ _ b t => !(t.bits == 8) || decide (b.val % 2 = 0)
  | .vzipZip d _ _ _ => decide (d.val % 2 = 0)
  | .vzipUnzip d a _ => decide (d.val % 2 = 0) && decide (a.val % 2 = 0)
  | .vmrgLo d a b _ => decide (d.val % 2 = 0) && decide (a.val % 2 = 0) && decide (b.val % 2 = 0)
  | .vmrgHi d a b _ => decide (d.val % 2 = 0) && decide (a.val % 2 = 0) && decide (b.val % 2 = 0)
  | .vsort d a _ => decide (d.val % 2 = 0) && decide (a.val % 2 = 0)
  | .mmaAccResident _ a _ t m g => (!(t == .s8 || t == .n8) || decide (m.val ≤ 1)) && groupAt a.val (2 ^ g.val)
  | .mmaZeroResident _ a _ t m g => (!(t == .s8 || t == .n8) || decide (m.val ≤ 1)) && groupAt a.val (2 ^ g.val)
  | .mmaAccRegister _ a b t m g => (!(t == .s8 || t == .n8) || decide (m.val ≤ 1)) && groupAt a.val (2 ^ g.val) && groupAt b.val (2 ^ g.val) && apart a.val (2 ^ g.val) b.val (2 ^ g.val)
  | .mmaZeroRegister _ a b t m g => (!(t == .s8 || t == .n8) || decide (m.val ≤ 1)) && groupAt a.val (2 ^ g.val) && groupAt b.val (2 ^ g.val) && apart a.val (2 ^ g.val) b.val (2 ^ g.val)
  | .accrd d _ t q sat => (t.isHalf || !sat) && (!t.isTile || ((t.isHalf || decide (q.val = 0)) && groupAt d.val t.tileRegs))
  | .accwr _ a t => !t.isTile || groupAt a.val t.tileRegs
  | .ldf sc _ _ _ _ ord _ _ => ord || sc == .thread
  | .ldfx sc _ _ _ _ ord _ _ => ord || sc == .thread
  | .stf sc _ _ _ _ ord _ _ => ord || sc == .thread
  | .stfx sc _ _ _ _ ord _ _ => ord || sc == .thread
  | .stfm sc _ _ _ _ ord _ _ => ord || sc == .thread
  | .loop n x l s => decide (1 ≤ n.val) && decide (n.val ≤ 6) && decide (x.val + n.val ≤ 32) && decide ((l.val + 1) % (s.val + 1) = 0)
  | .vpush d _ b n => decide (d.val + n.val ≤ 31) && decide (b.val + n.val ≤ 31)
  | _ => true

/-- Step 4 of R77: does the instruction accept its type (R63). The #s form of VSLUP and VSLDN is a vi form, which R52 refuses on
C4; R145's list of types (0 to 14) is read as that of their other form. [DEDUCED, log 79] -/
def Instr.typeOk : Instr → Bool
  | .addVv _ _ _ t _ _ => t.isInt
  | .addVs _ _ _ t _ => t.isInt
  | .addVi _ _ _ t => t.isInt
  | .addSc _ _ _ t _ => t.isInt
  | .subVv _ _ _ t _ _ => t.isInt
  | .subVs _ _ _ t _ => t.isInt
  | .subVi _ _ _ t => t.isInt
  | .subSc _ _ _ t _ => t.isInt
  | .mulVv _ _ _ t _ _ => t.isInt
  | .mulVs _ _ _ t _ => t.isInt
  | .mulVi _ _ _ t => t.isInt
  | .mulSc _ _ _ t _ => t.isInt
  | .mulhVv _ _ _ t _ => t.isInt
  | .mulhVs _ _ _ t => t.isInt
  | .mulhVi _ _ _ t => t.isInt
  | .mulhSc _ _ _ t => t.isInt
  | .minVv _ _ _ t _ => t.isInt
  | .minVs _ _ _ t => t.isInt
  | .minVi _ _ _ t => t.isInt
  | .minSc _ _ _ t => t.isInt
  | .maxVv _ _ _ t _ => t.isInt
  | .maxVs _ _ _ t => t.isInt
  | .maxVi _ _ _ t => t.isInt
  | .maxSc _ _ _ t => t.isInt
  | .andVv _ _ _ t _ => t.isInt
  | .andVs _ _ _ t => t.isInt
  | .andVi _ _ _ t => t.isInt
  | .andSc _ _ _ t => t.isInt
  | .orVv _ _ _ t _ => t.isInt
  | .orVs _ _ _ t => t.isInt
  | .orVi _ _ _ t => t.isInt
  | .orSc _ _ _ t => t.isInt
  | .xorVv _ _ _ t _ => t.isInt
  | .xorVs _ _ _ t => t.isInt
  | .xorVi _ _ _ t => t.isInt
  | .xorSc _ _ _ t => t.isInt
  | .shlVv _ _ _ t _ _ => t.isInt
  | .shlVs _ _ _ t _ => t.isInt
  | .shlVi _ _ _ t => t.isInt
  | .shlSc _ _ _ t _ => t.isInt
  | .shrVv _ _ _ t _ => t.isInt
  | .shrVs _ _ _ t => t.isInt
  | .shrVi _ _ _ t => t.isInt
  | .shrSc _ _ _ t => t.isInt
  | .shraVv _ _ _ t _ => t.isInt
  | .shraVs _ _ _ t => t.isInt
  | .shraVi _ _ _ t => t.isInt
  | .shraSc _ _ _ t => t.isInt
  | .maddVv _ _ _ t _ _ => t.isInt
  | .maddVs _ _ _ t _ => t.isInt
  | .maddVi _ _ _ t => t.isInt
  | .divVv _ _ _ t _ _ => t.isInt
  | .divVs _ _ _ t _ => t.isInt
  | .divSc _ _ _ t _ => t.isInt
  | .remVv _ _ _ t _ => t.isInt
  | .remVs _ _ _ t => t.isInt
  | .remSc _ _ _ t => t.isInt
  | .rshrVv _ _ _ t _ => t.isInt
  | .rshrVs _ _ _ t => t.isInt
  | .rshrVi _ _ _ t => t.isInt
  | .rshrSc _ _ _ t => t.isInt
  | .andnVv _ _ _ t _ => t.isInt
  | .andnVs _ _ _ t => t.isInt
  | .andnVi _ _ _ t => t.isInt
  | .andnSc _ _ _ t => t.isInt
  | .clzVv _ _ t => t.isInt
  | .clzSc _ _ t => t.isInt
  | .popcVv _ _ t => t.isInt
  | .popcSc _ _ t => t.isInt
  | .pickVv _ _ _ t _ => t.isUnscaled
  | .pickVs _ _ _ t => t.isUnscaled
  | .pickVi _ _ _ t => t.isUnscaled
  | .wmulVv _ _ _ t _ => t.isWide
  | .wmacVv _ _ _ t _ _ => t.isWmac
  | .wmacVs _ _ _ t _ => t.isWmac
  | .nrshrVv _ _ _ t _ => t.isWide
  | .nrshrVs _ _ _ t => t.isWide
  | .nrshrVi _ _ _ t => t.isWide
  | .absVv _ _ t _ => t.isInt
  | .absSc _ _ t _ => t.isInt
  | .faddVv _ _ _ t _ _ => t.isFloat4
  | .faddVs _ _ _ t _ => t.isFloat4
  | .faddVi _ _ _ t => t.isFloat4
  | .faddSc _ _ _ t _ => t == .f32
  | .fsubVv _ _ _ t _ _ => t.isFloat4
  | .fsubVs _ _ _ t _ => t.isFloat4
  | .fsubVi _ _ _ t => t.isFloat4
  | .fsubSc _ _ _ t _ => t == .f32
  | .fmulVv _ _ _ t _ _ => t.isFloat4
  | .fmulVs _ _ _ t _ => t.isFloat4
  | .fmulVi _ _ _ t => t.isFloat4
  | .fmulSc _ _ _ t _ => t == .f32
  | .fmaVv _ _ _ t _ _ => t.isFloat4
  | .fmaVs _ _ _ t _ => t.isFloat4
  | .fmaVi _ _ _ t => t.isFloat4
  | .fmaSc _ _ _ t _ => t == .f32
  | .fnmsVv _ _ _ t _ _ => t.isFloat4
  | .fnmsVs _ _ _ t _ => t.isFloat4
  | .fnmsVi _ _ _ t => t.isFloat4
  | .fnmsSc _ _ _ t _ => t == .f32
  | .fnmaVv _ _ _ t _ _ => t.isFloat4
  | .fnmaVs _ _ _ t _ => t.isFloat4
  | .fnmaVi _ _ _ t => t.isFloat4
  | .fnmaSc _ _ _ t _ => t == .f32
  | .fminVv _ _ _ t _ => t.isFloat4
  | .fminVs _ _ _ t => t.isFloat4
  | .fminVi _ _ _ t => t.isFloat4
  | .fminSc _ _ _ t => t == .f32
  | .fmaxVv _ _ _ t _ => t.isFloat4
  | .fmaxVs _ _ _ t => t.isFloat4
  | .fmaxVi _ _ _ t => t.isFloat4
  | .fmaxSc _ _ _ t => t == .f32
  | .fdivVv _ _ _ t _ _ => t.isFloat3
  | .fdivSc _ _ _ t _ => t == .f32
  | .fsqrtVv _ _ t _ => t.isFloat3
  | .fsqrtSc _ _ t _ => t == .f32
  | .frcpVv _ _ t _ => t.isFloat3
  | .frcpSc _ _ t _ => t == .f32
  | .frsqVv _ _ t _ => t.isFloat3
  | .frsqSc _ _ t _ => t == .f32
  | .fscaleVv _ _ _ t _ _ => t.isFloat4
  | .fscaleVs _ _ _ t _ => t.isFloat4
  | .fscaleVi _ _ _ t => t.isFloat4
  | .frintVv _ _ t _ => t.isFloat4
  | .fclassVv _ _ t => t.isFloat4
  | .fclassSc _ _ t => t == .f32
  | .fsgnAbs _ _ t => t.isFloat4
  | .fsgnNeg _ _ t => t.isFloat4
  | .fsgnCopy _ _ _ t => t.isFloat4
  | .cvtVv _ _ s t _ => (t.isAny && t != .c4) && s.isAny
  | .cvtSc _ _ s t _ => t.isScalar && s.isScalar
  | .cvts _ _ s t _ => cvtsPair t s
  | .cvtw _ _ s t _ => cvtwPair t s
  | .scld _ _ s t _ => scldPair t s
  | .cmpEqVv _ _ _ t _ => t.isInt
  | .cmpEqVs _ _ _ t => t.isInt
  | .cmpEqVi _ _ _ t => t.isInt
  | .cmpEqSc _ _ _ t => t.isInt
  | .cmpNeVv _ _ _ t _ => t.isInt
  | .cmpNeVs _ _ _ t => t.isInt
  | .cmpNeVi _ _ _ t => t.isInt
  | .cmpNeSc _ _ _ t => t.isInt
  | .cmpLtVv _ _ _ t _ => t.isInt
  | .cmpLtVs _ _ _ t => t.isInt
  | .cmpLtVi _ _ _ t => t.isInt
  | .cmpLtSc _ _ _ t => t.isInt
  | .cmpLeVv _ _ _ t _ => t.isInt
  | .cmpLeVs _ _ _ t => t.isInt
  | .cmpLeVi _ _ _ t => t.isInt
  | .cmpLeSc _ _ _ t => t.isInt
  | .fcmpEqVv _ _ _ t _ => t.isFloat4
  | .fcmpEqVs _ _ _ t => t.isFloat4
  | .fcmpEqVi _ _ _ t => t.isFloat4
  | .fcmpEqSc _ _ _ t => t == .f32
  | .fcmpLtVv _ _ _ t _ => t.isFloat4
  | .fcmpLtVs _ _ _ t => t.isFloat4
  | .fcmpLtVi _ _ _ t => t.isFloat4
  | .fcmpLtSc _ _ _ t => t == .f32
  | .fcmpLeVv _ _ _ t _ => t.isFloat4
  | .fcmpLeVs _ _ _ t => t.isFloat4
  | .fcmpLeVi _ _ _ t => t.isFloat4
  | .fcmpLeSc _ _ _ t => t == .f32
  | .fcmpUnVv _ _ _ t _ => t.isFloat4
  | .fcmpUnVs _ _ _ t => t.isFloat4
  | .fcmpUnVi _ _ _ t => t.isFloat4
  | .fcmpUnSc _ _ _ t => t == .f32
  | .compress _ _ t => t.isAny
  | .expand _ _ t => t.isAny
  | .iota _ t => t.isInt
  | .vperm _ _ _ t => t.isAny
  | .vslupVs _ _ _ t => t.isAny
  | .vslupVi _ _ _ t => t.isAny && t != .c4
  | .vsldnVs _ _ _ t => t.isAny
  | .vsldnVi _ _ _ t => t.isAny && t != .c4
  | .vbcastVs _ _ t => t.isUnscaled
  | .vbcastVi _ _ t => t.isUnscaled
  | .bperm _ _ _ t => t.isAny
  | .vzipZip _ _ _ t => t.isAny
  | .vzipUnzip _ _ t => t.isAny
  | .vmoveExt _ _ t => t.isAny
  | .vmoveIns _ _ t => t.isAny
  | .vmoveElt _ _ t => t.isUnscaled
  | .redSum _ _ _ t _ => t.isInt
  | .redMin _ _ _ t => t.isInt
  | .redMax _ _ _ t => t.isInt
  | .redAnd _ _ _ t => t.isInt
  | .redOr _ _ _ t => t.isInt
  | .redXor _ _ _ t => t.isInt
  | .fredOsum _ _ _ t => t.isFloat4
  | .fredTsum _ _ _ t => t.isFloat4
  | .fredMin _ _ _ t => t.isFloat4
  | .fredMax _ _ _ t => t.isFloat4
  | .vmrgLo _ _ _ t => t.is64
  | .vmrgHi _ _ _ t => t.is64
  | .vsort _ _ t => t.is64
  | .mmaAccResident _ _ _ t _ _ => t.isMma
  | .mmaZeroResident _ _ _ t _ _ => t.isMma
  | .mmaAccRegister _ _ _ t _ _ => t.isMma
  | .mmaZeroRegister _ _ _ t _ _ => t.isMma
  | .accrd _ _ t _ _ => t.isTile
  | .accwr _ _ t => t.isTile
  | .ldr _ _ _ t => t.isAny
  | .str _ _ _ t => t.isAny
  | .ldrx _ _ _ t => t.isUnscaled
  | .strx _ _ _ t => t.isUnscaled
  | .ldf _ _ _ _ t _ _ _ => t.isAny
  | .ldfx _ _ _ _ t _ _ _ => t.isUnscaled
  | .stf _ _ _ _ t _ _ _ => t.isAny
  | .stfx _ _ _ _ t _ _ _ => t.isUnscaled
  | .stfm _ _ _ _ t _ _ _ => t.isAny
  | .scaddInt _ _ _ _ t => t.isAtomic
  | .scaddFlt _ _ _ _ t => t.isFloat3
  | .amoAdd _ _ _ _ t => t.isAtomic
  | .amoMin _ _ _ _ t => t.isAtomic
  | .amoMax _ _ _ _ t => t.isAtomic
  | .amoAnd _ _ _ _ t => t.isAtomic
  | .amoOr _ _ _ _ t => t.isAtomic
  | .amoXor _ _ _ _ t => t.isAtomic
  | .amoSwap _ _ _ _ t => t.isAtomic
  | .cas _ _ _ _ t => t.isAtomic
  | .setvl _ _ t => t.isSetvl
  | _ => true

/-- Step 5 of R77: no cross-lane modifier and no element-granular move on a scaled type (R65, R133). -/
def Instr.operandOk : Instr → Bool
  | .wmacVv _ _ _ t _ c => !(c != .none && t.isBlock)
  | .compress _ _ t => !(t.isBlock)
  | .expand _ _ t => !(t.isBlock)
  | .vperm _ _ _ t => !(t.isBlock)
  | .vzipZip _ _ _ t => !(t.isBlock)
  | .vzipUnzip _ _ t => !(t.isBlock)
  | .vmoveExt _ _ t => !(t.isBlock)
  | .vmoveIns _ _ t => !(t.isBlock)
  | _ => true

/-- Steps 4 and 5 of R77: the trap that the type raises, if any. -/
def Instr.typeTrap (i : Instr) : Option DecodeTrap :=
  if !i.typeOk then some .illegalType else if !i.operandOk then some .illegalOperand else none

end Sys2Proof
end

