-- ==== Sys2Proof/WellFormed.lean ====
section
/-! DEFINITION. Well-formed instructions: what no decode check of R77 refuses. -/

namespace Sys2Proof

/-- The instruction has a word that decodes to it: step 2 of R77 lets its operands and qualifier pass. -/
def Instr.encodable (i : Instr) : Bool := !i.isEvent && i.shapeOk

/-- No check of R77 refuses the instruction: its operands, its qualifier and its type are all legal. -/
def Instr.wf (i : Instr) : Bool := i.encodable && i.typeTrap.isNone

end Sys2Proof
end

