-- ==== Sys2Proof/Decode.lean ====
section
/-! DEFINITION. The decoder and the encoder (R57 to R77): one arm per primary opcode of the map (R75). The decoder makes
the checks of steps 1 and 2 of R77; steps 4 and 5, which need only the type, are `Instr.typeTrap`, and step 3 is the
privileged instructions' own. A type whose qualifier is not judged (R64) is refused at once where the row holds no
qualifier. -/

namespace Sys2Proof

/-- The decoder's answer: an instruction, or the reason the word is none. -/
abbrev Dec := Except DecodeTrap Instr

/-- Step 2 of R77 for what the instruction itself holds. -/
def keep (i : Instr) : Dec := if i.shapeOk then .ok i else .error .undefined

/-- MOD[3:2] must be 00 on an accepted type; on another type the qualifier is not judged and the type traps, after the other
checks of step 2 (R64, R77). -/
def zeroQ (accepted : Bool) (q : Nat) (r : Dec) : Dec :=
  if q = 0 then r
  else if accepted then .error .undefined
  else
    match r with
    | .ok _ => .error .illegalType
    | .error e => .error e

/-- A scope field: 5 to 7 raise the undefined-instruction trap (R68). -/
def withScope (code : Nat) (k : Scope → Dec) : Dec :=
  match Scope.ofCode code with
  | some sc => k sc
  | none => .error .undefined

/-- Format A words (R58), by primary opcode. -/
def decodeA (op : Nat) (fm : Fin 4) (d : Fin 32) (a : Fin 32) (b : Fin 32) (t : Fin 16) (m : Fin 16) : Dec :=
  match op with
  | 0x0 =>
    if fm.val = 0 then keep (.addVv d a b (Ty.ofCode t.val) (Fin.ofNat 4 (m.val / 4)) (XMod.ofCode (m.val % 4)))
    else if fm.val = 1 then if m.val % 4 = 0 then keep (.addVs d a b (Ty.ofCode t.val) (Fin.ofNat 4 (m.val / 4))) else .error .undefined
    else if fm.val = 2 then keep (.addVi d a (BitVec.ofNat 9 (b.val * 16 + m.val)) (Ty.ofCode t.val))
    else if fm.val = 3 then if m.val % 4 = 0 then keep (.addSc d a b (Ty.ofCode t.val) (Fin.ofNat 4 (m.val / 4))) else .error .undefined
    else .error .undefined
  | 0x1 =>
    if fm.val = 0 then keep (.subVv d a b (Ty.ofCode t.val) (Fin.ofNat 4 (m.val / 4)) (XMod.ofCode (m.val % 4)))
    else if fm.val = 1 then if m.val % 4 = 0 then keep (.subVs d a b (Ty.ofCode t.val) (Fin.ofNat 4 (m.val / 4))) else .error .undefined
    else if fm.val = 2 then keep (.subVi d a (BitVec.ofNat 9 (b.val * 16 + m.val)) (Ty.ofCode t.val))
    else if fm.val = 3 then if m.val % 4 = 0 then keep (.subSc d a b (Ty.ofCode t.val) (Fin.ofNat 4 (m.val / 4))) else .error .undefined
    else .error .undefined
  | 0x2 =>
    if fm.val = 0 then keep (.mulVv d a b (Ty.ofCode t.val) (Fin.ofNat 4 (m.val / 4)) (XMod.ofCode (m.val % 4)))
    else if fm.val = 1 then if m.val % 4 = 0 then keep (.mulVs d a b (Ty.ofCode t.val) (Fin.ofNat 4 (m.val / 4))) else .error .undefined
    else if fm.val = 2 then keep (.mulVi d a (BitVec.ofNat 9 (b.val * 16 + m.val)) (Ty.ofCode t.val))
    else if fm.val = 3 then if m.val % 4 = 0 then keep (.mulSc d a b (Ty.ofCode t.val) (Fin.ofNat 4 (m.val / 4))) else .error .undefined
    else .error .undefined
  | 0x3 =>
    if fm.val = 0 then zeroQ ((Ty.ofCode t.val).isInt) (m.val / 4) (keep (.mulhVv d a b (Ty.ofCode t.val) (XMod.ofCode (m.val % 4))))
    else if fm.val = 1 then if m.val % 4 = 0 then zeroQ ((Ty.ofCode t.val).isInt) (m.val / 4) (keep (.mulhVs d a b (Ty.ofCode t.val))) else .error .undefined
    else if fm.val = 2 then keep (.mulhVi d a (BitVec.ofNat 9 (b.val * 16 + m.val)) (Ty.ofCode t.val))
    else if fm.val = 3 then if m.val % 4 = 0 then zeroQ ((Ty.ofCode t.val).isInt) (m.val / 4) (keep (.mulhSc d a b (Ty.ofCode t.val))) else .error .undefined
    else .error .undefined
  | 0x4 =>
    if fm.val = 0 then zeroQ ((Ty.ofCode t.val).isInt) (m.val / 4) (keep (.minVv d a b (Ty.ofCode t.val) (XMod.ofCode (m.val % 4))))
    else if fm.val = 1 then if m.val % 4 = 0 then zeroQ ((Ty.ofCode t.val).isInt) (m.val / 4) (keep (.minVs d a b (Ty.ofCode t.val))) else .error .undefined
    else if fm.val = 2 then keep (.minVi d a (BitVec.ofNat 9 (b.val * 16 + m.val)) (Ty.ofCode t.val))
    else if fm.val = 3 then if m.val % 4 = 0 then zeroQ ((Ty.ofCode t.val).isInt) (m.val / 4) (keep (.minSc d a b (Ty.ofCode t.val))) else .error .undefined
    else .error .undefined
  | 0x5 =>
    if fm.val = 0 then zeroQ ((Ty.ofCode t.val).isInt) (m.val / 4) (keep (.maxVv d a b (Ty.ofCode t.val) (XMod.ofCode (m.val % 4))))
    else if fm.val = 1 then if m.val % 4 = 0 then zeroQ ((Ty.ofCode t.val).isInt) (m.val / 4) (keep (.maxVs d a b (Ty.ofCode t.val))) else .error .undefined
    else if fm.val = 2 then keep (.maxVi d a (BitVec.ofNat 9 (b.val * 16 + m.val)) (Ty.ofCode t.val))
    else if fm.val = 3 then if m.val % 4 = 0 then zeroQ ((Ty.ofCode t.val).isInt) (m.val / 4) (keep (.maxSc d a b (Ty.ofCode t.val))) else .error .undefined
    else .error .undefined
  | 0x6 =>
    if fm.val = 0 then zeroQ ((Ty.ofCode t.val).isInt) (m.val / 4) (keep (.andVv d a b (Ty.ofCode t.val) (XMod.ofCode (m.val % 4))))
    else if fm.val = 1 then if m.val % 4 = 0 then zeroQ ((Ty.ofCode t.val).isInt) (m.val / 4) (keep (.andVs d a b (Ty.ofCode t.val))) else .error .undefined
    else if fm.val = 2 then keep (.andVi d a (BitVec.ofNat 9 (b.val * 16 + m.val)) (Ty.ofCode t.val))
    else if fm.val = 3 then if m.val % 4 = 0 then zeroQ ((Ty.ofCode t.val).isInt) (m.val / 4) (keep (.andSc d a b (Ty.ofCode t.val))) else .error .undefined
    else .error .undefined
  | 0x7 =>
    if fm.val = 0 then zeroQ ((Ty.ofCode t.val).isInt) (m.val / 4) (keep (.orVv d a b (Ty.ofCode t.val) (XMod.ofCode (m.val % 4))))
    else if fm.val = 1 then if m.val % 4 = 0 then zeroQ ((Ty.ofCode t.val).isInt) (m.val / 4) (keep (.orVs d a b (Ty.ofCode t.val))) else .error .undefined
    else if fm.val = 2 then keep (.orVi d a (BitVec.ofNat 9 (b.val * 16 + m.val)) (Ty.ofCode t.val))
    else if fm.val = 3 then if m.val % 4 = 0 then zeroQ ((Ty.ofCode t.val).isInt) (m.val / 4) (keep (.orSc d a b (Ty.ofCode t.val))) else .error .undefined
    else .error .undefined
  | 0x8 =>
    if fm.val = 0 then zeroQ ((Ty.ofCode t.val).isInt) (m.val / 4) (keep (.xorVv d a b (Ty.ofCode t.val) (XMod.ofCode (m.val % 4))))
    else if fm.val = 1 then if m.val % 4 = 0 then zeroQ ((Ty.ofCode t.val).isInt) (m.val / 4) (keep (.xorVs d a b (Ty.ofCode t.val))) else .error .undefined
    else if fm.val = 2 then keep (.xorVi d a (BitVec.ofNat 9 (b.val * 16 + m.val)) (Ty.ofCode t.val))
    else if fm.val = 3 then if m.val % 4 = 0 then zeroQ ((Ty.ofCode t.val).isInt) (m.val / 4) (keep (.xorSc d a b (Ty.ofCode t.val))) else .error .undefined
    else .error .undefined
  | 0x9 =>
    if fm.val = 0 then keep (.shlVv d a b (Ty.ofCode t.val) (Fin.ofNat 4 (m.val / 4)) (XMod.ofCode (m.val % 4)))
    else if fm.val = 1 then if m.val % 4 = 0 then keep (.shlVs d a b (Ty.ofCode t.val) (Fin.ofNat 4 (m.val / 4))) else .error .undefined
    else if fm.val = 2 then keep (.shlVi d a (BitVec.ofNat 9 (b.val * 16 + m.val)) (Ty.ofCode t.val))
    else if fm.val = 3 then if m.val % 4 = 0 then keep (.shlSc d a b (Ty.ofCode t.val) (Fin.ofNat 4 (m.val / 4))) else .error .undefined
    else .error .undefined
  | 0xa =>
    if fm.val = 0 then zeroQ ((Ty.ofCode t.val).isInt) (m.val / 4) (keep (.shrVv d a b (Ty.ofCode t.val) (XMod.ofCode (m.val % 4))))
    else if fm.val = 1 then if m.val % 4 = 0 then zeroQ ((Ty.ofCode t.val).isInt) (m.val / 4) (keep (.shrVs d a b (Ty.ofCode t.val))) else .error .undefined
    else if fm.val = 2 then keep (.shrVi d a (BitVec.ofNat 9 (b.val * 16 + m.val)) (Ty.ofCode t.val))
    else if fm.val = 3 then if m.val % 4 = 0 then zeroQ ((Ty.ofCode t.val).isInt) (m.val / 4) (keep (.shrSc d a b (Ty.ofCode t.val))) else .error .undefined
    else .error .undefined
  | 0xb =>
    if fm.val = 0 then zeroQ ((Ty.ofCode t.val).isInt) (m.val / 4) (keep (.shraVv d a b (Ty.ofCode t.val) (XMod.ofCode (m.val % 4))))
    else if fm.val = 1 then if m.val % 4 = 0 then zeroQ ((Ty.ofCode t.val).isInt) (m.val / 4) (keep (.shraVs d a b (Ty.ofCode t.val))) else .error .undefined
    else if fm.val = 2 then keep (.shraVi d a (BitVec.ofNat 9 (b.val * 16 + m.val)) (Ty.ofCode t.val))
    else if fm.val = 3 then if m.val % 4 = 0 then zeroQ ((Ty.ofCode t.val).isInt) (m.val / 4) (keep (.shraSc d a b (Ty.ofCode t.val))) else .error .undefined
    else .error .undefined
  | 0xc =>
    if fm.val = 0 then keep (.maddVv d a b (Ty.ofCode t.val) (Fin.ofNat 4 (m.val / 4)) (XMod.ofCode (m.val % 4)))
    else if fm.val = 1 then if m.val % 4 = 0 then keep (.maddVs d a b (Ty.ofCode t.val) (Fin.ofNat 4 (m.val / 4))) else .error .undefined
    else if fm.val = 2 then keep (.maddVi d a (BitVec.ofNat 9 (b.val * 16 + m.val)) (Ty.ofCode t.val))
    else .error .undefined
  | 0xd =>
    if fm.val = 0 then keep (.divVv d a b (Ty.ofCode t.val) (Fin.ofNat 4 (m.val / 4)) (XMod.ofCode (m.val % 4)))
    else if fm.val = 1 then if m.val % 4 = 0 then keep (.divVs d a b (Ty.ofCode t.val) (Fin.ofNat 4 (m.val / 4))) else .error .undefined
    else if fm.val = 3 then if m.val % 4 = 0 then keep (.divSc d a b (Ty.ofCode t.val) (Fin.ofNat 4 (m.val / 4))) else .error .undefined
    else .error .undefined
  | 0xe =>
    if fm.val = 0 then zeroQ ((Ty.ofCode t.val).isInt) (m.val / 4) (keep (.remVv d a b (Ty.ofCode t.val) (XMod.ofCode (m.val % 4))))
    else if fm.val = 1 then if m.val % 4 = 0 then zeroQ ((Ty.ofCode t.val).isInt) (m.val / 4) (keep (.remVs d a b (Ty.ofCode t.val))) else .error .undefined
    else if fm.val = 3 then if m.val % 4 = 0 then zeroQ ((Ty.ofCode t.val).isInt) (m.val / 4) (keep (.remSc d a b (Ty.ofCode t.val))) else .error .undefined
    else .error .undefined
  | 0xf =>
    if fm.val = 0 then zeroQ ((Ty.ofCode t.val).isInt) (m.val / 4) (keep (.rshrVv d a b (Ty.ofCode t.val) (XMod.ofCode (m.val % 4))))
    else if fm.val = 1 then if m.val % 4 = 0 then zeroQ ((Ty.ofCode t.val).isInt) (m.val / 4) (keep (.rshrVs d a b (Ty.ofCode t.val))) else .error .undefined
    else if fm.val = 2 then keep (.rshrVi d a (BitVec.ofNat 9 (b.val * 16 + m.val)) (Ty.ofCode t.val))
    else if fm.val = 3 then if m.val % 4 = 0 then zeroQ ((Ty.ofCode t.val).isInt) (m.val / 4) (keep (.rshrSc d a b (Ty.ofCode t.val))) else .error .undefined
    else .error .undefined
  | 0x10 =>
    if fm.val = 0 then zeroQ ((Ty.ofCode t.val).isInt) (m.val / 4) (keep (.andnVv d a b (Ty.ofCode t.val) (XMod.ofCode (m.val % 4))))
    else if fm.val = 1 then if m.val % 4 = 0 then zeroQ ((Ty.ofCode t.val).isInt) (m.val / 4) (keep (.andnVs d a b (Ty.ofCode t.val))) else .error .undefined
    else if fm.val = 2 then keep (.andnVi d a (BitVec.ofNat 9 (b.val * 16 + m.val)) (Ty.ofCode t.val))
    else if fm.val = 3 then if m.val % 4 = 0 then zeroQ ((Ty.ofCode t.val).isInt) (m.val / 4) (keep (.andnSc d a b (Ty.ofCode t.val))) else .error .undefined
    else .error .undefined
  | 0x11 =>
    if fm.val = 0 then if b.val = 0 ∧ m.val % 4 = 0 then zeroQ ((Ty.ofCode t.val).isInt) (m.val / 4) (keep (.clzVv d a (Ty.ofCode t.val))) else .error .undefined
    else if fm.val = 3 then if b.val = 0 ∧ m.val % 4 = 0 then zeroQ ((Ty.ofCode t.val).isInt) (m.val / 4) (keep (.clzSc d a (Ty.ofCode t.val))) else .error .undefined
    else .error .undefined
  | 0x12 =>
    if fm.val = 0 then if b.val = 0 ∧ m.val % 4 = 0 then zeroQ ((Ty.ofCode t.val).isInt) (m.val / 4) (keep (.popcVv d a (Ty.ofCode t.val))) else .error .undefined
    else if fm.val = 3 then if b.val = 0 ∧ m.val % 4 = 0 then zeroQ ((Ty.ofCode t.val).isInt) (m.val / 4) (keep (.popcSc d a (Ty.ofCode t.val))) else .error .undefined
    else .error .undefined
  | 0x13 =>
    if fm.val = 0 then zeroQ ((Ty.ofCode t.val).isUnscaled) (m.val / 4) (keep (.pickVv d a b (Ty.ofCode t.val) (XMod.ofCode (m.val % 4))))
    else if fm.val = 1 then if m.val % 4 = 0 then zeroQ ((Ty.ofCode t.val).isUnscaled) (m.val / 4) (keep (.pickVs d a b (Ty.ofCode t.val))) else .error .undefined
    else if fm.val = 2 then keep (.pickVi d a (BitVec.ofNat 9 (b.val * 16 + m.val)) (Ty.ofCode t.val))
    else .error .undefined
  | 0x14 =>
    if fm.val = 0 then zeroQ ((Ty.ofCode t.val).isWide) (m.val / 4) (keep (.wmulVv d a b (Ty.ofCode t.val) (XMod.ofCode (m.val % 4))))
    else .error .undefined
  | 0x15 =>
    if fm.val = 0 then keep (.wmacVv d a b (Ty.ofCode t.val) (Fin.ofNat 4 (m.val / 4)) (XMod.ofCode (m.val % 4)))
    else if fm.val = 1 then if m.val % 4 = 0 then keep (.wmacVs d a b (Ty.ofCode t.val) (Fin.ofNat 4 (m.val / 4))) else .error .undefined
    else .error .undefined
  | 0x16 =>
    if fm.val = 0 then zeroQ ((Ty.ofCode t.val).isWide) (m.val / 4) (keep (.nrshrVv d a b (Ty.ofCode t.val) (XMod.ofCode (m.val % 4))))
    else if fm.val = 1 then if m.val % 4 = 0 then zeroQ ((Ty.ofCode t.val).isWide) (m.val / 4) (keep (.nrshrVs d a b (Ty.ofCode t.val))) else .error .undefined
    else if fm.val = 2 then keep (.nrshrVi d a (BitVec.ofNat 9 (b.val * 16 + m.val)) (Ty.ofCode t.val))
    else .error .undefined
  | 0x17 =>
    if fm.val = 0 then if b.val = 0 ∧ m.val % 4 = 0 then keep (.absVv d a (Ty.ofCode t.val) (Fin.ofNat 4 (m.val / 4))) else .error .undefined
    else if fm.val = 3 then if b.val = 0 ∧ m.val % 4 = 0 then keep (.absSc d a (Ty.ofCode t.val) (Fin.ofNat 4 (m.val / 4))) else .error .undefined
    else .error .undefined
  | 0x20 =>
    if fm.val = 0 then keep (.faddVv d a b (Ty.ofCode t.val) (Fin.ofNat 4 (m.val / 4)) (XMod.ofCode (m.val % 4)))
    else if fm.val = 1 then if m.val % 4 = 0 then keep (.faddVs d a b (Ty.ofCode t.val) (Fin.ofNat 4 (m.val / 4))) else .error .undefined
    else if fm.val = 2 then keep (.faddVi d a (BitVec.ofNat 9 (b.val * 16 + m.val)) (Ty.ofCode t.val))
    else if fm.val = 3 then if m.val % 4 = 0 then keep (.faddSc d a b (Ty.ofCode t.val) (Fin.ofNat 4 (m.val / 4))) else .error .undefined
    else .error .undefined
  | 0x21 =>
    if fm.val = 0 then keep (.fsubVv d a b (Ty.ofCode t.val) (Fin.ofNat 4 (m.val / 4)) (XMod.ofCode (m.val % 4)))
    else if fm.val = 1 then if m.val % 4 = 0 then keep (.fsubVs d a b (Ty.ofCode t.val) (Fin.ofNat 4 (m.val / 4))) else .error .undefined
    else if fm.val = 2 then keep (.fsubVi d a (BitVec.ofNat 9 (b.val * 16 + m.val)) (Ty.ofCode t.val))
    else if fm.val = 3 then if m.val % 4 = 0 then keep (.fsubSc d a b (Ty.ofCode t.val) (Fin.ofNat 4 (m.val / 4))) else .error .undefined
    else .error .undefined
  | 0x22 =>
    if fm.val = 0 then keep (.fmulVv d a b (Ty.ofCode t.val) (Fin.ofNat 4 (m.val / 4)) (XMod.ofCode (m.val % 4)))
    else if fm.val = 1 then if m.val % 4 = 0 then keep (.fmulVs d a b (Ty.ofCode t.val) (Fin.ofNat 4 (m.val / 4))) else .error .undefined
    else if fm.val = 2 then keep (.fmulVi d a (BitVec.ofNat 9 (b.val * 16 + m.val)) (Ty.ofCode t.val))
    else if fm.val = 3 then if m.val % 4 = 0 then keep (.fmulSc d a b (Ty.ofCode t.val) (Fin.ofNat 4 (m.val / 4))) else .error .undefined
    else .error .undefined
  | 0x23 =>
    if fm.val = 0 then keep (.fmaVv d a b (Ty.ofCode t.val) (Fin.ofNat 4 (m.val / 4)) (XMod.ofCode (m.val % 4)))
    else if fm.val = 1 then if m.val % 4 = 0 then keep (.fmaVs d a b (Ty.ofCode t.val) (Fin.ofNat 4 (m.val / 4))) else .error .undefined
    else if fm.val = 2 then keep (.fmaVi d a (BitVec.ofNat 9 (b.val * 16 + m.val)) (Ty.ofCode t.val))
    else if fm.val = 3 then if m.val % 4 = 0 then keep (.fmaSc d a b (Ty.ofCode t.val) (Fin.ofNat 4 (m.val / 4))) else .error .undefined
    else .error .undefined
  | 0x24 =>
    if fm.val = 0 then keep (.fnmsVv d a b (Ty.ofCode t.val) (Fin.ofNat 4 (m.val / 4)) (XMod.ofCode (m.val % 4)))
    else if fm.val = 1 then if m.val % 4 = 0 then keep (.fnmsVs d a b (Ty.ofCode t.val) (Fin.ofNat 4 (m.val / 4))) else .error .undefined
    else if fm.val = 2 then keep (.fnmsVi d a (BitVec.ofNat 9 (b.val * 16 + m.val)) (Ty.ofCode t.val))
    else if fm.val = 3 then if m.val % 4 = 0 then keep (.fnmsSc d a b (Ty.ofCode t.val) (Fin.ofNat 4 (m.val / 4))) else .error .undefined
    else .error .undefined
  | 0x25 =>
    if fm.val = 0 then keep (.fnmaVv d a b (Ty.ofCode t.val) (Fin.ofNat 4 (m.val / 4)) (XMod.ofCode (m.val % 4)))
    else if fm.val = 1 then if m.val % 4 = 0 then keep (.fnmaVs d a b (Ty.ofCode t.val) (Fin.ofNat 4 (m.val / 4))) else .error .undefined
    else if fm.val = 2 then keep (.fnmaVi d a (BitVec.ofNat 9 (b.val * 16 + m.val)) (Ty.ofCode t.val))
    else if fm.val = 3 then if m.val % 4 = 0 then keep (.fnmaSc d a b (Ty.ofCode t.val) (Fin.ofNat 4 (m.val / 4))) else .error .undefined
    else .error .undefined
  | 0x26 =>
    if fm.val = 0 then zeroQ ((Ty.ofCode t.val).isFloat4) (m.val / 4) (keep (.fminVv d a b (Ty.ofCode t.val) (XMod.ofCode (m.val % 4))))
    else if fm.val = 1 then if m.val % 4 = 0 then zeroQ ((Ty.ofCode t.val).isFloat4) (m.val / 4) (keep (.fminVs d a b (Ty.ofCode t.val))) else .error .undefined
    else if fm.val = 2 then keep (.fminVi d a (BitVec.ofNat 9 (b.val * 16 + m.val)) (Ty.ofCode t.val))
    else if fm.val = 3 then if m.val % 4 = 0 then zeroQ (Ty.ofCode t.val == .f32) (m.val / 4) (keep (.fminSc d a b (Ty.ofCode t.val))) else .error .undefined
    else .error .undefined
  | 0x27 =>
    if fm.val = 0 then zeroQ ((Ty.ofCode t.val).isFloat4) (m.val / 4) (keep (.fmaxVv d a b (Ty.ofCode t.val) (XMod.ofCode (m.val % 4))))
    else if fm.val = 1 then if m.val % 4 = 0 then zeroQ ((Ty.ofCode t.val).isFloat4) (m.val / 4) (keep (.fmaxVs d a b (Ty.ofCode t.val))) else .error .undefined
    else if fm.val = 2 then keep (.fmaxVi d a (BitVec.ofNat 9 (b.val * 16 + m.val)) (Ty.ofCode t.val))
    else if fm.val = 3 then if m.val % 4 = 0 then zeroQ (Ty.ofCode t.val == .f32) (m.val / 4) (keep (.fmaxSc d a b (Ty.ofCode t.val))) else .error .undefined
    else .error .undefined
  | 0x28 =>
    if fm.val = 0 then keep (.fdivVv d a b (Ty.ofCode t.val) (Fin.ofNat 4 (m.val / 4)) (XMod.ofCode (m.val % 4)))
    else if fm.val = 3 then if m.val % 4 = 0 then keep (.fdivSc d a b (Ty.ofCode t.val) (Fin.ofNat 4 (m.val / 4))) else .error .undefined
    else .error .undefined
  | 0x29 =>
    if fm.val = 0 then if b.val = 0 ∧ m.val % 4 = 0 then keep (.fsqrtVv d a (Ty.ofCode t.val) (Fin.ofNat 4 (m.val / 4))) else .error .undefined
    else if fm.val = 3 then if b.val = 0 ∧ m.val % 4 = 0 then keep (.fsqrtSc d a (Ty.ofCode t.val) (Fin.ofNat 4 (m.val / 4))) else .error .undefined
    else .error .undefined
  | 0x2a =>
    if fm.val = 0 then if b.val = 0 ∧ m.val % 4 = 0 then keep (.frcpVv d a (Ty.ofCode t.val) (Fin.ofNat 4 (m.val / 4))) else .error .undefined
    else if fm.val = 3 then if b.val = 0 ∧ m.val % 4 = 0 then keep (.frcpSc d a (Ty.ofCode t.val) (Fin.ofNat 4 (m.val / 4))) else .error .undefined
    else .error .undefined
  | 0x2b =>
    if fm.val = 0 then if b.val = 0 ∧ m.val % 4 = 0 then keep (.frsqVv d a (Ty.ofCode t.val) (Fin.ofNat 4 (m.val / 4))) else .error .undefined
    else if fm.val = 3 then if b.val = 0 ∧ m.val % 4 = 0 then keep (.frsqSc d a (Ty.ofCode t.val) (Fin.ofNat 4 (m.val / 4))) else .error .undefined
    else .error .undefined
  | 0x2c =>
    if fm.val = 0 then keep (.fscaleVv d a b (Ty.ofCode t.val) (Fin.ofNat 4 (m.val / 4)) (XMod.ofCode (m.val % 4)))
    else if fm.val = 1 then if m.val % 4 = 0 then keep (.fscaleVs d a b (Ty.ofCode t.val) (Fin.ofNat 4 (m.val / 4))) else .error .undefined
    else if fm.val = 2 then keep (.fscaleVi d a (BitVec.ofNat 9 (b.val * 16 + m.val)) (Ty.ofCode t.val))
    else .error .undefined
  | 0x2d =>
    if fm.val = 0 then if b.val = 0 ∧ m.val % 4 = 0 then keep (.frintVv d a (Ty.ofCode t.val) (Fin.ofNat 4 (m.val / 4))) else .error .undefined
    else .error .undefined
  | 0x2e =>
    if fm.val = 0 then if b.val = 0 ∧ m.val % 4 = 0 then zeroQ ((Ty.ofCode t.val).isFloat4) (m.val / 4) (keep (.fclassVv d a (Ty.ofCode t.val))) else .error .undefined
    else if fm.val = 3 then if b.val = 0 ∧ m.val % 4 = 0 then zeroQ (Ty.ofCode t.val == .f32) (m.val / 4) (keep (.fclassSc d a (Ty.ofCode t.val))) else .error .undefined
    else .error .undefined
  | 0x2f =>
    if fm.val = 0 ∧ m.val / 2 = 0 then if b.val = 0 ∧ m.val % 2 = 0 then keep (.fsgnAbs d a (Ty.ofCode t.val)) else .error .undefined
    else if fm.val = 0 ∧ m.val / 2 = 1 then if b.val = 0 ∧ m.val % 2 = 0 then keep (.fsgnNeg d a (Ty.ofCode t.val)) else .error .undefined
    else if fm.val = 0 ∧ m.val / 2 = 2 then if m.val % 2 = 0 then keep (.fsgnCopy d a b (Ty.ofCode t.val)) else .error .undefined
    else .error .undefined
  | 0x30 =>
    if fm.val = 0 then if b.val < 16 then keep (.cvtVv d a (Ty.ofCode b.val) (Ty.ofCode t.val) m) else .error .undefined
    else if fm.val = 3 then if b.val < 16 then keep (.cvtSc d a (Ty.ofCode b.val) (Ty.ofCode t.val) m) else .error .undefined
    else .error .undefined
  | 0x31 =>
    if fm.val = 0 then if b.val < 16 then keep (.cvts d a (Ty.ofCode b.val) (Ty.ofCode t.val) m) else .error .undefined
    else .error .undefined
  | 0x32 =>
    if fm.val = 0 then if b.val < 16 then keep (.cvtw d a (Ty.ofCode b.val) (Ty.ofCode t.val) m) else .error .undefined
    else .error .undefined
  | 0x33 =>
    if fm.val = 0 then if b.val < 16 then keep (.scld d a (Ty.ofCode b.val) (Ty.ofCode t.val) m) else .error .undefined
    else .error .undefined
  | 0x34 =>
    if fm.val = 0 then if d.val < 8 ∧ b.val = 0 ∧ m.val % 4 = 0 then zeroQ ((t.val == 13)) (m.val / 4) (if t.val = 13 then keep (.cbld (Fin.ofNat 8 d.val) a) else .error .illegalType) else .error .undefined
    else .error .undefined
  | 0x38 =>
    if fm.val = 0 ∧ d.val / 8 = 0 then zeroQ ((Ty.ofCode t.val).isInt) (m.val / 4) (keep (.cmpEqVv (Fin.ofNat 8 d.val) a b (Ty.ofCode t.val) (XMod.ofCode (m.val % 4))))
    else if fm.val = 1 ∧ d.val / 8 = 0 then if m.val % 4 = 0 then zeroQ ((Ty.ofCode t.val).isInt) (m.val / 4) (keep (.cmpEqVs (Fin.ofNat 8 d.val) a b (Ty.ofCode t.val))) else .error .undefined
    else if fm.val = 2 ∧ d.val / 8 = 0 then keep (.cmpEqVi (Fin.ofNat 8 d.val) a (BitVec.ofNat 9 (b.val * 16 + m.val)) (Ty.ofCode t.val))
    else if fm.val = 3 ∧ d.val / 8 = 0 then if m.val % 4 = 0 then zeroQ ((Ty.ofCode t.val).isInt) (m.val / 4) (keep (.cmpEqSc (Fin.ofNat 8 d.val) a b (Ty.ofCode t.val))) else .error .undefined
    else if fm.val = 0 ∧ d.val / 8 = 1 then zeroQ ((Ty.ofCode t.val).isInt) (m.val / 4) (keep (.cmpNeVv (Fin.ofNat 8 d.val) a b (Ty.ofCode t.val) (XMod.ofCode (m.val % 4))))
    else if fm.val = 1 ∧ d.val / 8 = 1 then if m.val % 4 = 0 then zeroQ ((Ty.ofCode t.val).isInt) (m.val / 4) (keep (.cmpNeVs (Fin.ofNat 8 d.val) a b (Ty.ofCode t.val))) else .error .undefined
    else if fm.val = 2 ∧ d.val / 8 = 1 then keep (.cmpNeVi (Fin.ofNat 8 d.val) a (BitVec.ofNat 9 (b.val * 16 + m.val)) (Ty.ofCode t.val))
    else if fm.val = 3 ∧ d.val / 8 = 1 then if m.val % 4 = 0 then zeroQ ((Ty.ofCode t.val).isInt) (m.val / 4) (keep (.cmpNeSc (Fin.ofNat 8 d.val) a b (Ty.ofCode t.val))) else .error .undefined
    else if fm.val = 0 ∧ d.val / 8 = 2 then zeroQ ((Ty.ofCode t.val).isInt) (m.val / 4) (keep (.cmpLtVv (Fin.ofNat 8 d.val) a b (Ty.ofCode t.val) (XMod.ofCode (m.val % 4))))
    else if fm.val = 1 ∧ d.val / 8 = 2 then if m.val % 4 = 0 then zeroQ ((Ty.ofCode t.val).isInt) (m.val / 4) (keep (.cmpLtVs (Fin.ofNat 8 d.val) a b (Ty.ofCode t.val))) else .error .undefined
    else if fm.val = 2 ∧ d.val / 8 = 2 then keep (.cmpLtVi (Fin.ofNat 8 d.val) a (BitVec.ofNat 9 (b.val * 16 + m.val)) (Ty.ofCode t.val))
    else if fm.val = 3 ∧ d.val / 8 = 2 then if m.val % 4 = 0 then zeroQ ((Ty.ofCode t.val).isInt) (m.val / 4) (keep (.cmpLtSc (Fin.ofNat 8 d.val) a b (Ty.ofCode t.val))) else .error .undefined
    else if fm.val = 0 ∧ d.val / 8 = 3 then zeroQ ((Ty.ofCode t.val).isInt) (m.val / 4) (keep (.cmpLeVv (Fin.ofNat 8 d.val) a b (Ty.ofCode t.val) (XMod.ofCode (m.val % 4))))
    else if fm.val = 1 ∧ d.val / 8 = 3 then if m.val % 4 = 0 then zeroQ ((Ty.ofCode t.val).isInt) (m.val / 4) (keep (.cmpLeVs (Fin.ofNat 8 d.val) a b (Ty.ofCode t.val))) else .error .undefined
    else if fm.val = 2 ∧ d.val / 8 = 3 then keep (.cmpLeVi (Fin.ofNat 8 d.val) a (BitVec.ofNat 9 (b.val * 16 + m.val)) (Ty.ofCode t.val))
    else if fm.val = 3 ∧ d.val / 8 = 3 then if m.val % 4 = 0 then zeroQ ((Ty.ofCode t.val).isInt) (m.val / 4) (keep (.cmpLeSc (Fin.ofNat 8 d.val) a b (Ty.ofCode t.val))) else .error .undefined
    else .error .undefined
  | 0x39 =>
    if fm.val = 0 ∧ d.val / 8 = 0 then zeroQ ((Ty.ofCode t.val).isFloat4) (m.val / 4) (keep (.fcmpEqVv (Fin.ofNat 8 d.val) a b (Ty.ofCode t.val) (XMod.ofCode (m.val % 4))))
    else if fm.val = 1 ∧ d.val / 8 = 0 then if m.val % 4 = 0 then zeroQ ((Ty.ofCode t.val).isFloat4) (m.val / 4) (keep (.fcmpEqVs (Fin.ofNat 8 d.val) a b (Ty.ofCode t.val))) else .error .undefined
    else if fm.val = 2 ∧ d.val / 8 = 0 then keep (.fcmpEqVi (Fin.ofNat 8 d.val) a (BitVec.ofNat 9 (b.val * 16 + m.val)) (Ty.ofCode t.val))
    else if fm.val = 3 ∧ d.val / 8 = 0 then if m.val % 4 = 0 then zeroQ (Ty.ofCode t.val == .f32) (m.val / 4) (keep (.fcmpEqSc (Fin.ofNat 8 d.val) a b (Ty.ofCode t.val))) else .error .undefined
    else if fm.val = 0 ∧ d.val / 8 = 1 then zeroQ ((Ty.ofCode t.val).isFloat4) (m.val / 4) (keep (.fcmpLtVv (Fin.ofNat 8 d.val) a b (Ty.ofCode t.val) (XMod.ofCode (m.val % 4))))
    else if fm.val = 1 ∧ d.val / 8 = 1 then if m.val % 4 = 0 then zeroQ ((Ty.ofCode t.val).isFloat4) (m.val / 4) (keep (.fcmpLtVs (Fin.ofNat 8 d.val) a b (Ty.ofCode t.val))) else .error .undefined
    else if fm.val = 2 ∧ d.val / 8 = 1 then keep (.fcmpLtVi (Fin.ofNat 8 d.val) a (BitVec.ofNat 9 (b.val * 16 + m.val)) (Ty.ofCode t.val))
    else if fm.val = 3 ∧ d.val / 8 = 1 then if m.val % 4 = 0 then zeroQ (Ty.ofCode t.val == .f32) (m.val / 4) (keep (.fcmpLtSc (Fin.ofNat 8 d.val) a b (Ty.ofCode t.val))) else .error .undefined
    else if fm.val = 0 ∧ d.val / 8 = 2 then zeroQ ((Ty.ofCode t.val).isFloat4) (m.val / 4) (keep (.fcmpLeVv (Fin.ofNat 8 d.val) a b (Ty.ofCode t.val) (XMod.ofCode (m.val % 4))))
    else if fm.val = 1 ∧ d.val / 8 = 2 then if m.val % 4 = 0 then zeroQ ((Ty.ofCode t.val).isFloat4) (m.val / 4) (keep (.fcmpLeVs (Fin.ofNat 8 d.val) a b (Ty.ofCode t.val))) else .error .undefined
    else if fm.val = 2 ∧ d.val / 8 = 2 then keep (.fcmpLeVi (Fin.ofNat 8 d.val) a (BitVec.ofNat 9 (b.val * 16 + m.val)) (Ty.ofCode t.val))
    else if fm.val = 3 ∧ d.val / 8 = 2 then if m.val % 4 = 0 then zeroQ (Ty.ofCode t.val == .f32) (m.val / 4) (keep (.fcmpLeSc (Fin.ofNat 8 d.val) a b (Ty.ofCode t.val))) else .error .undefined
    else if fm.val = 0 ∧ d.val / 8 = 3 then zeroQ ((Ty.ofCode t.val).isFloat4) (m.val / 4) (keep (.fcmpUnVv (Fin.ofNat 8 d.val) a b (Ty.ofCode t.val) (XMod.ofCode (m.val % 4))))
    else if fm.val = 1 ∧ d.val / 8 = 3 then if m.val % 4 = 0 then zeroQ ((Ty.ofCode t.val).isFloat4) (m.val / 4) (keep (.fcmpUnVs (Fin.ofNat 8 d.val) a b (Ty.ofCode t.val))) else .error .undefined
    else if fm.val = 2 ∧ d.val / 8 = 3 then keep (.fcmpUnVi (Fin.ofNat 8 d.val) a (BitVec.ofNat 9 (b.val * 16 + m.val)) (Ty.ofCode t.val))
    else if fm.val = 3 ∧ d.val / 8 = 3 then if m.val % 4 = 0 then zeroQ (Ty.ofCode t.val == .f32) (m.val / 4) (keep (.fcmpUnSc (Fin.ofNat 8 d.val) a b (Ty.ofCode t.val))) else .error .undefined
    else .error .undefined
  | 0x3a =>
    if fm.val = 0 ∧ m.val / 2 = 0 then if d.val < 8 ∧ a.val < 8 ∧ b.val < 8 ∧ m.val % 2 = 0 ∧ t.val = 0 then keep (.mlogAnd (Fin.ofNat 8 d.val) (Fin.ofNat 8 a.val) (Fin.ofNat 8 b.val)) else .error .undefined
    else if fm.val = 0 ∧ m.val / 2 = 1 then if d.val < 8 ∧ a.val < 8 ∧ b.val < 8 ∧ m.val % 2 = 0 ∧ t.val = 0 then keep (.mlogOr (Fin.ofNat 8 d.val) (Fin.ofNat 8 a.val) (Fin.ofNat 8 b.val)) else .error .undefined
    else if fm.val = 0 ∧ m.val / 2 = 2 then if d.val < 8 ∧ a.val < 8 ∧ b.val < 8 ∧ m.val % 2 = 0 ∧ t.val = 0 then keep (.mlogXor (Fin.ofNat 8 d.val) (Fin.ofNat 8 a.val) (Fin.ofNat 8 b.val)) else .error .undefined
    else .error .undefined
  | 0x3b =>
    if fm.val = 0 then if d.val < 8 ∧ a.val < 8 ∧ b.val = 0 ∧ m.val = 0 ∧ t.val = 0 then keep (.msbf (Fin.ofNat 8 d.val) (Fin.ofNat 8 a.val)) else .error .undefined
    else .error .undefined
  | 0x3c =>
    if fm.val = 0 then if d.val < 8 ∧ a.val < 8 ∧ b.val = 0 ∧ m.val = 0 ∧ t.val = 0 then keep (.msif (Fin.ofNat 8 d.val) (Fin.ofNat 8 a.val)) else .error .undefined
    else .error .undefined
  | 0x3d =>
    if fm.val = 0 then if a.val < 8 ∧ b.val = 0 ∧ m.val = 0 ∧ t.val = 0 then keep (.mpopc d (Fin.ofNat 8 a.val)) else .error .undefined
    else .error .undefined
  | 0x3e =>
    if fm.val = 0 then if a.val < 8 ∧ b.val = 0 ∧ m.val = 0 ∧ t.val = 0 then keep (.mfirst d (Fin.ofNat 8 a.val)) else .error .undefined
    else .error .undefined
  | 0x3f =>
    if fm.val = 0 ∧ m.val / 2 = 0 then if d.val < 8 ∧ a.val = 0 ∧ b.val = 0 ∧ m.val % 2 = 0 ∧ t.val = 0 then keep (.msetAll (Fin.ofNat 8 d.val)) else .error .undefined
    else if fm.val = 0 ∧ m.val / 2 = 1 then if d.val < 8 ∧ a.val = 0 ∧ b.val = 0 ∧ m.val % 2 = 0 ∧ t.val = 0 then keep (.msetNone (Fin.ofNat 8 d.val)) else .error .undefined
    else if fm.val = 0 ∧ m.val / 2 = 2 then if d.val < 8 ∧ a.val = 0 ∧ b.val = 0 ∧ m.val % 2 = 0 ∧ t.val = 0 then keep (.msetVl (Fin.ofNat 8 d.val)) else .error .undefined
    else .error .undefined
  | 0x40 =>
    if fm.val = 0 then if b.val = 0 ∧ m.val % 4 = 0 then zeroQ ((Ty.ofCode t.val).isAny) (m.val / 4) (keep (.compress d a (Ty.ofCode t.val))) else .error .undefined
    else .error .undefined
  | 0x41 =>
    if fm.val = 0 then if b.val = 0 ∧ m.val % 4 = 0 then zeroQ ((Ty.ofCode t.val).isAny) (m.val / 4) (keep (.expand d a (Ty.ofCode t.val))) else .error .undefined
    else .error .undefined
  | 0x42 =>
    if fm.val = 0 then if a.val = 0 ∧ b.val = 0 ∧ m.val % 4 = 0 then zeroQ ((Ty.ofCode t.val).isInt) (m.val / 4) (keep (.iota d (Ty.ofCode t.val))) else .error .undefined
    else .error .undefined
  | 0x43 =>
    if fm.val = 0 then if m.val % 4 = 0 then zeroQ ((Ty.ofCode t.val).isAny) (m.val / 4) (keep (.vperm d a b (Ty.ofCode t.val))) else .error .undefined
    else .error .undefined
  | 0x44 =>
    if fm.val = 1 then if m.val % 4 = 0 then zeroQ ((Ty.ofCode t.val).isAny) (m.val / 4) (keep (.vslupVs d a b (Ty.ofCode t.val))) else .error .undefined
    else if fm.val = 2 then keep (.vslupVi d a (BitVec.ofNat 9 (b.val * 16 + m.val)) (Ty.ofCode t.val))
    else .error .undefined
  | 0x45 =>
    if fm.val = 1 then if m.val % 4 = 0 then zeroQ ((Ty.ofCode t.val).isAny) (m.val / 4) (keep (.vsldnVs d a b (Ty.ofCode t.val))) else .error .undefined
    else if fm.val = 2 then keep (.vsldnVi d a (BitVec.ofNat 9 (b.val * 16 + m.val)) (Ty.ofCode t.val))
    else .error .undefined
  | 0x46 =>
    if fm.val = 1 then if a.val = 0 ∧ m.val % 4 = 0 then zeroQ ((Ty.ofCode t.val).isUnscaled) (m.val / 4) (keep (.vbcastVs d b (Ty.ofCode t.val))) else .error .undefined
    else if fm.val = 2 then if a.val = 0 then keep (.vbcastVi d (BitVec.ofNat 9 (b.val * 16 + m.val)) (Ty.ofCode t.val)) else .error .undefined
    else .error .undefined
  | 0x47 =>
    if fm.val = 0 then if m.val % 4 = 0 then zeroQ ((Ty.ofCode t.val).isAny) (m.val / 4) (keep (.bperm d a b (Ty.ofCode t.val))) else .error .undefined
    else .error .undefined
  | 0x48 =>
    if fm.val = 0 ∧ m.val / 2 = 0 then if m.val % 2 = 0 then keep (.vzipZip d a b (Ty.ofCode t.val)) else .error .undefined
    else if fm.val = 0 ∧ m.val / 2 = 1 then if b.val = 0 ∧ m.val % 2 = 0 then keep (.vzipUnzip d a (Ty.ofCode t.val)) else .error .undefined
    else .error .undefined
  | 0x49 =>
    if fm.val = 0 ∧ m.val / 2 = 0 then if b.val = 0 ∧ m.val % 2 = 0 then keep (.vmoveExt d a (Ty.ofCode t.val)) else .error .undefined
    else if fm.val = 0 ∧ m.val / 2 = 1 then if b.val = 0 ∧ m.val % 2 = 0 then keep (.vmoveIns d a (Ty.ofCode t.val)) else .error .undefined
    else if fm.val = 0 ∧ m.val / 2 = 2 then if b.val = 0 ∧ m.val % 2 = 0 then keep (.vmoveElt d a (Ty.ofCode t.val)) else .error .undefined
    else .error .undefined
  | 0x4a =>
    if fm.val = 0 ∧ m.val / 2 = 0 then keep (.redSum d a b (Ty.ofCode t.val) (decide (m.val % 2 = 1)))
    else if fm.val = 0 ∧ m.val / 2 = 1 then if m.val % 2 = 0 then keep (.redMin d a b (Ty.ofCode t.val)) else .error .undefined
    else if fm.val = 0 ∧ m.val / 2 = 2 then if m.val % 2 = 0 then keep (.redMax d a b (Ty.ofCode t.val)) else .error .undefined
    else if fm.val = 0 ∧ m.val / 2 = 3 then if m.val % 2 = 0 then keep (.redAnd d a b (Ty.ofCode t.val)) else .error .undefined
    else if fm.val = 0 ∧ m.val / 2 = 4 then if m.val % 2 = 0 then keep (.redOr d a b (Ty.ofCode t.val)) else .error .undefined
    else if fm.val = 0 ∧ m.val / 2 = 5 then if m.val % 2 = 0 then keep (.redXor d a b (Ty.ofCode t.val)) else .error .undefined
    else .error .undefined
  | 0x4b =>
    if fm.val = 0 ∧ m.val / 2 = 0 then if m.val % 2 = 0 then keep (.fredOsum d a b (Ty.ofCode t.val)) else .error .undefined
    else if fm.val = 0 ∧ m.val / 2 = 1 then if m.val % 2 = 0 then keep (.fredTsum d a b (Ty.ofCode t.val)) else .error .undefined
    else if fm.val = 0 ∧ m.val / 2 = 2 then if m.val % 2 = 0 then keep (.fredMin d a b (Ty.ofCode t.val)) else .error .undefined
    else if fm.val = 0 ∧ m.val / 2 = 3 then if m.val % 2 = 0 then keep (.fredMax d a b (Ty.ofCode t.val)) else .error .undefined
    else .error .undefined
  | 0x4c =>
    if fm.val = 0 ∧ m.val / 2 = 0 then if m.val % 2 = 0 then keep (.vmrgLo d a b (Ty.ofCode t.val)) else .error .undefined
    else if fm.val = 0 ∧ m.val / 2 = 1 then if m.val % 2 = 0 then keep (.vmrgHi d a b (Ty.ofCode t.val)) else .error .undefined
    else .error .undefined
  | 0x4d =>
    if fm.val = 0 then if b.val = 0 ∧ m.val % 4 = 0 then zeroQ ((Ty.ofCode t.val).is64) (m.val / 4) (keep (.vsort d a (Ty.ofCode t.val))) else .error .undefined
    else .error .undefined
  | 0x50 =>
    if fm.val = 0 then if b.val < 16 then keep (.mmaAccResident d a (Fin.ofNat 16 b.val) (Ty.ofCode t.val) (Fin.ofNat 4 (m.val / 4)) (Fin.ofNat 4 m.val)) else .error .undefined
    else if fm.val = 1 then if b.val < 16 then keep (.mmaZeroResident d a (Fin.ofNat 16 b.val) (Ty.ofCode t.val) (Fin.ofNat 4 (m.val / 4)) (Fin.ofNat 4 m.val)) else .error .undefined
    else if fm.val = 2 then keep (.mmaAccRegister d a b (Ty.ofCode t.val) (Fin.ofNat 4 (m.val / 4)) (Fin.ofNat 4 m.val))
    else if fm.val = 3 then keep (.mmaZeroRegister d a b (Ty.ofCode t.val) (Fin.ofNat 4 (m.val / 4)) (Fin.ofNat 4 m.val))
    else .error .undefined
  | 0x51 =>
    if fm.val = 0 then if b.val = 0 ∧ m.val / 2 % 2 = 0 then keep (.accrd d a (Ty.ofCode t.val) (Fin.ofNat 4 (m.val / 4)) (decide (m.val % 2 = 1))) else .error .undefined
    else .error .undefined
  | 0x52 =>
    if fm.val = 0 then if b.val = 0 ∧ m.val % 4 = 0 then zeroQ ((Ty.ofCode t.val).isTile) (m.val / 4) (keep (.accwr d a (Ty.ofCode t.val))) else .error .undefined
    else .error .undefined
  | 0x53 =>
    if fm.val = 0 then if a.val = 0 ∧ b.val = 0 ∧ m.val = 0 ∧ t.val = 0 then keep (.accz d) else .error .undefined
    else .error .undefined
  | 0x54 =>
    if fm.val = 0 then if m.val % 4 = 0 then if t.val = 14 then keep (.dfma d a b (Fin.ofNat 4 (m.val / 4))) else .error .illegalType else .error .undefined
    else .error .undefined
  | 0x78 =>
    if fm.val = 3 then if b.val = 0 ∧ m.val = 0 then keep (.setvl d a (Ty.ofCode t.val)) else .error .undefined
    else .error .undefined
  | _ => .error .undefined

/-- Format M words (R58), by primary opcode. -/
def decodeM (op : Nat) (sc : Fin 8) (d : Fin 32) (a : Fin 32) (b : Fin 32) (t : Fin 16) (m : Fin 8) : Dec :=
  match op with
  | 0x58 =>
    if m.val = 0 ∧ sc.val = 0 ∧ a.val < 16 then keep (.ldr d (Fin.ofNat 16 a.val) b (Ty.ofCode t.val)) else .error .undefined
  | 0x59 =>
    if m.val = 0 ∧ sc.val = 0 ∧ a.val < 16 then keep (.str d (Fin.ofNat 16 a.val) b (Ty.ofCode t.val)) else .error .undefined
  | 0x5a =>
    if m.val = 0 ∧ sc.val = 0 ∧ a.val < 16 then keep (.ldrx d (Fin.ofNat 16 a.val) b (Ty.ofCode t.val)) else .error .undefined
  | 0x5b =>
    if m.val = 0 ∧ sc.val = 0 ∧ a.val < 16 then keep (.strx d (Fin.ofNat 16 a.val) b (Ty.ofCode t.val)) else .error .undefined
  | 0x5c =>
    withScope sc.val fun sco => keep (.ldf sco d a b (Ty.ofCode t.val) (decide (m.val / 4 = 1)) (decide (m.val / 2 % 2 = 1)) (decide (m.val % 2 = 1)))
  | 0x5d =>
    withScope sc.val fun sco => keep (.ldfx sco d a b (Ty.ofCode t.val) (decide (m.val / 4 = 1)) (decide (m.val / 2 % 2 = 1)) (decide (m.val % 2 = 1)))
  | 0x5e =>
    withScope sc.val fun sco => keep (.stf sco d a b (Ty.ofCode t.val) (decide (m.val / 4 = 1)) (decide (m.val / 2 % 2 = 1)) (decide (m.val % 2 = 1)))
  | 0x5f =>
    withScope sc.val fun sco => keep (.stfx sco d a b (Ty.ofCode t.val) (decide (m.val / 4 = 1)) (decide (m.val / 2 % 2 = 1)) (decide (m.val % 2 = 1)))
  | 0x60 =>
    withScope sc.val fun sco => keep (.stfm sco d a b (Ty.ofCode t.val) (decide (m.val / 4 = 1)) (decide (m.val / 2 % 2 = 1)) (decide (m.val % 2 = 1)))
  | 0x61 =>
    if m.val = 0 then withScope sc.val fun sco => keep (.scaddInt sco d a b (Ty.ofCode t.val))
    else if m.val = 1 then withScope sc.val fun sco => keep (.scaddFlt sco d a b (Ty.ofCode t.val))
    else .error .undefined
  | 0x64 =>
    if m.val = 0 then withScope sc.val fun sco => keep (.amoAdd sco d a b (Ty.ofCode t.val))
    else if m.val = 1 then withScope sc.val fun sco => keep (.amoMin sco d a b (Ty.ofCode t.val))
    else if m.val = 2 then withScope sc.val fun sco => keep (.amoMax sco d a b (Ty.ofCode t.val))
    else if m.val = 3 then withScope sc.val fun sco => keep (.amoAnd sco d a b (Ty.ofCode t.val))
    else if m.val = 4 then withScope sc.val fun sco => keep (.amoOr sco d a b (Ty.ofCode t.val))
    else if m.val = 5 then withScope sc.val fun sco => keep (.amoXor sco d a b (Ty.ofCode t.val))
    else if m.val = 6 then withScope sc.val fun sco => keep (.amoSwap sco d a b (Ty.ofCode t.val))
    else .error .undefined
  | 0x65 =>
    if m.val = 0 then withScope sc.val fun sco => keep (.cas sco d a b (Ty.ofCode t.val)) else .error .undefined
  | _ => .error .undefined

/-- LDS and STS (R67, R221). -/
noncomputable def decodeN (op : Nat) (sc : Fin 8) (d a b : Fin 32) (t : Fin 16) (m : Fin 8) : Dec :=
  match op with
  | 0x62 =>
    if m.val = 0 then if sc.val = 0 ∧ t.val = 0 then keep (.ldsB d a b) else .error .undefined
    else if m.val = 1 then if sc.val = 0 ∧ t.val = 0 then keep (.ldsH d a b) else .error .undefined
    else if m.val = 2 then if sc.val = 0 ∧ t.val = 0 then keep (.ldsW d a b) else .error .undefined
    else if m.val = 3 then if sc.val = 0 ∧ t.val = 0 then keep (.ldsD d a b) else .error .undefined
    else if m.val = 4 then if sc.val = 0 ∧ t.val = 0 then keep (.ldsBz d a b) else .error .undefined
    else if m.val = 5 then if sc.val = 0 ∧ t.val = 0 then keep (.ldsHz d a b) else .error .undefined
    else if m.val = 6 then if sc.val = 0 ∧ t.val = 0 then keep (.ldsWz d a b) else .error .undefined
    else .error .undefined
  | 0x63 =>
    if m.val = 0 then if sc.val = 0 ∧ t.val = 0 then keep (.stsB d a b) else .error .undefined
    else if m.val = 1 then if sc.val = 0 ∧ t.val = 0 then keep (.stsH d a b) else .error .undefined
    else if m.val = 2 then if sc.val = 0 ∧ t.val = 0 then keep (.stsW d a b) else .error .undefined
    else if m.val = 3 then if sc.val = 0 ∧ t.val = 0 then keep (.stsD d a b) else .error .undefined
    else .error .undefined
  | _ => .error .undefined

/-- FENCE (R67, R231). -/
noncomputable def decodeF (sc : Fin 8) (d a b : Fin 32) (t : Fin 16) (m : Fin 8) : Dec :=
    if m.val = 0 then if d.val = 0 ∧ a.val = 0 ∧ b.val = 0 ∧ t.val = 0 then withScope sc.val fun sco => keep (.fenceSv sco) else .error .undefined
    else if m.val = 1 then if d.val = 0 ∧ a.val = 0 ∧ b.val = 0 ∧ t.val = 0 then withScope sc.val fun sco => keep (.fenceVs sco) else .error .undefined
    else if m.val = 2 then if d.val = 0 ∧ a.val = 0 ∧ b.val = 0 ∧ t.val = 0 then withScope sc.val fun sco => keep (.fenceVv sco) else .error .undefined
    else if m.val = 3 then if d.val = 0 ∧ a.val = 0 ∧ b.val = 0 ∧ t.val = 0 then withScope sc.val fun sco => keep (.fenceAll sco) else .error .undefined
    else .error .undefined

/-- Format Q words (R58), by primary opcode. -/
noncomputable def decodeQ (op : Nat) (q : Fin 16) (x1 : Fin 32) (x2 : Fin 32) (imm : Fin 2048) : Dec :=
  match op with
  | 0x68 =>
    if x2.val = 0 then withScope imm.val fun sco => keep (.qset q x1 sco) else .error .undefined
  | 0x69 =>
    if imm.val = 0 ∧ x1.val = 0 ∧ x2.val = 0 then keep (.qdrop q) else .error .undefined
  | 0x6a =>
    if imm.val = 0 ∧ x2.val = 0 then keep (.qwait q x1) else .error .undefined
  | 0x6b =>
    if imm.val < 4 ∧ x1.val = 0 then keep (.qstat q x2 (Fin.ofNat 4 imm.val)) else .error .undefined
  | 0x6c =>
    if imm.val = 0 then if q.val = 0 ∧ x2.val = 0 then keep (.waitAny x1) else .error .undefined
    else if imm.val = 1 then if q.val = 0 ∧ x2.val = 0 then keep (.waitAll x1) else .error .undefined
    else .error .undefined
  | 0x6d =>
    if imm.val = 0 ∧ q.val = 0 then keep (.ffrdy x1 x2) else .error .undefined
  | 0x6e =>
    if imm.val = 0 ∧ q.val = 0 then keep (.launch x1 x2) else .error .undefined
  | _ => .error .undefined

/-- Format L words (R58), by primary opcode. -/
noncomputable def decodeL (op : Nat) (n : Fin 8) (x : Fin 32) (l : Fin 64) (s : Fin 4) (r : Fin 512) : Dec :=
  match op with
  | 0x70 =>
    if r.val = 0 then keep (.loop n x l s) else .error .undefined
  | 0x71 =>
    if r.val = 0 ∧ n.val < 6 ∧ l.val = 0 ∧ s.val = 0 ∧ x.val = 0 then keep (.kadv (Fin.ofNat 6 n.val)) else .error .undefined
  | 0x72 =>
    if r.val = 0 ∧ n.val < 6 ∧ l.val = 0 ∧ s.val = 0 then keep (.krd (Fin.ofNat 6 n.val) x) else .error .undefined
  | 0x73 =>
    if r.val = 0 ∧ n.val < 6 ∧ l.val = 0 ∧ s.val = 0 then keep (.kset (Fin.ofNat 6 n.val) x) else .error .undefined
  | _ => .error .undefined

/-- Format B words (R58), by primary opcode. -/
noncomputable def decodeB (op : Nat) (c : Fin 16) (s : Fin 2) (o : Fin 1048576) : Dec :=
  match op with
  | 0x74 =>
    if c.val = 0 ∧ s.val = 0 then keep (.br (BitVec.ofNat 20 o.val)) else .error .undefined
  | 0x75 =>
    if s.val = 1 then keep (.bc c (BitVec.ofNat 20 o.val))
    else if s.val = 0 then keep (.bcClr c (BitVec.ofNat 20 o.val))
    else .error .undefined
  | 0x76 =>
    if c.val = 0 ∧ s.val = 0 then keep (.call (BitVec.ofNat 20 o.val)) else .error .undefined
  | _ => .error .undefined

/-- Format U words (R58), by primary opcode. -/
noncomputable def decodeU (op : Nat) (sel : Fin 2) (d : Fin 32) (imm : Fin 524288) : Dec :=
  match op with
  | 0x77 =>
    if sel.val = 0 then if d.val = 0 ∧ imm.val = 0 then keep .jmpRet else .error .undefined
    else if sel.val = 1 then if imm.val = 0 then keep (.jmpJr d) else .error .undefined
    else .error .undefined
  | 0x79 =>
    if sel.val = 0 then keep (.liLo d (BitVec.ofNat 19 imm.val))
    else if sel.val = 1 then keep (.liHi d (BitVec.ofNat 19 imm.val))
    else .error .undefined
  | _ => .error .undefined

/-- Format K words (R58), by primary opcode. -/
noncomputable def decodeK (op : Nat) (sc : Fin 8) (d : Fin 32) (a : Fin 32) (b : Fin 32) (sel : Fin 8) (imm : Fin 16) : Dec :=
  match op with
  | 0x7a =>
    if sel.val = 0 ∧ sc.val = 0 ∧ a.val = 0 ∧ b.val = 0 ∧ imm.val < 7 then keep (.workid d (Fin.ofNat 7 imm.val)) else .error .undefined
  | 0x7b =>
    if sel.val = 0 ∧ d.val = 0 ∧ a.val = 0 ∧ b.val = 0 ∧ imm.val = 0 then withScope sc.val fun sco => keep (.endk sco) else .error .undefined
  | 0x7c =>
    if sel.val = 0 ∧ d.val = 0 ∧ imm.val = 0 then withScope sc.val fun sco => keep (.wmark sco a b) else .error .undefined
  | 0x7d =>
    if sel.val = 0 then if d.val = 0 ∧ imm.val = 0 then withScope sc.val fun sco => keep (.barInit sco a b) else .error .undefined
    else if sel.val = 1 then if d.val = 0 ∧ b.val = 0 ∧ imm.val = 0 then withScope sc.val fun sco => keep (.barArrive sco a) else .error .undefined
    else if sel.val = 2 then if d.val = 0 ∧ b.val = 0 ∧ imm.val = 0 then withScope sc.val fun sco => keep (.barWait sco a) else .error .undefined
    else if sel.val = 3 then if b.val = 0 ∧ imm.val = 0 then withScope sc.val fun sco => keep (.barTest sco d a) else .error .undefined
    else .error .undefined
  | 0x7e =>
    if sel.val = 0 ∧ sc.val = 0 then keep (.vpush d a b imm) else .error .undefined
  | _ => .error .undefined

/-- Format S words (R58), by primary opcode. -/
noncomputable def decodeS (op : Nat) (sel : Fin 16) (d : Fin 32) (a : Fin 32) (imm : Fin 2048) : Dec :=
  match op with
  | 0x7f =>
    if sel.val = 0 then if d.val = 0 ∧ a.val = 0 then keep (.trap (BitVec.ofNat 11 imm.val)) else .error .undefined
    else if sel.val = 1 then if d.val = 0 ∧ a.val = 0 then keep (.svc (BitVec.ofNat 11 imm.val)) else .error .undefined
    else if sel.val = 2 then if d.val = 0 ∧ a.val = 0 ∧ imm.val = 0 then keep .eret else .error .undefined
    else if sel.val = 3 then if a.val = 0 then keep (.csrr d (BitVec.ofNat 11 imm.val)) else .error .undefined
    else if sel.val = 4 then if d.val = 0 then keep (.csrw a (BitVec.ofNat 11 imm.val)) else .error .undefined
    else if sel.val = 5 then if d.val = 0 ∧ imm.val = 0 then keep (.tlbi a) else .error .undefined
    else if sel.val = 6 then if d.val = 0 ∧ a.val = 0 ∧ imm.val = 0 then keep .tlbs else .error .undefined
    else if sel.val = 7 then if imm.val = 0 then keep (.sweep d a) else .error .undefined
    else if sel.val = 8 then if imm.val = 0 then keep (.relmove d a) else .error .undefined
    else if sel.val = 9 then if d.val = 0 ∧ imm.val = 0 then keep (.vsave a) else .error .undefined
    else if sel.val = 10 then if d.val = 0 ∧ imm.val = 0 then keep (.vrest a) else .error .undefined
    else if sel.val = 11 then if d.val = 0 ∧ a.val = 0 ∧ imm.val = 0 then keep .idle else .error .undefined
    else .error .undefined
  | _ => .error .undefined

/-- The instruction of a word that the lanes can hold (Formats A and M, FENCE apart): what VREST reads back from a queue
image (R257, R261). -/
def decodeVec (w : Word) : Dec :=
  let n := w.toNat
  let op := n / 33554432
  if op < 0x18 ∨ (0x1F < op ∧ op < 0x58) ∨ op = 0x78 then
    decodeA op (Fin.ofNat 4 (n / 8388608)) (Fin.ofNat 32 (n / 262144)) (Fin.ofNat 32 (n / 8192)) (Fin.ofNat 32 (n / 256)) (Fin.ofNat 16 (n / 16)) (Fin.ofNat 16 (n / 1))
  else if 0x58 ≤ op ∧ op < 0x66 then
    decodeM op (Fin.ofNat 8 (n / 4194304)) (Fin.ofNat 32 (n / 131072)) (Fin.ofNat 32 (n / 4096)) (Fin.ofNat 32 (n / 128)) (Fin.ofNat 16 (n / 8)) (Fin.ofNat 8 (n / 1))
  else .error .undefined

/-- Decode one instruction word: steps 1 and 2 of R77. The extension block 0x18 to 0x1F raises the emulation trap, and every
other opcode outside the map the undefined-instruction trap (R76, R78). -/
noncomputable def decode (w : Word) : Dec :=
  let n := w.toNat
  let op := n / 33554432
  if 0x18 ≤ op ∧ op ≤ 0x1F then .error .emulation
  else if op < 0x58 ∨ op = 0x78 then
    decodeA op (Fin.ofNat 4 (n / 8388608)) (Fin.ofNat 32 (n / 262144)) (Fin.ofNat 32 (n / 8192)) (Fin.ofNat 32 (n / 256)) (Fin.ofNat 16 (n / 16)) (Fin.ofNat 16 (n / 1))
  else if op = 0x62 ∨ op = 0x63 then
    decodeN op (Fin.ofNat 8 (n / 4194304)) (Fin.ofNat 32 (n / 131072)) (Fin.ofNat 32 (n / 4096)) (Fin.ofNat 32 (n / 128)) (Fin.ofNat 16 (n / 8)) (Fin.ofNat 8 (n / 1))
  else if op = 0x66 then
    decodeF (Fin.ofNat 8 (n / 4194304)) (Fin.ofNat 32 (n / 131072)) (Fin.ofNat 32 (n / 4096)) (Fin.ofNat 32 (n / 128)) (Fin.ofNat 16 (n / 8)) (Fin.ofNat 8 (n / 1))
  else if op < 0x68 then
    decodeM op (Fin.ofNat 8 (n / 4194304)) (Fin.ofNat 32 (n / 131072)) (Fin.ofNat 32 (n / 4096)) (Fin.ofNat 32 (n / 128)) (Fin.ofNat 16 (n / 8)) (Fin.ofNat 8 (n / 1))
  else if op < 0x70 then
    decodeQ op (Fin.ofNat 16 (n / 2097152)) (Fin.ofNat 32 (n / 65536)) (Fin.ofNat 32 (n / 2048)) (Fin.ofNat 2048 (n / 1))
  else if op < 0x74 then
    decodeL op (Fin.ofNat 8 (n / 4194304)) (Fin.ofNat 32 (n / 131072)) (Fin.ofNat 64 (n / 2048)) (Fin.ofNat 4 (n / 512)) (Fin.ofNat 512 (n / 1))
  else if op < 0x77 then
    decodeB op (Fin.ofNat 16 (n / 2097152)) (Fin.ofNat 2 (n / 1048576)) (Fin.ofNat 1048576 (n / 1))
  else if op = 0x77 ∨ op = 0x79 then
    decodeU op (Fin.ofNat 2 (n / 16777216)) (Fin.ofNat 32 (n / 524288)) (Fin.ofNat 524288 (n / 1))
  else if op = 0x7F then
    decodeS op (Fin.ofNat 16 (n / 2097152)) (Fin.ofNat 32 (n / 65536)) (Fin.ofNat 32 (n / 2048)) (Fin.ofNat 2048 (n / 1))
  else
    decodeK op (Fin.ofNat 8 (n / 4194304)) (Fin.ofNat 32 (n / 131072)) (Fin.ofNat 32 (n / 4096)) (Fin.ofNat 32 (n / 128)) (Fin.ofNat 8 (n / 16)) (Fin.ofNat 16 (n / 1))

/-- The little-endian word of the first four bytes (R57). -/
def wordOfBytes : List Byte → Option (Word × List Byte)
  | b0 :: b1 :: b2 :: b3 :: rest =>
    some (BitVec.ofNat 32 (b0.toNat + 256 * b1.toNat + 65536 * b2.toNat + 16777216 * b3.toNat), rest)
  | _ => none

/-- The four bytes of a word, low byte first. -/
def bytesOfWord (w : Word) : List Byte :=
  [BitVec.ofNat 8 w.toNat, BitVec.ofNat 8 (w.toNat / 256), BitVec.ofNat 8 (w.toNat / 65536),
    BitVec.ofNat 8 (w.toNat / 16777216)]

/-- Decode the instruction at the head of a list of bytes. Fewer than four bytes hold no instruction. -/
noncomputable def decodeBytes (bs : List Byte) : Except DecodeTrap (Instr × List Byte) :=
  match wordOfBytes bs with
  | none => .error .undefined
  | some (w, rest) =>
    match decode w with
    | .ok i => .ok (i, rest)
    | .error e => .error e

/-- The instruction read from the bits of an opcode-table row, laid out as the hardware stores them. -/
noncomputable def decodeTableWord (_nbits w : Nat) : Option Instr :=
  match decodeBytes (bytesOfWord (BitVec.ofNat 32 w)) with
  | .ok (i, _) => some i
  | .error _ => none

/-- A Format A word from its fields (R58). -/
def packA (op fm d a b t m : Nat) : Word :=
  BitVec.ofNat 32 (op * 33554432 + fm * 8388608 + d * 262144 + a * 8192 + b * 256 + t * 16 + m)

/-- A Format M word from its fields (R58). -/
def packM (op sc d a b t m : Nat) : Word :=
  BitVec.ofNat 32 (op * 33554432 + sc * 4194304 + d * 131072 + a * 4096 + b * 128 + t * 8 + m)

/-- A Format Q word from its fields (R58). -/
def packQ (op q x1 x2 imm : Nat) : Word :=
  BitVec.ofNat 32 (op * 33554432 + q * 2097152 + x1 * 65536 + x2 * 2048 + imm)

/-- A Format L word from its fields (R58). -/
def packL (op n x l s r : Nat) : Word :=
  BitVec.ofNat 32 (op * 33554432 + n * 4194304 + x * 131072 + l * 2048 + s * 512 + r)

/-- A Format B word from its fields (R58). -/
def packB (op c s o : Nat) : Word :=
  BitVec.ofNat 32 (op * 33554432 + c * 2097152 + s * 1048576 + o)

/-- A Format U word from its fields (R58). -/
def packU (op sel d imm : Nat) : Word :=
  BitVec.ofNat 32 (op * 33554432 + sel * 16777216 + d * 524288 + imm)

/-- A Format K word from its fields (R58). -/
def packK (op sc d a b sel imm : Nat) : Word :=
  BitVec.ofNat 32 (op * 33554432 + sc * 4194304 + d * 131072 + a * 4096 + b * 128 + sel * 16 + imm)

/-- A Format S word from its fields (R58). -/
def packS (op sel d a imm : Nat) : Word :=
  BitVec.ofNat 32 (op * 33554432 + sel * 2097152 + d * 65536 + a * 2048 + imm)

/-- The words of an instruction, from the encodings of R58 to R75; a step of the device has none. -/
def encode : Instr → List Word
  | .addVv d a b t q c => [packA 0 0 d.val a.val b.val t.code.val (4 * q.val + c.code.val)]
  | .addVs d a b t q => [packA 0 1 d.val a.val b.val t.code.val (4 * q.val)]
  | .addVi d a i t => [packA 0 2 d.val a.val (i.toNat / 16) t.code.val (i.toNat % 16)]
  | .addSc d a b t q => [packA 0 3 d.val a.val b.val t.code.val (4 * q.val)]
  | .subVv d a b t q c => [packA 1 0 d.val a.val b.val t.code.val (4 * q.val + c.code.val)]
  | .subVs d a b t q => [packA 1 1 d.val a.val b.val t.code.val (4 * q.val)]
  | .subVi d a i t => [packA 1 2 d.val a.val (i.toNat / 16) t.code.val (i.toNat % 16)]
  | .subSc d a b t q => [packA 1 3 d.val a.val b.val t.code.val (4 * q.val)]
  | .mulVv d a b t q c => [packA 2 0 d.val a.val b.val t.code.val (4 * q.val + c.code.val)]
  | .mulVs d a b t q => [packA 2 1 d.val a.val b.val t.code.val (4 * q.val)]
  | .mulVi d a i t => [packA 2 2 d.val a.val (i.toNat / 16) t.code.val (i.toNat % 16)]
  | .mulSc d a b t q => [packA 2 3 d.val a.val b.val t.code.val (4 * q.val)]
  | .mulhVv d a b t c => [packA 3 0 d.val a.val b.val t.code.val c.code.val]
  | .mulhVs d a b t => [packA 3 1 d.val a.val b.val t.code.val 0]
  | .mulhVi d a i t => [packA 3 2 d.val a.val (i.toNat / 16) t.code.val (i.toNat % 16)]
  | .mulhSc d a b t => [packA 3 3 d.val a.val b.val t.code.val 0]
  | .minVv d a b t c => [packA 4 0 d.val a.val b.val t.code.val c.code.val]
  | .minVs d a b t => [packA 4 1 d.val a.val b.val t.code.val 0]
  | .minVi d a i t => [packA 4 2 d.val a.val (i.toNat / 16) t.code.val (i.toNat % 16)]
  | .minSc d a b t => [packA 4 3 d.val a.val b.val t.code.val 0]
  | .maxVv d a b t c => [packA 5 0 d.val a.val b.val t.code.val c.code.val]
  | .maxVs d a b t => [packA 5 1 d.val a.val b.val t.code.val 0]
  | .maxVi d a i t => [packA 5 2 d.val a.val (i.toNat / 16) t.code.val (i.toNat % 16)]
  | .maxSc d a b t => [packA 5 3 d.val a.val b.val t.code.val 0]
  | .andVv d a b t c => [packA 6 0 d.val a.val b.val t.code.val c.code.val]
  | .andVs d a b t => [packA 6 1 d.val a.val b.val t.code.val 0]
  | .andVi d a i t => [packA 6 2 d.val a.val (i.toNat / 16) t.code.val (i.toNat % 16)]
  | .andSc d a b t => [packA 6 3 d.val a.val b.val t.code.val 0]
  | .orVv d a b t c => [packA 7 0 d.val a.val b.val t.code.val c.code.val]
  | .orVs d a b t => [packA 7 1 d.val a.val b.val t.code.val 0]
  | .orVi d a i t => [packA 7 2 d.val a.val (i.toNat / 16) t.code.val (i.toNat % 16)]
  | .orSc d a b t => [packA 7 3 d.val a.val b.val t.code.val 0]
  | .xorVv d a b t c => [packA 8 0 d.val a.val b.val t.code.val c.code.val]
  | .xorVs d a b t => [packA 8 1 d.val a.val b.val t.code.val 0]
  | .xorVi d a i t => [packA 8 2 d.val a.val (i.toNat / 16) t.code.val (i.toNat % 16)]
  | .xorSc d a b t => [packA 8 3 d.val a.val b.val t.code.val 0]
  | .shlVv d a b t q c => [packA 9 0 d.val a.val b.val t.code.val (4 * q.val + c.code.val)]
  | .shlVs d a b t q => [packA 9 1 d.val a.val b.val t.code.val (4 * q.val)]
  | .shlVi d a i t => [packA 9 2 d.val a.val (i.toNat / 16) t.code.val (i.toNat % 16)]
  | .shlSc d a b t q => [packA 9 3 d.val a.val b.val t.code.val (4 * q.val)]
  | .shrVv d a b t c => [packA 10 0 d.val a.val b.val t.code.val c.code.val]
  | .shrVs d a b t => [packA 10 1 d.val a.val b.val t.code.val 0]
  | .shrVi d a i t => [packA 10 2 d.val a.val (i.toNat / 16) t.code.val (i.toNat % 16)]
  | .shrSc d a b t => [packA 10 3 d.val a.val b.val t.code.val 0]
  | .shraVv d a b t c => [packA 11 0 d.val a.val b.val t.code.val c.code.val]
  | .shraVs d a b t => [packA 11 1 d.val a.val b.val t.code.val 0]
  | .shraVi d a i t => [packA 11 2 d.val a.val (i.toNat / 16) t.code.val (i.toNat % 16)]
  | .shraSc d a b t => [packA 11 3 d.val a.val b.val t.code.val 0]
  | .maddVv d a b t q c => [packA 12 0 d.val a.val b.val t.code.val (4 * q.val + c.code.val)]
  | .maddVs d a b t q => [packA 12 1 d.val a.val b.val t.code.val (4 * q.val)]
  | .maddVi d a i t => [packA 12 2 d.val a.val (i.toNat / 16) t.code.val (i.toNat % 16)]
  | .divVv d a b t q c => [packA 13 0 d.val a.val b.val t.code.val (4 * q.val + c.code.val)]
  | .divVs d a b t q => [packA 13 1 d.val a.val b.val t.code.val (4 * q.val)]
  | .divSc d a b t q => [packA 13 3 d.val a.val b.val t.code.val (4 * q.val)]
  | .remVv d a b t c => [packA 14 0 d.val a.val b.val t.code.val c.code.val]
  | .remVs d a b t => [packA 14 1 d.val a.val b.val t.code.val 0]
  | .remSc d a b t => [packA 14 3 d.val a.val b.val t.code.val 0]
  | .rshrVv d a b t c => [packA 15 0 d.val a.val b.val t.code.val c.code.val]
  | .rshrVs d a b t => [packA 15 1 d.val a.val b.val t.code.val 0]
  | .rshrVi d a i t => [packA 15 2 d.val a.val (i.toNat / 16) t.code.val (i.toNat % 16)]
  | .rshrSc d a b t => [packA 15 3 d.val a.val b.val t.code.val 0]
  | .andnVv d a b t c => [packA 16 0 d.val a.val b.val t.code.val c.code.val]
  | .andnVs d a b t => [packA 16 1 d.val a.val b.val t.code.val 0]
  | .andnVi d a i t => [packA 16 2 d.val a.val (i.toNat / 16) t.code.val (i.toNat % 16)]
  | .andnSc d a b t => [packA 16 3 d.val a.val b.val t.code.val 0]
  | .clzVv d a t => [packA 17 0 d.val a.val 0 t.code.val 0]
  | .clzSc d a t => [packA 17 3 d.val a.val 0 t.code.val 0]
  | .popcVv d a t => [packA 18 0 d.val a.val 0 t.code.val 0]
  | .popcSc d a t => [packA 18 3 d.val a.val 0 t.code.val 0]
  | .pickVv d a b t c => [packA 19 0 d.val a.val b.val t.code.val c.code.val]
  | .pickVs d a b t => [packA 19 1 d.val a.val b.val t.code.val 0]
  | .pickVi d a i t => [packA 19 2 d.val a.val (i.toNat / 16) t.code.val (i.toNat % 16)]
  | .wmulVv d a b t c => [packA 20 0 d.val a.val b.val t.code.val c.code.val]
  | .wmacVv d a b t q c => [packA 21 0 d.val a.val b.val t.code.val (4 * q.val + c.code.val)]
  | .wmacVs d a b t q => [packA 21 1 d.val a.val b.val t.code.val (4 * q.val)]
  | .nrshrVv d a b t c => [packA 22 0 d.val a.val b.val t.code.val c.code.val]
  | .nrshrVs d a b t => [packA 22 1 d.val a.val b.val t.code.val 0]
  | .nrshrVi d a i t => [packA 22 2 d.val a.val (i.toNat / 16) t.code.val (i.toNat % 16)]
  | .absVv d a t q => [packA 23 0 d.val a.val 0 t.code.val (4 * q.val)]
  | .absSc d a t q => [packA 23 3 d.val a.val 0 t.code.val (4 * q.val)]
  | .faddVv d a b t q c => [packA 32 0 d.val a.val b.val t.code.val (4 * q.val + c.code.val)]
  | .faddVs d a b t q => [packA 32 1 d.val a.val b.val t.code.val (4 * q.val)]
  | .faddVi d a i t => [packA 32 2 d.val a.val (i.toNat / 16) t.code.val (i.toNat % 16)]
  | .faddSc d a b t q => [packA 32 3 d.val a.val b.val t.code.val (4 * q.val)]
  | .fsubVv d a b t q c => [packA 33 0 d.val a.val b.val t.code.val (4 * q.val + c.code.val)]
  | .fsubVs d a b t q => [packA 33 1 d.val a.val b.val t.code.val (4 * q.val)]
  | .fsubVi d a i t => [packA 33 2 d.val a.val (i.toNat / 16) t.code.val (i.toNat % 16)]
  | .fsubSc d a b t q => [packA 33 3 d.val a.val b.val t.code.val (4 * q.val)]
  | .fmulVv d a b t q c => [packA 34 0 d.val a.val b.val t.code.val (4 * q.val + c.code.val)]
  | .fmulVs d a b t q => [packA 34 1 d.val a.val b.val t.code.val (4 * q.val)]
  | .fmulVi d a i t => [packA 34 2 d.val a.val (i.toNat / 16) t.code.val (i.toNat % 16)]
  | .fmulSc d a b t q => [packA 34 3 d.val a.val b.val t.code.val (4 * q.val)]
  | .fmaVv d a b t q c => [packA 35 0 d.val a.val b.val t.code.val (4 * q.val + c.code.val)]
  | .fmaVs d a b t q => [packA 35 1 d.val a.val b.val t.code.val (4 * q.val)]
  | .fmaVi d a i t => [packA 35 2 d.val a.val (i.toNat / 16) t.code.val (i.toNat % 16)]
  | .fmaSc d a b t q => [packA 35 3 d.val a.val b.val t.code.val (4 * q.val)]
  | .fnmsVv d a b t q c => [packA 36 0 d.val a.val b.val t.code.val (4 * q.val + c.code.val)]
  | .fnmsVs d a b t q => [packA 36 1 d.val a.val b.val t.code.val (4 * q.val)]
  | .fnmsVi d a i t => [packA 36 2 d.val a.val (i.toNat / 16) t.code.val (i.toNat % 16)]
  | .fnmsSc d a b t q => [packA 36 3 d.val a.val b.val t.code.val (4 * q.val)]
  | .fnmaVv d a b t q c => [packA 37 0 d.val a.val b.val t.code.val (4 * q.val + c.code.val)]
  | .fnmaVs d a b t q => [packA 37 1 d.val a.val b.val t.code.val (4 * q.val)]
  | .fnmaVi d a i t => [packA 37 2 d.val a.val (i.toNat / 16) t.code.val (i.toNat % 16)]
  | .fnmaSc d a b t q => [packA 37 3 d.val a.val b.val t.code.val (4 * q.val)]
  | .fminVv d a b t c => [packA 38 0 d.val a.val b.val t.code.val c.code.val]
  | .fminVs d a b t => [packA 38 1 d.val a.val b.val t.code.val 0]
  | .fminVi d a i t => [packA 38 2 d.val a.val (i.toNat / 16) t.code.val (i.toNat % 16)]
  | .fminSc d a b t => [packA 38 3 d.val a.val b.val t.code.val 0]
  | .fmaxVv d a b t c => [packA 39 0 d.val a.val b.val t.code.val c.code.val]
  | .fmaxVs d a b t => [packA 39 1 d.val a.val b.val t.code.val 0]
  | .fmaxVi d a i t => [packA 39 2 d.val a.val (i.toNat / 16) t.code.val (i.toNat % 16)]
  | .fmaxSc d a b t => [packA 39 3 d.val a.val b.val t.code.val 0]
  | .fdivVv d a b t q c => [packA 40 0 d.val a.val b.val t.code.val (4 * q.val + c.code.val)]
  | .fdivSc d a b t q => [packA 40 3 d.val a.val b.val t.code.val (4 * q.val)]
  | .fsqrtVv d a t q => [packA 41 0 d.val a.val 0 t.code.val (4 * q.val)]
  | .fsqrtSc d a t q => [packA 41 3 d.val a.val 0 t.code.val (4 * q.val)]
  | .frcpVv d a t q => [packA 42 0 d.val a.val 0 t.code.val (4 * q.val)]
  | .frcpSc d a t q => [packA 42 3 d.val a.val 0 t.code.val (4 * q.val)]
  | .frsqVv d a t q => [packA 43 0 d.val a.val 0 t.code.val (4 * q.val)]
  | .frsqSc d a t q => [packA 43 3 d.val a.val 0 t.code.val (4 * q.val)]
  | .fscaleVv d a b t q c => [packA 44 0 d.val a.val b.val t.code.val (4 * q.val + c.code.val)]
  | .fscaleVs d a b t q => [packA 44 1 d.val a.val b.val t.code.val (4 * q.val)]
  | .fscaleVi d a i t => [packA 44 2 d.val a.val (i.toNat / 16) t.code.val (i.toNat % 16)]
  | .frintVv d a t q => [packA 45 0 d.val a.val 0 t.code.val (4 * q.val)]
  | .fclassVv d a t => [packA 46 0 d.val a.val 0 t.code.val 0]
  | .fclassSc d a t => [packA 46 3 d.val a.val 0 t.code.val 0]
  | .fsgnAbs d a t => [packA 47 0 d.val a.val 0 t.code.val 0]
  | .fsgnNeg d a t => [packA 47 0 d.val a.val 0 t.code.val 2]
  | .fsgnCopy d a b t => [packA 47 0 d.val a.val b.val t.code.val 4]
  | .cvtVv d a s t m => [packA 48 0 d.val a.val s.code.val t.code.val m.val]
  | .cvtSc d a s t m => [packA 48 3 d.val a.val s.code.val t.code.val m.val]
  | .cvts d a s t m => [packA 49 0 d.val a.val s.code.val t.code.val m.val]
  | .cvtw d a s t m => [packA 50 0 d.val a.val s.code.val t.code.val m.val]
  | .scld d a s t m => [packA 51 0 d.val a.val s.code.val t.code.val m.val]
  | .cbld k a => [packA 52 0 k.val a.val 0 13 0]
  | .cmpEqVv d a b t c => [packA 56 0 d.val a.val b.val t.code.val c.code.val]
  | .cmpEqVs d a b t => [packA 56 1 d.val a.val b.val t.code.val 0]
  | .cmpEqVi d a i t => [packA 56 2 d.val a.val (i.toNat / 16) t.code.val (i.toNat % 16)]
  | .cmpEqSc d a b t => [packA 56 3 d.val a.val b.val t.code.val 0]
  | .cmpNeVv d a b t c => [packA 56 0 (8 + d.val) a.val b.val t.code.val c.code.val]
  | .cmpNeVs d a b t => [packA 56 1 (8 + d.val) a.val b.val t.code.val 0]
  | .cmpNeVi d a i t => [packA 56 2 (8 + d.val) a.val (i.toNat / 16) t.code.val (i.toNat % 16)]
  | .cmpNeSc d a b t => [packA 56 3 (8 + d.val) a.val b.val t.code.val 0]
  | .cmpLtVv d a b t c => [packA 56 0 (16 + d.val) a.val b.val t.code.val c.code.val]
  | .cmpLtVs d a b t => [packA 56 1 (16 + d.val) a.val b.val t.code.val 0]
  | .cmpLtVi d a i t => [packA 56 2 (16 + d.val) a.val (i.toNat / 16) t.code.val (i.toNat % 16)]
  | .cmpLtSc d a b t => [packA 56 3 (16 + d.val) a.val b.val t.code.val 0]
  | .cmpLeVv d a b t c => [packA 56 0 (24 + d.val) a.val b.val t.code.val c.code.val]
  | .cmpLeVs d a b t => [packA 56 1 (24 + d.val) a.val b.val t.code.val 0]
  | .cmpLeVi d a i t => [packA 56 2 (24 + d.val) a.val (i.toNat / 16) t.code.val (i.toNat % 16)]
  | .cmpLeSc d a b t => [packA 56 3 (24 + d.val) a.val b.val t.code.val 0]
  | .fcmpEqVv d a b t c => [packA 57 0 d.val a.val b.val t.code.val c.code.val]
  | .fcmpEqVs d a b t => [packA 57 1 d.val a.val b.val t.code.val 0]
  | .fcmpEqVi d a i t => [packA 57 2 d.val a.val (i.toNat / 16) t.code.val (i.toNat % 16)]
  | .fcmpEqSc d a b t => [packA 57 3 d.val a.val b.val t.code.val 0]
  | .fcmpLtVv d a b t c => [packA 57 0 (8 + d.val) a.val b.val t.code.val c.code.val]
  | .fcmpLtVs d a b t => [packA 57 1 (8 + d.val) a.val b.val t.code.val 0]
  | .fcmpLtVi d a i t => [packA 57 2 (8 + d.val) a.val (i.toNat / 16) t.code.val (i.toNat % 16)]
  | .fcmpLtSc d a b t => [packA 57 3 (8 + d.val) a.val b.val t.code.val 0]
  | .fcmpLeVv d a b t c => [packA 57 0 (16 + d.val) a.val b.val t.code.val c.code.val]
  | .fcmpLeVs d a b t => [packA 57 1 (16 + d.val) a.val b.val t.code.val 0]
  | .fcmpLeVi d a i t => [packA 57 2 (16 + d.val) a.val (i.toNat / 16) t.code.val (i.toNat % 16)]
  | .fcmpLeSc d a b t => [packA 57 3 (16 + d.val) a.val b.val t.code.val 0]
  | .fcmpUnVv d a b t c => [packA 57 0 (24 + d.val) a.val b.val t.code.val c.code.val]
  | .fcmpUnVs d a b t => [packA 57 1 (24 + d.val) a.val b.val t.code.val 0]
  | .fcmpUnVi d a i t => [packA 57 2 (24 + d.val) a.val (i.toNat / 16) t.code.val (i.toNat % 16)]
  | .fcmpUnSc d a b t => [packA 57 3 (24 + d.val) a.val b.val t.code.val 0]
  | .mlogAnd d a b => [packA 58 0 d.val a.val b.val 0 0]
  | .mlogOr d a b => [packA 58 0 d.val a.val b.val 0 2]
  | .mlogXor d a b => [packA 58 0 d.val a.val b.val 0 4]
  | .msbf d a => [packA 59 0 d.val a.val 0 0 0]
  | .msif d a => [packA 60 0 d.val a.val 0 0 0]
  | .mpopc d a => [packA 61 0 d.val a.val 0 0 0]
  | .mfirst d a => [packA 62 0 d.val a.val 0 0 0]
  | .msetAll d => [packA 63 0 d.val 0 0 0 0]
  | .msetNone d => [packA 63 0 d.val 0 0 0 2]
  | .msetVl d => [packA 63 0 d.val 0 0 0 4]
  | .compress d a t => [packA 64 0 d.val a.val 0 t.code.val 0]
  | .expand d a t => [packA 65 0 d.val a.val 0 t.code.val 0]
  | .iota d t => [packA 66 0 d.val 0 0 t.code.val 0]
  | .vperm d a b t => [packA 67 0 d.val a.val b.val t.code.val 0]
  | .vslupVs d a b t => [packA 68 1 d.val a.val b.val t.code.val 0]
  | .vslupVi d a i t => [packA 68 2 d.val a.val (i.toNat / 16) t.code.val (i.toNat % 16)]
  | .vsldnVs d a b t => [packA 69 1 d.val a.val b.val t.code.val 0]
  | .vsldnVi d a i t => [packA 69 2 d.val a.val (i.toNat / 16) t.code.val (i.toNat % 16)]
  | .vbcastVs d b t => [packA 70 1 d.val 0 b.val t.code.val 0]
  | .vbcastVi d i t => [packA 70 2 d.val 0 (i.toNat / 16) t.code.val (i.toNat % 16)]
  | .bperm d a b t => [packA 71 0 d.val a.val b.val t.code.val 0]
  | .vzipZip d a b t => [packA 72 0 d.val a.val b.val t.code.val 0]
  | .vzipUnzip d a t => [packA 72 0 d.val a.val 0 t.code.val 2]
  | .vmoveExt d a t => [packA 73 0 d.val a.val 0 t.code.val 0]
  | .vmoveIns d a t => [packA 73 0 d.val a.val 0 t.code.val 2]
  | .vmoveElt d a t => [packA 73 0 d.val a.val 0 t.code.val 4]
  | .redSum d a b t sat => [packA 74 0 d.val a.val b.val t.code.val (0 + cond sat 1 0)]
  | .redMin d a b t => [packA 74 0 d.val a.val b.val t.code.val 2]
  | .redMax d a b t => [packA 74 0 d.val a.val b.val t.code.val 4]
  | .redAnd d a b t => [packA 74 0 d.val a.val b.val t.code.val 6]
  | .redOr d a b t => [packA 74 0 d.val a.val b.val t.code.val 8]
  | .redXor d a b t => [packA 74 0 d.val a.val b.val t.code.val 10]
  | .fredOsum d a b t => [packA 75 0 d.val a.val b.val t.code.val 0]
  | .fredTsum d a b t => [packA 75 0 d.val a.val b.val t.code.val 2]
  | .fredMin d a b t => [packA 75 0 d.val a.val b.val t.code.val 4]
  | .fredMax d a b t => [packA 75 0 d.val a.val b.val t.code.val 6]
  | .vmrgLo d a b t => [packA 76 0 d.val a.val b.val t.code.val 0]
  | .vmrgHi d a b t => [packA 76 0 d.val a.val b.val t.code.val 2]
  | .vsort d a t => [packA 77 0 d.val a.val 0 t.code.val 0]
  | .mmaAccResident d a q t m g => [packA 80 0 d.val a.val q.val t.code.val (4 * m.val + g.val)]
  | .mmaZeroResident d a q t m g => [packA 80 1 d.val a.val q.val t.code.val (4 * m.val + g.val)]
  | .mmaAccRegister d a b t m g => [packA 80 2 d.val a.val b.val t.code.val (4 * m.val + g.val)]
  | .mmaZeroRegister d a b t m g => [packA 80 3 d.val a.val b.val t.code.val (4 * m.val + g.val)]
  | .accrd d a t q sat => [packA 81 0 d.val a.val 0 t.code.val (4 * q.val + cond sat 1 0)]
  | .accwr d a t => [packA 82 0 d.val a.val 0 t.code.val 0]
  | .accz d => [packA 83 0 d.val 0 0 0 0]
  | .dfma d a b q => [packA 84 0 d.val a.val b.val 14 (4 * q.val)]
  | .ldr d q b t => [packM 88 0 d.val q.val b.val t.code.val 0]
  | .str d q b t => [packM 89 0 d.val q.val b.val t.code.val 0]
  | .ldrx d q b t => [packM 90 0 d.val q.val b.val t.code.val 0]
  | .strx d q b t => [packM 91 0 d.val q.val b.val t.code.val 0]
  | .ldf sc d a b t ord urg strm => [packM 92 sc.code.val d.val a.val b.val t.code.val (cond ord 4 0 + cond urg 2 0 + cond strm 1 0)]
  | .ldfx sc d a b t ord urg strm => [packM 93 sc.code.val d.val a.val b.val t.code.val (cond ord 4 0 + cond urg 2 0 + cond strm 1 0)]
  | .stf sc d a b t ord urg strm => [packM 94 sc.code.val d.val a.val b.val t.code.val (cond ord 4 0 + cond urg 2 0 + cond strm 1 0)]
  | .stfx sc d a b t ord urg strm => [packM 95 sc.code.val d.val a.val b.val t.code.val (cond ord 4 0 + cond urg 2 0 + cond strm 1 0)]
  | .stfm sc d a b t ord urg strm => [packM 96 sc.code.val d.val a.val b.val t.code.val (cond ord 4 0 + cond urg 2 0 + cond strm 1 0)]
  | .scaddInt sc d a b t => [packM 97 sc.code.val d.val a.val b.val t.code.val 0]
  | .scaddFlt sc d a b t => [packM 97 sc.code.val d.val a.val b.val t.code.val 1]
  | .ldsB d a b => [packM 98 0 d.val a.val b.val 0 0]
  | .ldsH d a b => [packM 98 0 d.val a.val b.val 0 1]
  | .ldsW d a b => [packM 98 0 d.val a.val b.val 0 2]
  | .ldsD d a b => [packM 98 0 d.val a.val b.val 0 3]
  | .ldsBz d a b => [packM 98 0 d.val a.val b.val 0 4]
  | .ldsHz d a b => [packM 98 0 d.val a.val b.val 0 5]
  | .ldsWz d a b => [packM 98 0 d.val a.val b.val 0 6]
  | .stsB d a b => [packM 99 0 d.val a.val b.val 0 0]
  | .stsH d a b => [packM 99 0 d.val a.val b.val 0 1]
  | .stsW d a b => [packM 99 0 d.val a.val b.val 0 2]
  | .stsD d a b => [packM 99 0 d.val a.val b.val 0 3]
  | .amoAdd sc d a b t => [packM 100 sc.code.val d.val a.val b.val t.code.val 0]
  | .amoMin sc d a b t => [packM 100 sc.code.val d.val a.val b.val t.code.val 1]
  | .amoMax sc d a b t => [packM 100 sc.code.val d.val a.val b.val t.code.val 2]
  | .amoAnd sc d a b t => [packM 100 sc.code.val d.val a.val b.val t.code.val 3]
  | .amoOr sc d a b t => [packM 100 sc.code.val d.val a.val b.val t.code.val 4]
  | .amoXor sc d a b t => [packM 100 sc.code.val d.val a.val b.val t.code.val 5]
  | .amoSwap sc d a b t => [packM 100 sc.code.val d.val a.val b.val t.code.val 6]
  | .cas sc d a b t => [packM 101 sc.code.val d.val a.val b.val t.code.val 0]
  | .fenceSv sc => [packM 102 sc.code.val 0 0 0 0 0]
  | .fenceVs sc => [packM 102 sc.code.val 0 0 0 0 1]
  | .fenceVv sc => [packM 102 sc.code.val 0 0 0 0 2]
  | .fenceAll sc => [packM 102 sc.code.val 0 0 0 0 3]
  | .qset q a sc => [packQ 104 q.val a.val 0 sc.code.val]
  | .qdrop q => [packQ 105 q.val 0 0 0]
  | .qwait q a => [packQ 106 q.val a.val 0 0]
  | .qstat q d s => [packQ 107 q.val 0 d.val s.val]
  | .waitAny a => [packQ 108 0 a.val 0 0]
  | .waitAll a => [packQ 108 0 a.val 0 1]
  | .ffrdy a d => [packQ 109 0 a.val d.val 0]
  | .launch a b => [packQ 110 0 a.val b.val 0]
  | .loop n x l s => [packL 112 n.val x.val l.val s.val 0]
  | .kadv k => [packL 113 k.val 0 0 0 0]
  | .krd k d => [packL 114 k.val d.val 0 0 0]
  | .kset k a => [packL 115 k.val a.val 0 0 0]
  | .br o => [packB 116 0 0 o.toNat]
  | .bc c o => [packB 117 c.val 1 o.toNat]
  | .bcClr c o => [packB 117 c.val 0 o.toNat]
  | .call o => [packB 118 0 0 o.toNat]
  | .jmpRet => [packU 119 0 0 0]
  | .jmpJr d => [packU 119 1 d.val 0]
  | .setvl d a t => [packA 120 3 d.val a.val 0 t.code.val 0]
  | .liLo d i => [packU 121 0 d.val i.toNat]
  | .liHi d i => [packU 121 1 d.val i.toNat]
  | .workid d i => [packK 122 0 d.val 0 0 0 i.val]
  | .endk sc => [packK 123 sc.code.val 0 0 0 0 0]
  | .wmark sc a b => [packK 124 sc.code.val 0 a.val b.val 0 0]
  | .barInit sc a b => [packK 125 sc.code.val 0 a.val b.val 0 0]
  | .barArrive sc a => [packK 125 sc.code.val 0 a.val 0 1 0]
  | .barWait sc a => [packK 125 sc.code.val 0 a.val 0 2 0]
  | .barTest sc d a => [packK 125 sc.code.val d.val a.val 0 3 0]
  | .vpush d a b n => [packK 126 0 d.val a.val b.val 0 n.val]
  | .trap i => [packS 127 0 0 0 i.toNat]
  | .svc i => [packS 127 1 0 0 i.toNat]
  | .eret => [packS 127 2 0 0 0]
  | .csrr d c => [packS 127 3 d.val 0 c.toNat]
  | .csrw a c => [packS 127 4 0 a.val c.toNat]
  | .tlbi a => [packS 127 5 0 a.val 0]
  | .tlbs => [packS 127 6 0 0 0]
  | .sweep d a => [packS 127 7 d.val a.val 0]
  | .relmove d a => [packS 127 8 d.val a.val 0]
  | .vsave a => [packS 127 9 0 a.val 0]
  | .vrest a => [packS 127 10 0 a.val 0]
  | .idle => [packS 127 11 0 0 0]
  | _ => []

end Sys2Proof
end

