-- ==== Sys2Proof/Config.lean ====
section
/-! DEFINITION. What an implementation fixes and the free values: constants without a body, of which no proof can see
a value. Each is named in the assumption log. -/

namespace Sys2Proof.Config

/-- The cycle number that a trace or error record holds (R326, R339): the model has no clock (log 4). -/
opaque freeCycle : Nat → BitVec 40
/-- A count of cycles: LCUSE to LCSTALL when read, waits for a bank, and replies of a cycle (R188, R314, R328; log 4, log 97). -/
opaque freeCount : Nat → BitVec 64
/-- The data bits a read returns where the spec states no result (log 5). -/
opaque freeBits : Nat → BitVec 64
/-- Which of two dirty copies of one memory element remains (R184; log 6). -/
opaque freeOrder : Nat → Bool
/-- The HBM stack that serves a line of 128 bytes: which one serves an address is not in the spec (R32, R337; log 8). -/
opaque stackOf : Nat → BitVec 3
/-- Is a page of 64 KiB of physical addresses outside HBM and the service space a window on the host (R224; log 39). -/
opaque hostPage : Nat → Bool
/-- SHA3-256 (R335, R336): the spec names the hash and does not give it (log 7). -/
opaque sha3 : List (BitVec 8) → BitVec 256
/-- The image of a measurement index that the part boots with (R335; log 7). -/
opaque firstImage : Nat → List (BitVec 8)
/-- The bytes of the certificate chain of slot 0 (R335; log 7). -/
opaque certChain : List (BitVec 8)
/-- The ML-DSA-44 signature of the device key over a message (R335; log 7). -/
opaque signature : List (BitVec 8) → List (BitVec 8)
/-- Does an ML-DSA-44 signature of a digest verify under the fused vendor key (R336; log 7). -/
opaque verifies : BitVec 256 → List (BitVec 8) → Bool
/-- The fused minimum version of a part (R336; log 7). -/
opaque minVersion : Nat → Nat
/-- The capability flags the part answers SPDM with (R335; log 7). -/
opaque spdmCapabilities : BitVec 32
/-- Camyon's enterprise number, which the spec does not give (R335; log 7). -/
opaque camyon : BitVec 32

end Sys2Proof.Config
end

