-- ==== Sys2Proof/Machine/State.lean ====
section
/-! DEFINITION. The state of the part: everything the spec gives the machine, as plain data, and `State.reset`. Where a
field is the model's own, its docstring says so. Reset values the spec does not give are those of log 2 and log 3. -/

namespace Sys2Proof.Machine

/-- Why the machine stops with a fault. -/
inductive Fault where
  /-- A physical access outside HBM and outside every window of the service space (R32, R331), raised by the operations
  over physical memory. Safe: the spec gives such an address no meaning. -/
  | noSuchPhysicalAddress
  deriving DecidableEq, Repr

/-- Why the machine refuses an instruction. -/
inductive Refusal where
  /-- The instruction has no meaning in the model; raised by the dispatcher alone. Safe. -/
  | notModelled (mnemonic : String)
  deriving DecidableEq, Repr

/-- The trap causes of R253. -/
inductive TrapCode where
  | undefinedInstruction | emulation | privilege | illegalType | illegalOperand | instructionAlignment | trap | svc
  | vectorUnavailable | pageFault | permission | misaligned | poison | atomicNotCarried | markChain | asleep
  | linkIncomplete | multicastDenied | residencyMiss | fillError | descriptor | capacity | overlap | preempt | resume
  deriving DecidableEq, Repr, Inhabited

/-- Slot states (R85). -/
inductive SlotState where
  | vacant | run | wait | drain | stop
  deriving DecidableEq, Repr, Inhabited

/-- Context states (R250). -/
inductive CtxState where
  | free | loading | ready | running | preempting | saved | faulted | halted | ended
  deriving DecidableEq, Repr, Inhabited

/-- Group states (R285). -/
inductive GroupState where
  | unplaced | bound | saving | saved | ended | faulted
  deriving DecidableEq, Repr, Inhabited

/-- Residency register states (R193). -/
inductive QState where
  | retired | live | dropping
  deriving DecidableEq, Repr, Inhabited

/-- Hardware queue states (R270). -/
inductive HqState where
  | disabled | idle | active | blocked | faulted
  deriving DecidableEq, Repr, Inhabited

/-- Port states (R312). -/
inductive PortState where
  | down | training | up | errorHeld
  deriving DecidableEq, Repr, Inhabited

/-- Cluster power states (R318). -/
inductive ClusterState where
  | running | gating | gated | waking
  deriving DecidableEq, Repr, Inhabited

/-- Live-update states (R338). -/
inductive UpdateState where
  | idle | verifying | draining | loading | done | rejected | loadFailed
  deriving DecidableEq, Repr, Inhabited

/-- Rounding modes of VTYPE.RM (R20, R43). -/
inductive RMode where
  | rne | rtz | rdn | rup | rsr
  deriving DecidableEq, Repr, Inhabited

/-- A vector register: data bits and side bytes (R12). -/
structure VReg where
  data : VBits
  side : SBits
  deriving DecidableEq, Repr

/-- The sticky flag word (R48). -/
structure FlagWord where
  nx : Bool
  uf : Bool
  of : Bool
  dz : Bool
  nv : Bool
  sat : Bool
  deriving DecidableEq, Repr

/-- The nest registers (R101). -/
structure Nest where
  act : Bool
  own : Bool
  n : BitVec 3
  sm1 : BitVec 2
  lenm1 : BitVec 6
  nbody : X64
  npass : BitVec 48
  trip : Vector (BitVec 32) 6
  deriving DecidableEq, Repr

/-- TSR and the other trap registers of a slot (R251 to R253). -/
structure TrapRegs where
  froz : Bool
  vu : Bool
  inh : Bool
  ppriv : Bool
  priv : Bool
  cause : X64
  epc : X64
  tval : X64
  rpc : X64
  tvec : X64
  tscr0 : X64
  tscr1 : X64
  cimg : X64
  acct : X64
  deriving DecidableEq, Repr

/-- What a queue entry is (R257). -/
inductive EntryKind where
  | instr | counter | qMarker | marker
  deriving DecidableEq, Repr, Inhabited

/-- One entry of the control queue (R24, R257). `cvHead` and `cvPos` name its convoy (R28); `leave` counts the units its
current chunk still covers (R169), says for a far load whether an active element was performed since it began or resumed (R212),
and for a far store whether every element was issued (R216); `ahead` counts the element groups that were issued while the entry
stood behind the head (R25, R275); `turn` is the place of its chunk among the chunks of its thread that wait for leave, 0 when it
waits for none (R315). -/
structure Entry where
  kind : EntryKind
  ins : Option Instr
  word : Word
  scalar : X64
  pc : X64
  stages : BitVec 4
  named : BitVec 6
  vl : BitVec 13
  p : Bool
  cvHead : X64
  cvPos : Nat
  leave : Nat
  ahead : Nat := 0
  turn : Nat := 0
  deriving DecidableEq, Repr

/-- The lane state of a thread (R17, R258). -/
structure Lane where
  v : Vector VReg 32
  m : Vector MBits 8
  a : Vector VBits 256
  b : Vector (Vector (BitVec 16) 16) 8
  msel : BitVec 3
  vl : BitVec 13
  vstride : X64
  vstart : BitVec 12
  sre : Bool
  slices : BitVec 4
  rm : RMode
  srseed : X64
  vdirty : BitVec 32
  adirty : BitVec 32
  femask : BitVec 32
  vext : BitVec 6
  flags : FlagWord
  deriving DecidableEq, Repr

/-- A residency descriptor (R171). -/
structure Desc where
  base : X64
  flags : X64
  ext : Vector (BitVec 32) 6
  str : Vector (BitVec 32) 6
  box : Vector X64 6
  shape : X64
  waddr : X64
  deriving DecidableEq, Repr

/-- The header and code table of a compressed tensor (R179). -/
structure CompHeader where
  frames : X64
  data : X64
  lens : List Nat
  outliers : X64
  outCount : Nat
  count : Nat
  deriving DecidableEq, Repr

/-- Why a filled element is failed (R186). -/
structure FillFail where
  code : TrapCode
  addr : Option X64
  deriving DecidableEq, Repr

/-- One element held in the loft: its register coordinates, code bits, scale, the base or index pointer it was fetched
through, dirty and failed state (R176, R181, R184, R186). -/
structure Cell where
  co : List Int
  val : X64
  scale : Byte
  base : X64
  dirty : Bool
  fail : Option FillFail
  deriving DecidableEq, Repr

/-- One generation of a residency register: its delivery number and counters, the counters of the one before it (R182,
R183), the delivery number of its index register at the same queue position (R181), whether the gate was passed, whether the
leaving elements were released, whether it has landed, and how many FENCE.VV the lanes had passed when they passed its counter
event (R231). -/
structure Gen where
  n : Nat
  ks : Vector (BitVec 32) 6
  old : Option (Vector (BitVec 32) 6)
  ix : Nat
  gate : Bool
  gateFail : Option FillFail
  released : Bool
  landed : Bool
  causePc : X64
  epoch : Nat := 0
  deriving DecidableEq, Repr

/-- Writebacks that have not been acknowledged: for each element, or whole segment with its scale, its bytes at their virtual
addresses, and the PC that their fault names (R178, R184, R186). `lost` are those that met a fault, `hard` says that one of these met
another than LINK-INCOMPLETE, `fail` is the first fault, `raised` whether the lane fault for it was taken, `epoch` how many FENCE.VV
the lanes had passed before the release's event (R231). -/
structure Writeback where
  elems : List (List (Nat × List Byte))
  lost : List (List (Nat × List Byte)) := []
  hard : Bool := false
  causePc : X64
  fail : Option FillFail
  raised : Bool
  epoch : Nat := 0
  deriving DecidableEq, Repr

/-- A residency register (R171 to R202, R349). `lens` are the dimensions RL of its ring (R187); `lanesSee` is whether entries at
the lanes see it LIVE; element `past` of `gens` is the generation they see, and those before it have not landed yet (R182). -/
structure ResReg where
  st : QState
  desc : Desc
  book : Vector (BitVec 16) 16
  hdr : Option CompHeader
  acq : Scope
  qsetPc : X64
  dropPc : X64
  ringBase : Nat
  ringBytes : Nat
  lens : List Nat
  created : Nat
  slabs : Nat
  lanesSee : Bool
  paired : Bool
  gens : List Gen
  past : Nat := 0
  cells : List Cell
  wbs : List Writeback
  deriving DecidableEq, Repr

/-- A trap decided and not yet entered (R77, R85). -/
structure PendTrap where
  code : TrapCode
  kind : Nat
  lane : Bool
  epc : X64
  tval : X64
  rpc : X64
  deriving DecidableEq, Repr

/-- How far the instruction at the slice's PC has got while the slice stalls (R86, R255): not begun; its own entry or
marker pushed, for the register d; the lanes' value for d returned; its WMARK marker pushed; or what it waits for: a QWAIT, a
WAIT, a barrier's phase or its EXPECT (none), the registers [d, d + n) that a VPUSH finds armed in thread p, or the advance depth of
the named counters. -/
inductive Phase where
  | fresh
  | pushed (d : Nat)
  | value (d : Nat) (v : X64)
  | marked
  | qwait (q : Nat) (n : X64)
  | bits (all : Bool) (m : X64)
  | barrier (off : Nat) (phase : Option Bool)
  | peer (p d n : Nat)
  | depth (named : BitVec 6)
  deriving DecidableEq, Repr

/-- One hardware thread slot. `loft` is where its LOFTT bytes lie in the loft of its cluster (R349). In STOP the lanes drain a convoy
while `stopping`, and only settle what a far store has issued while `closing` (R215, R323); `cvVl` is the VL of the head of the
convoy that is retiring (R326); `jumped` says that a taken branch has led to the end address of the live body (R96); `busy` says that
the slice is inside an instruction that has stalled, and `rebases` the base registers to rewrite at its next boundary, with the page
and the delta (R244); `fences` counts the FENCE.VV that the lanes have passed (R231). -/
structure Slot where
  st : SlotState
  prev : SlotState
  cause : Nat
  pc : X64
  x : Vector X64 32
  c : Vector Bool 16
  k : Vector (BitVec 32) 6
  nest : Nest
  tr : TrapRegs
  svl : BitVec 13
  swidth : Option Ty
  share : Nat
  cap : BitVec 4
  ctxid : X64
  ptroot : X64
  elast : X64
  bankstall : X64
  lc : Vector X64 5
  workId : X64
  ctx : Option Nat
  group : Nat
  f0 : Nat
  loft : Nat
  phase : Phase
  pend : Option PendTrap
  preempt : Bool
  bkPass : Bool
  stopping : Bool
  closing : Bool
  cvVl : BitVec 13
  jumped : Bool
  busy : Bool := false
  rebases : List (Nat × Nat × X64) := []
  fences : Nat
  cst : CtxState
  lane : Lane
  queue : List Entry
  lastCv : Option Entry
  landed : X64
  qdone : Vector X64 16
  q : Vector ResReg 16
  deriving DecidableEq, Repr

/-- A TLB entry: what one walk found for the 64 KiB page (R239). -/
structure TlbEnt where
  asid : Nat
  vpage : Nat
  level : Nat
  pte : X64
  deriving DecidableEq, Repr

/-- A core's debug block (R320, R325, R358). -/
structure DebugBlock where
  dbk : Vector X64 8
  reason : Nat
  mthr : Nat
  mtch : Nat
  sthr : Nat
  drain : Bool
  trctl : X64
  trbase : X64
  trfull : Bool
  tridx : Nat
  dpre : X64
  deriving DecidableEq, Repr

/-- A piece waiting at a core's network port (R264); `old` once it has waited through a cycle (R353). -/
structure Piece where
  id : Nat
  old : Bool
  deriving DecidableEq, Repr

/-- One core: scalar data L1 (dirty bytes by physical address, R31), TLB, RLATE, current bucket (balance in sixteenths of a
token, and the capacity in force since the last refill, R315, R319), network port with its window, its outstanding pieces and
whether a marked reply has halved it in these 1,024 cycles (R264, R314), the SHARE of each ID at the last refill (R353), issue turn (R275), gated lane groups (R317), lane
allocation table: the thread that holds each held group (R11, R89), debug block. -/
structure Core where
  l1 : List Host.Cell
  tlb : List TlbEnt
  rlate : X64
  bal16 : Nat
  capacity : Nat
  capNow : Nat
  rate : Nat
  plimmax : Nat
  plim : Nat
  waiting : List Nat
  buckets : List (Nat × Nat)
  pieces : List Piece
  issued : List Nat
  shares : List (Nat × Nat) := []
  lastId : Option Nat
  window : Nat
  outstanding : Nat
  halved : Bool
  rr : Nat
  gatedLanes : List Nat
  lanes : List (Nat × Nat)
  dbg : DebugBlock
  deriving DecidableEq, Repr

/-- One cluster: CPWR, its power state, its energy counter and the writes to its window that it lets wait, by address (R263, R318,
R319). -/
structure Cluster where
  gidle : BitVec 16
  auto : Bool
  st : ClusterState
  energy : X64
  late : List (Nat × X64) := []
  deriving DecidableEq, Repr

/-- A barrier (R292). -/
structure Barrier where
  count : BitVec 32
  expect : BitVec 32
  phase : Bool
  deriving DecidableEq, Repr, Inhabited

/-- A group of a launch (R284, R285): `slots` gives the slot of each thread while bound, `ended` which threads have
completed ENDK, `bars` the group area, `badBars` its damaged words, `boundAt` the number of the last bind, and `area` where its LOFTG
bytes lie in the loft (R349). -/
structure Group where
  st : GroupState
  cluster : Nat
  slots : List (Option Nat)
  ended : List Bool
  bars : List (Nat × Barrier)
  badBars : List Nat
  boundAt : Nat
  area : Nat := 0
  deriving DecidableEq, Repr

/-- A launch and its context (R250, R271, R276, R279). `waits` is the group whose bind waits for its cluster to wake (R318);
`word` says that the completion word is on its way, and with which FLT, `wordAt` where a drained stack holds it (R280, R337); `codeMem` is memory as it was when the code image was
loaded (R31). -/
structure Ctx where
  crec : X64
  hqroot : X64
  hq : Nat
  prio : Nat
  age : Nat
  st : CtxState
  ptroot : X64
  tvec : X64
  cimg : X64
  ctxid : X64
  pack : Bool
  code : X64
  codelen : Nat
  entry : Nat
  widths : List Nat
  counts : List Nat
  lgwish : Nat
  qcnt : Nat
  agrp : Nat
  loftt : Nat
  loftg : Nat
  cwaddr : X64
  cwscope : Nat
  irq : Bool
  codeMem : List Host.Cell
  groups : List (Nat × Group)
  nextGroup : Nat
  waits : Option (Nat × Nat)
  word : Option Bool
  wordAt : Option Nat := none
  endedGroups : Nat
  flags : FlagWord
  faultCode : Nat
  deriving DecidableEq, Repr

/-- A hardware queue (R266). `pkt` holds the words of a head packet that has passed the checks of its words and waits (R269);
`memWait` says that it waits for memory, a record or a word, and not for launches to complete. -/
structure Hq where
  base : X64
  root : X64
  vec : BitVec 8
  prio : BitVec 3
  head : BitVec 32
  tail : BitVec 32
  mark : BitVec 32
  err : BitVec 8
  opn : Nat
  st : HqState
  pkt : List X64
  memWait : Bool
  deriving DecidableEq, Repr

/-- What the drover does in one of its four places (R242, R248). -/
inductive DroverOp where
  /-- A move of `pages` pages: the pages before `page` are done, `marked` of them marked; `failed` is the first page whose
  entry could not be marked. -/
  | move (root : X64) (desc src dst : X64) (pages mcls page marked : Nat) (failed : Option X64)
  /-- A sweep: next word, end, class and words rewritten; `again` while a word is examined once more. -/
  | sweep (root : X64) (desc next stop : X64) (mcls count : Nat) (again : Bool)
  deriving DecidableEq, Repr

/-- A page of a move whose old place still forwards: old and new physical page, the lines below `upto` and those in `ahead`
copied, the operation and the page's number in it, its entry's physical address and the moving entry (R242). -/
structure Fwd where
  old : Nat
  new : Nat
  upto : Nat
  ahead : List Nat
  op : Nat
  page : Nat
  ea : Nat
  pte : X64
  deriving DecidableEq, Repr

/-- A thread, whichever slot it is bound to: its launch, group and f0; outside any launch its slot stands for it. -/
structure ThreadId where
  ctx : Option Nat
  group : Nat
  f0 : Nat
  deriving DecidableEq, Repr

/-- A TLBI on its way (R249): the address space, the page or every entry, the issuing thread and the cores that have
received it. `drover` names the operation whose invalidation it is. -/
structure Tlbi where
  asid : Nat
  page : Option Nat
  thread : Option ThreadId
  drover : Option Nat
  received : List Nat
  deriving DecidableEq, Repr

/-- A packet of a link (R301). -/
structure Packet where
  cls : LinkClass
  dpart : Nat
  spart : Nat
  kind : Nat
  opc : Nat
  tag : Nat
  addr : Nat
  len : Nat
  status : Nat
  atype : Nat
  arm : Nat
  draw : Nat
  data : List Byte
  deriving DecidableEq, Repr

/-- The flits of one packet not yet all sent, or not yet all received. -/
structure OpenPacket where
  flits : List (BitVec 1024)
  tag : Nat
  isReq : Bool
  started : Bool
  deriving DecidableEq, Repr

/-- What a link-control flit carries beside ACK (R300, R306 to R308, R312). -/
inductive LinkCtl where
  | nak (seq : Nat)
  | credit (cls : LinkClass) (n : Nat)
  | discard (cls : LinkClass)
  | keepAlive
  | errorHeld
  deriving DecidableEq, Repr

/-- The last flit put on the wire: a counted flit, or a link-control flit with its ACK. -/
inductive Wire where
  | flit (f : BitVec 1024)
  | ctl (c : LinkCtl) (ack : Nat)
  deriving DecidableEq, Repr

/-- A Tribin port (R299 to R313). The lists of three are BULK, URGENT and CONTROL. -/
structure Port where
  st : PortState
  reason : Nat
  wait : Vector (List Packet) 3
  tx : Vector (Option OpenPacket) 3
  credit : Vector Nat 3
  starve : Nat
  ctl : List LinkCtl
  seq : Nat
  replay : List (BitVec 1024)
  toResend : List (BitVec 1024)
  retrySeq : Nat
  retryRun : Nat
  rxSeq : Nat
  naked : Bool
  rx : Vector (Option (List (BitVec 1024))) 3
  delivered : List Packet
  wire : Option Wire
  retries : Nat
  discards : Nat
  starves : Nat
  deriving DecidableEq, Repr

/-- What has come of a request over a link (R301, R309). -/
inductive ReqOutcome where
  | waiting
  | ok (data : List Byte)
  | notCarried
  | incomplete
  deriving DecidableEq, Repr

/-- A request over a link that its issuer has not yet consumed (R301, R309). `owner` is the issuing agent's number, the
model's own notion; the kind, part, address and length are those of the request's packet. For a packet of a far access, `elem`
is its lowest element, `eva` that element's address and `va` the address of its lowest byte (R216, R240); elsewhere they are 0.
`asid` is the address space of the access (R249), and `parked` the pre-empted thread whose stalled instruction made the request and
will find it again (R255). -/
structure LinkReq where
  tag : Nat
  port : Nat
  owner : Nat
  kind : Nat
  part : Nat
  addr : Nat
  len : Nat
  elem : Nat
  eva : X64
  va : X64
  outcome : ReqOutcome
  asid : Nat := 0
  parked : Option ThreadId := none
  deriving DecidableEq, Repr

/-- The registry that names an extended algorithm of SPDM (R335). -/
inductive SpdmRegistry where
  | iana
  deriving DecidableEq, Repr

/-- An extended algorithm of SPDM: its registry, the enterprise number of its vendor and its identifier (R335). -/
structure ExtAlg where
  registry : SpdmRegistry
  vendor : BitVec 32
  id : BitVec 16
  deriving DecidableEq, Repr

/-- What the part answers to SPDM (R335). -/
inductive SpdmAnswer where
  | version (v : BitVec 16)
  | capabilities (flags : BitVec 32)
  | algorithms (sha3 : Bool) (baseAsym : BitVec 32) (extAsym : List ExtAlg)
  | digests (d : BitVec 256)
  | certificate (chain : List (BitVec 8))
  | challengeAuth (sig : List (BitVec 8))
  | measurements (index : Nat) (digests : List (BitVec 256))
  | unsupportedRequest
  | error
  deriving DecidableEq, Repr

/-- The SPDM responder (R335). -/
structure Spdm where
  negotiated : Bool
  asymOk : Bool
  answers : List SpdmAnswer
  deriving DecidableEq, Repr

/-- The service registers and the rest of the I/O die (R332 to R339). `ctlUnit` and `ctlPart` are the fields of UPCTL;
`upUnit` and `upPart` those of the update that runs or ran last; `offParts` holds part * 256 + unit of each drained part
(R337); `images` the images that updates have loaded, by measurement index (R335); `msi` the functions and vectors signalled,
function 0 the physical one (R332); `hostReply` the bytes of the last answer to a host read, none when it was Unsupported Request. -/
structure Service where
  erbase : X64
  lost : Bool
  eridx : BitVec 32
  ercons : BitVec 32
  upsrc : X64
  ctlUnit : Nat
  ctlPart : Nat
  upUnit : Nat
  upPart : Nat
  upst : UpdateState
  boot : Nat
  partid : Nat
  staged : List Byte
  images : List (Nat × List Byte)
  offParts : List Nat
  errCounts : List (Nat × Nat)
  qown : Vector (BitVec 8) 64
  msi : List (Nat × Nat)
  hostReply : Option (List Byte)
  deriving DecidableEq, Repr

/-- One move of the agenda, the model's own notion: a step of the device, one instruction of a slot's slice, the eviction of a
line of a core's data L1 (R31), the write of a register that a system agent has made (R331), or the writing of a dump from a 4 KiB
page of physical memory on (R329, R330), or a store of a system agent or a request of the host that its home slice has held (R337). -/
inductive Move where
  | step (i : Instr)
  | slice (k : Fin 1024)
  | evict (core : Fin 64) (line : Nat)
  | register (pa : BitVec 52) (v : X64)
  | dump (page : BitVec 40)
  | store (pa : BitVec 52) (b : List Byte)
  | host (write : Bool) (addr : BitVec 64) (data : List Byte)
  deriving DecidableEq, Repr

/-- The whole part. `hostMem` is the memory behind the windows on the host, by the physical address of the window: the host's,
not the part's (log 39). `haltCore` is the first core that halted (R329); `held` are the stores and host requests that drained
stacks hold, in arrival order (R337). `slots` lists the slots that have been bound; every other slot is `Slot.reset`. `agenda`,
`cur`, `turn` and `free` are the model's own fields: the moves to come, the slot whose slice acts, the slot whose turn is next, and
the count of free values used. -/
structure State where
  mem : List Host.Cell
  poison : List Nat
  hostMem : List Host.Cell
  slots : List (Nat × Slot)
  cores : Vector Core 64
  clusters : Vector Cluster 16
  hqs : Vector Hq 64
  ctxs : List (Nat × Ctx)
  nextCtx : Nat
  drover : Vector (Option DroverOp) 4
  fwds : List Fwd
  tlbis : List Tlbi
  ports : Vector Port 16
  reqs : List LinkReq
  nextTag : Nat
  svc : Service
  spdm : Spdm
  halted : Bool
  haltCore : Nat
  held : List Move
  agenda : List Move
  cur : Nat
  turn : Nat
  free : Nat
  deriving DecidableEq, Repr

/-- A vector register at reset (R12). -/
def VReg.reset : VReg := { data := 0, side := 0 }

/-- No flag raised (R48). -/
def FlagWord.reset : FlagWord := { nx := false, uf := false, of := false, dz := false, nv := false, sat := false }

/-- The nest registers at reset (R101). -/
def Nest.reset : Nest :=
  { act := false, own := false, n := 0, sm1 := 0, lenm1 := 0, nbody := 0, npass := 0, trip := Vector.replicate 6 0 }

/-- The trap registers at reset (R251, R252). -/
def TrapRegs.reset : TrapRegs :=
  { froz := false, vu := true, inh := false, ppriv := false, priv := false, cause := 0, epc := 0, tval := 0, rpc := 0,
    tvec := 0, tscr0 := 0, tscr1 := 0, cimg := 0, acct := 0 }

/-- The FP4 E2M1 codebook that b0 resets to (R41). -/
def fp4Book : Vector (BitVec 16) 16 :=
  #v[0x0000, 0x3F00, 0x3F80, 0x3FC0, 0x4000, 0x4040, 0x4080, 0x40C0,
     0x8000, 0xBF00, 0xBF80, 0xBFC0, 0xC000, 0xC040, 0xC080, 0xC0C0]

/-- Lane state at reset (R12, R17). -/
def Lane.reset : Lane :=
  { v := Vector.replicate 32 VReg.reset
    m := #v[0, 0, 0, 0, 0, 0, 0, BitVec.allOnes 4096]
    a := Vector.replicate 256 0
    b := #v[fp4Book, Vector.replicate 16 0, Vector.replicate 16 0, Vector.replicate 16 0,
            Vector.replicate 16 0, Vector.replicate 16 0, Vector.replicate 16 0, Vector.replicate 16 0]
    msel := 7, vl := 0, vstride := 0, vstart := 0, sre := false, slices := 7, rm := .rne, srseed := 1
    vdirty := 0, adirty := 0, femask := 0, vext := 0, flags := FlagWord.reset }

/-- An empty descriptor. -/
def Desc.reset : Desc :=
  { base := 0, flags := 0, ext := Vector.replicate 6 0, str := Vector.replicate 6 0, box := Vector.replicate 6 0
    shape := 0, waddr := 0 }

/-- A retired residency register (R12). -/
def ResReg.reset : ResReg :=
  { st := .retired, desc := Desc.reset, book := Vector.replicate 16 0, hdr := none, acq := .thread,
    qsetPc := 0, dropPc := 0
    ringBase := 0, ringBytes := 0, lens := [], created := 0, slabs := 0, lanesSee := false, paired := false,
    gens := [], past := 0, cells := []
    wbs := [] }

/-- A VACANT slot with its registers at their Reset values (R7, R12, R86, R101, R251, R263). -/
def Slot.reset : Slot :=
  { st := .vacant, prev := .vacant, cause := 0, pc := 0, x := Vector.replicate 32 0, c := Vector.replicate 16 false
    k := Vector.replicate 6 0, nest := Nest.reset, tr := TrapRegs.reset, svl := 0, swidth := none, share := 0, cap := 5
    ctxid := 0x0000010000000000#64, ptroot := 0, elast := 0, bankstall := 0, lc := Vector.replicate 5 0, workId := 0
    ctx := none, group := 0, f0 := 0, loft := 0, phase := .fresh, pend := none, preempt := false,
    bkPass := false, stopping := false, closing := false, cvVl := 0, jumped := false, fences := 0
    cst := .free
    lane := Lane.reset, queue := [], lastCv := none, landed := 0
    qdone := Vector.replicate 16 0, q := Vector.replicate 16 ResReg.reset }

/-- A debug block at reset (R320, R325, R358). -/
def DebugBlock.reset : DebugBlock :=
  { dbk := Vector.replicate 8 0, reason := 0, mthr := 0, mtch := 0, sthr := 0, drain := false, trctl := 0, trbase := 0
    trfull := false, tridx := 0, dpre := 0 }

/-- A core at reset (R247, R314, R319). -/
def Core.reset : Core :=
  { l1 := [], tlb := [], rlate := 0, bal16 := 4096, capacity := 256, capNow := 256, rate := 512, plimmax := 32,
    plim := 32, waiting := []
    buckets := [], pieces := [], issued := [], lastId := none, window := 256, outstanding := 0,
    halved := false, rr := 0, gatedLanes := [], lanes := []
    dbg := DebugBlock.reset }

/-- A cluster at reset (R319). -/
def Cluster.reset : Cluster := { gidle := 64, auto := true, st := .running, energy := 0 }

/-- A hardware queue at reset: DISABLED (R266, R270). -/
def Hq.reset : Hq :=
  { base := 0, root := 0, vec := 0, prio := 0, head := 0, tail := 0, mark := 0, err := 0, opn := 0,
    st := .disabled, pkt := [], memWait := false }

/-- A port at reset: DOWN (R313). -/
def Port.reset : Port :=
  { st := .down, reason := 0, wait := Vector.replicate 3 [], tx := Vector.replicate 3 none,
    credit := Vector.replicate 3 0
    starve := 0, ctl := [], seq := 0, replay := [], toResend := [], retrySeq := 0, retryRun := 0, rxSeq := 0,
    naked := false
    rx := Vector.replicate 3 none, delivered := [], wire := none, retries := 0, discards := 0, starves := 0 }

/-- The service registers at reset (R333, R334). -/
def Service.reset : Service :=
  { erbase := 0, lost := false, eridx := 0, ercons := 0, upsrc := 0, ctlUnit := 0, ctlPart := 0, upUnit := 0,
    upPart := 0
    upst := .idle, boot := 0, partid := 0, staged := [], images := [], offParts := [], errCounts := [],
    qown := Vector.replicate 64 0, msi := []
    hostReply := some [] }

/-- The part right after a cold reset, before the mask ROM has run (R7, R334). -/
def State.reset : State :=
  { mem := [], poison := [], hostMem := [], slots := [], cores := Vector.replicate 64 Core.reset
    clusters := Vector.replicate 16 Cluster.reset, hqs := Vector.replicate 64 Hq.reset, ctxs := [], nextCtx := 0
    drover := Vector.replicate 4 none, fwds := [], tlbis := [], ports := Vector.replicate 16 Port.reset, reqs := []
    nextTag := 0, svc := Service.reset, spdm := { negotiated := false, asymOk := false, answers := [] },
    halted := false, haltCore := 0, held := []
    agenda := [], cur := 0, turn := 0, free := 0 }

end Sys2Proof.Machine
end

