-- ==== Sys2Proof/Machine/Numbers.lean ====
section
/-! DEFINITION. Number formats and exact arithmetic (02_numbers.md, R33 to R52): integers fitted to a width, floats as exact
dyadic values, rounding in five modes with its flags, scales and codebooks. -/

namespace Sys2Proof.Machine

/-! ### Integers -/

/-- A w-bit pattern read as a signed number. -/
def toSigned (w n : Nat) : Int := if 2 * (n % 2 ^ w) < 2 ^ w then ((n % 2 ^ w : Nat) : Int) else ((n % 2 ^ w : Nat) : Int) - (2 ^ w : Nat)

/-- The low w bits of an exact integer: wrap (R34). -/
def wrapTo (w : Nat) (z : Int) : Nat := (z % ((2 ^ w : Nat) : Int)).toNat

/-- The value of a pattern of an integer type (R33). -/
def intVal (t : Ty) (n : Nat) : Int := if t.isSigned then toSigned t.bits n else ((n % 2 ^ t.bits : Nat) : Int)

/-- The least value of an integer type (R33). -/
def intMin (t : Ty) : Int := if t.isSigned then -((2 ^ (t.bits - 1) : Nat) : Int) else 0

/-- The greatest value of an integer type (R33). -/
def intMax (t : Ty) : Int := if t.isSigned then ((2 ^ (t.bits - 1) : Nat) : Int) - 1 else ((2 ^ t.bits : Nat) : Int) - 1

/-- Clamp an exact integer to a type; the second part says whether it was clamped (R34). -/
def clampInt (t : Ty) (z : Int) : Int × Bool :=
  if z < intMin t then (intMin t, true) else if z > intMax t then (intMax t, true) else (z, false)

/-- Fit an exact integer to a type: wrap, or saturate with SAT (R34). -/
def fitInt (t : Ty) (sat : Bool) (z : Int) : Nat × Bool :=
  if sat then (wrapTo t.bits (clampInt t z).1, (clampInt t z).2) else (wrapTo t.bits z, false)

/-- Sign-extend the low w bits to 64. -/
def sext64 (w n : Nat) : X64 := BitVec.ofInt 64 (toSigned w n)

/-- A w-bit result in an x register: sign-extended for S types, zero-extended for N types (R110). -/
def extendInt (t : Ty) (n : Nat) : X64 :=
  if t.isSigned then sext64 t.bits n else BitVec.ofNat 64 (n % 2 ^ t.bits)

/-! ### Float values -/

/-- A float value: every NaN is alike (R37); a finite value is ±m × 2^e, with signed zeros. -/
inductive FVal where
  | nan
  | inf (neg : Bool)
  | fin (neg : Bool) (m : Nat) (e : Int)
  deriving DecidableEq, Repr, Inhabited

/-- Exponent width of a float format (R35). -/
def expBits : Ty → Nat
  | .f16 | .f8e5 => 5
  | .f8e4 => 4
  | .f64s => 11
  | _ => 8
/-- Fraction width of a float format (R35). -/
def fracBits : Ty → Nat
  | .f16 => 10
  | .f8e4 => 3
  | .f8e5 => 2
  | .f32 => 23
  | .f64s => 52
  | _ => 7
/-- Bias of a float format (R35). -/
def bias (t : Ty) : Nat := 2 ^ (expBits t - 1) - 1
/-- The canonical NaN (R35, R37). -/
def canonNan (t : Ty) : Nat :=
  match t with
  | .f8e4 => 0x7F
  | .f8e5 => 0x7E
  | .c4 => 0
  | _ => (2 ^ expBits t - 1) * 2 ^ fracBits t + 2 ^ (fracBits t - 1)
/-- The encoding of +∞ where the format has one (R35). -/
def infBits (t : Ty) : Nat := (2 ^ expBits t - 1) * 2 ^ fracBits t
/-- The encoding of the largest finite value (R35). -/
def maxBits (t : Ty) : Nat := if t == .f8e4 then 0x7E else infBits t - 1
/-- The exponent of the unit of the subnormals: 1 − B − F (R36). -/
def minExp (t : Ty) : Int := 1 - (bias t : Int) - (fracBits t : Int)
/-- The sign bit of an encoding. -/
def signBit (t : Ty) : Nat := 2 ^ (expBits t + fracBits t)

/-- The value of a float encoding (R36). -/
def decodeFloat (t : Ty) (n : Nat) : FVal :=
  let neg := n / signBit t % 2 == 1
  let e := n / 2 ^ fracBits t % 2 ^ expBits t
  let f := n % 2 ^ fracBits t
  if t == .f8e4 && e == 15 && f == 7 then .nan
  else if t != .f8e4 && e == 2 ^ expBits t - 1 then (if f == 0 then .inf neg else .nan)
  else if e == 0 then .fin neg f (minExp t)
  else .fin neg (2 ^ fracBits t + f) (minExp t + (e : Int) - 1)

/-- Multiply by 2^k exactly. -/
def FVal.scale (k : Int) : FVal → FVal
  | .nan => .nan
  | .inf s => .inf s
  | .fin s m e => .fin s m (e + k)

/-- Apply an E8M0 scale: 0xFF makes a NaN (R39, R40). -/
def applyScale (s : Nat) (v : FVal) : FVal := if s = 255 then .nan else v.scale ((s : Int) - 127)

/-- The value of a C4 code through a codebook and a scale (R41). -/
def decodeC4 (book : Vector (BitVec 16) 16) (s code : Nat) : FVal :=
  applyScale s (decodeFloat .bf16 (book.toList.getD (code % 16) 0).toNat)

/-- Exact negation. -/
def FVal.neg : FVal → FVal
  | .nan => .nan
  | .inf s => .inf (!s)
  | .fin s m e => .fin (!s) m e

/-- Is the value a NaN. -/
def FVal.isNan : FVal → Bool
  | .nan => true
  | _ => false
/-- Is the value an infinity. -/
def FVal.isInf : FVal → Bool
  | .inf _ => true
  | _ => false
/-- Is the value a zero. -/
def FVal.isZero : FVal → Bool
  | .fin _ m _ => m == 0
  | _ => false
/-- The sign of a value that is no NaN. -/
def FVal.sign : FVal → Bool
  | .inf s => s
  | .fin s _ _ => s
  | .nan => false

/-- A finite value as a signed multiple of 2^e, for an e at or below its exponent. -/
def FVal.mantAt (v : FVal) (e : Int) : Int :=
  match v with
  | .fin s m x => (if s then -1 else 1) * ((m * 2 ^ (x - e).toNat : Nat) : Int)
  | _ => 0

/-- The exponent of a value (0 where it has none). -/
def FVal.exp : FVal → Int
  | .fin _ _ e => e
  | _ => 0

/-- Exact order of two values that are no NaN: is x < y. -/
def FVal.lt (x y : FVal) : Bool :=
  match x, y with
  | .nan, _ => false
  | _, .nan => false
  | .inf s, .inf t => s && !t
  | .inf s, .fin _ _ _ => s
  | .fin _ _ _, .inf t => !t
  | .fin _ _ _, .fin _ _ _ => decide (x.mantAt (min x.exp y.exp) < y.mantAt (min x.exp y.exp))

/-- Exact equality of two values; −0 equals +0 and a NaN equals nothing (R134). -/
def FVal.eq (x y : FVal) : Bool := !x.isNan && !y.isNan && !x.lt y && !y.lt x

/-- A finite value from a signed multiple of 2^e; an exact zero takes the given sign. -/
def ofMant (z : Int) (e : Int) (zeroNeg : Bool) : FVal :=
  if z = 0 then .fin zeroNeg 0 e else .fin (decide (z < 0)) z.natAbs e

/-- Exact sum with its NV: ∞ − ∞ is a NaN (R119). A zero sum of opposite signs is +0, and −0 when rounding down (R38). -/
def addExact (rdn : Bool) (x y : FVal) : FVal × Bool :=
  match x, y with
  | .nan, _ => (.nan, false)
  | _, .nan => (.nan, false)
  | .inf s, .inf t => if s = t then (.inf s, false) else (.nan, true)
  | .inf s, .fin _ _ _ => (.inf s, false)
  | .fin _ _ _, .inf t => (.inf t, false)
  | .fin s _ _, .fin t _ _ =>
    let e := min x.exp y.exp
    (ofMant (x.mantAt e + y.mantAt e) e (if s = t then s else rdn), false)

/-- Exact product with its NV: 0 × ∞ is a NaN (R119); the sign is the exclusive-or (R38). -/
def mulExact (x y : FVal) : FVal × Bool :=
  match x, y with
  | .nan, _ => (.nan, false)
  | _, .nan => (.nan, false)
  | .inf s, .inf t => (.inf (s != t), false)
  | .inf s, .fin t m _ => if m = 0 then (.nan, true) else (.inf (s != t), false)
  | .fin s m _, .inf t => if m = 0 then (.nan, true) else (.inf (s != t), false)
  | .fin s m e, .fin t n f => (.fin (s != t) (m * n) (e + f), false)

/-- The significand normalised to 56 bits: 53 bits and three zeros, seven slices of 8 (R167). -/
def sliceSig (m : Nat) : Nat := m * 2 ^ (55 - Nat.log2 m)

/-- Slice i of a significand: slice 0 holds the leading 8 bits (R167). -/
def slice (sig i : Nat) : Nat := sig / 2 ^ (48 - 8 * i) % 256

/-- The sum of the slice products with i + j ≤ s − 1 (R167). -/
def sliceSum (s x y : Nat) : Nat :=
  (List.range s).foldl (fun acc i =>
    (List.range (s - i)).foldl (fun acc j => acc + slice x i * slice y j * 2 ^ (96 - 8 * i - 8 * j)) acc) 0

/-- An F64S product at a slice count: exact at 7 and 8, the kept slice products below (R120, R167; log 12). -/
def mulSlices (s : Nat) (x y : FVal) : FVal × Bool :=
  match x, y with
  | .fin p m e, .fin q n f =>
    if s ≥ 7 ∨ m = 0 ∨ n = 0 then mulExact x y
    else
      (.fin (p != q) (sliceSum s (sliceSig m) (sliceSig n))
        (e + f - (55 - (Nat.log2 m : Int)) - (55 - (Nat.log2 n : Int))), false)
  | _, _ => mulExact x y

/-! ### Rounding -/

/-- What a chain of rounding steps carries: the mode after SRE (R20), the generator (R45), the sticky flags (R47), and the draw
that an ATOMIC packet brings (R301). -/
structure REnv where
  mode : RMode
  seed : X64
  flags : FlagWord
  given : Option Nat := none
  deriving DecidableEq, Repr

/-- One draw: the next state of the generator and its 16 bits (R45). -/
def drawStep (s : X64) : X64 × Nat :=
  let s0 := if s = 0 then 1 else s
  let s1 := s0 ^^^ (s0 <<< 13)
  let s2 := s1 ^^^ (s1 >>> 7)
  let s3 := s2 ^^^ (s2 <<< 17)
  (s3, s3.toNat / 2 ^ 48)

/-- Raise flags: the word of both (R47: no instruction clears one). -/
def FlagWord.or (a b : FlagWord) : FlagWord :=
  { nx := a.nx || b.nx, uf := a.uf || b.uf, of := a.of || b.of, dz := a.dz || b.dz, nv := a.nv || b.nv, sat := a.sat || b.sat }

/-- Raise NV when the condition holds. -/
def REnv.raiseNv (env : REnv) (b : Bool) : REnv := { env with flags := { env.flags with nv := env.flags.nv || b } }
/-- Raise DZ when the condition holds. -/
def REnv.raiseDz (env : REnv) (b : Bool) : REnv := { env with flags := { env.flags with dz := env.flags.dz || b } }
/-- Raise SAT when the condition holds. -/
def REnv.raiseSat (env : REnv) (b : Bool) : REnv := { env with flags := { env.flags with sat := env.flags.sat || b } }
/-- Raise NX when the condition holds. -/
def REnv.raiseNx (env : REnv) (b : Bool) : REnv := { env with flags := { env.flags with nx := env.flags.nx || b } }

/-- Take the draw of a rounding step: one under RSR, none otherwise (R46); the far end of a link is given its draw (R311). -/
def REnv.draw (env : REnv) : REnv × Nat :=
  match env.mode with
  | .rsr =>
    match env.given with
    | some r => (env, r)
    | none => ({ env with seed := (drawStep env.seed).1 }, (drawStep env.seed).2)
  | _ => (env, 0)

/-- A magnitude known exactly, or between m and m + 1 units of 2^e when `sticky`. -/
structure Mag where
  m : Nat
  e : Int
  sticky : Bool
  deriving DecidableEq, Repr

/-- A magnitude in units of 2^q under a mode: the multiple it rounds to and whether that is inexact (R43, R44). -/
def roundMag (mode : RMode) (neg : Bool) (r : Nat) (x : Mag) (q : Int) : Nat × Bool :=
  if q ≤ x.e then (x.m * 2 ^ (x.e - q).toNat, x.sticky)
  else
    let d := 2 ^ (q - x.e).toNat
    let n := x.m / d
    let rem := x.m % d
    let inexact := decide (rem ≠ 0) || x.sticky
    let up :=
      match mode with
      | .rne => decide (2 * rem > d) || (decide (2 * rem = d) && (x.sticky || decide (n % 2 = 1)))
      | .rtz => false
      | .rdn => neg && inexact
      | .rup => !neg && inexact
      | .rsr => decide (rem * 65536 / d + r ≥ 65536)
    (if up then n + 1 else n, inexact)

/-- Is a rounded magnitude n × 2^q above the largest finite value of t. -/
def aboveMax (t : Ty) (n : Nat) (q : Int) : Bool := (FVal.lt (decodeFloat t (maxBits t)) (.fin false n q))

/-- The encoding of an overflowed result without saturation (R43, R49). -/
def overflowBits (t : Ty) (mode : RMode) (neg : Bool) : Nat :=
  let s := if neg then signBit t else 0
  if t == .f8e4 then canonNan t
  else
    match mode with
    | .rtz => s + maxBits t
    | .rdn => if neg then s + infBits t else maxBits t
    | .rup => if neg then s + maxBits t else infBits t
    | _ => s + infBits t

/-- Round a nonzero magnitude to a format: its encoding and the flags NX, UF, OF, SAT (R43, R44, R47, R49). -/
def roundNonzero (t : Ty) (sat : Bool) (mode : RMode) (r : Nat) (neg : Bool) (x : Mag) : Nat × FlagWord :=
  let s := if neg then signBit t else 0
  let top : Int := (Nat.log2 x.m : Int) + x.e
  let qu : Int := top - (fracBits t : Int)
  let q : Int := max qu (minExp t)
  -- above the largest finite value, RSR decides as RNE (R44)
  let big := FVal.lt (decodeFloat t (maxBits t)) (.fin false x.m x.e) ||
    (x.sticky && FVal.eq (decodeFloat t (maxBits t)) (.fin false x.m x.e))
  let md := if mode = .rsr ∧ big then .rne else mode
  let (n, inexact) := roundMag md neg r x q
  if aboveMax t n q then
    if sat then (s + maxBits t, { FlagWord.reset with nx := true, sat := true })
    else (overflowBits t mode neg, { FlagWord.reset with nx := true, of := true })
  else
    let nu := (roundMag md neg r x qu).1
    let tiny := FVal.lt (.fin false nu qu) (.fin false 1 (minExp t + (fracBits t : Int)))
    (s + ((q - minExp t).toNat * 2 ^ fracBits t + n),
      { FlagWord.reset with nx := inexact, uf := tiny && inexact })

/-- One rounding step into a format, with its draw (R43 to R49). `x` gives the value; `sticky` marks a magnitude that lies
just above it. -/
def roundTo (t : Ty) (sat : Bool) (env : REnv) (x : FVal) (sticky : Bool) : Nat × REnv :=
  let (env, r) := env.draw
  match x with
  | .nan => (canonNan t, env)
  | .inf s =>
    let sb := if s then signBit t else 0
    if sat then (sb + maxBits t, env.raiseSat true)
    else if t == .f8e4 then (canonNan t, env.raiseNv true)
    else (sb + infBits t, env)
  | .fin s m e =>
    if m = 0 then (if s then signBit t else 0, env)
    else
      let (b, f) := roundNonzero t sat env.mode r s { m := m, e := e, sticky := sticky }
      (b, { env with flags := env.flags.or f })

/-- One rounding step of an exact value. -/
def roundExact (t : Ty) (env : REnv) (x : FVal) : Nat × REnv := roundTo t false env x false

/-- Round to an integer under the mode, with its draw; clamps and NaN raise NV alone (R49). -/
def roundToInt (t : Ty) (env : REnv) (x : FVal) : Int × REnv :=
  let (env, r) := env.draw
  match x with
  | .nan => (0, env.raiseNv true)
  | .inf s => (if s then intMin t else intMax t, env.raiseNv true)
  | .fin s m e =>
    let (n, inexact) := roundMag env.mode s r { m := m, e := e, sticky := false } 0
    let z : Int := if s then -(n : Int) else (n : Int)
    if (clampInt t z).2 then ((clampInt t z).1, env.raiseNv true) else (z, env.raiseNx inexact)

/-- Integer square root, bit by bit from bit k. -/
def isqrtFrom : Nat → Nat → Nat → Nat
  | 0, n, r => if (r + 1) * (r + 1) ≤ n then r + 1 else r
  | k + 1, n, r => isqrtFrom k n (if (r + 2 ^ (k + 1)) * (r + 2 ^ (k + 1)) ≤ n then r + 2 ^ (k + 1) else r)

/-- The integer square root. -/
def isqrt (n : Nat) : Nat := isqrtFrom (Nat.log2 n / 2) n 0

/-- Quotient of two nonzero finite values to 80 bits and more, and whether a remainder is left. -/
def divMag (m n : Nat) (e f : Int) : Mag :=
  let k := 80 + Nat.log2 n
  { m := m * 2 ^ k / n, e := e - f - (k : Int), sticky := decide (m * 2 ^ k % n ≠ 0) }

/-- Square root of a nonzero finite value. -/
def sqrtMag (m : Nat) (e : Int) : Mag :=
  let par : Nat := (e % 2).toNat
  let m2 := m * 2 ^ (par + 160)
  let r := isqrt m2
  { m := r, e := (e - (par : Int) - 160) / 2, sticky := decide (r * r ≠ m2) }

/-- Reciprocal square root of a nonzero finite value. -/
def rsqrtMag (m : Nat) (e : Int) : Mag :=
  let par : Nat := (e % 2).toNat
  let mm := m * 2 ^ par
  let k := 2 * (100 + Nat.log2 mm)
  let r := isqrt (2 ^ k / mm)
  { m := r, e := -((e - (par : Int)) / 2) - ((k / 2 : Nat) : Int), sticky := decide (r * r * mm ≠ 2 ^ k) }

/-- The operand of a vector-immediate form of a float type: the small float of R52 rounded to the type by RNE, with no
flag. -/
def smallFloat (t : Ty) (imm : Nat) : Nat :=
  let neg := imm / 256 % 2 == 1
  let e := imm / 8 % 32
  let f := imm % 8
  let v : FVal :=
    if e == 31 then (if f == 0 then .inf neg else .nan)
    else if e == 0 then .fin neg f (-17)
    else .fin neg (8 + f) ((e : Int) - 18)
  (roundTo t false { mode := .rne, seed := 1, flags := FlagWord.reset } v false).1

/-! ### Codebooks and block scales -/

/-- The entries of a codebook as values. -/
def bookVals (book : Vector (BitVec 16) 16) : List FVal := book.toList.map fun b => decodeFloat .bf16 b.toNat

/-- The largest finite magnitude of a list of values (0 when there is none). -/
def maxMag (l : List FVal) : FVal :=
  l.foldl (fun acc v =>
    match v with
    | .fin _ m e => if FVal.lt acc (.fin false m e) then .fin false m e else acc
    | _ => acc) (.fin false 0 0)

/-- Does a codebook have a nonzero finite entry (R51). -/
def bookUsable (book : Vector (BitVec 16) 16) : Bool := !(maxMag (bookVals book)).isZero

/-- The exact distance of two finite values. -/
def distance (x y : FVal) : FVal :=
  match (addExact false x y.neg).1 with
  | .fin _ m e => .fin false m e
  | v => v

/-- The code nearest to y among the finite entries of a codebook; a tie goes to the lower code (R50). -/
def nearestCode (book : Vector (BitVec 16) 16) (y : FVal) : Nat :=
  ((bookVals book).zipIdx.foldl (fun (best : Option (FVal × Nat)) p =>
    match p.1 with
    | .fin _ _ _ =>
      match best with
      | none => some (distance p.1 y, p.2)
      | some (d, c) => if FVal.lt (distance p.1 y) d then some (distance p.1 y, p.2) else some (d, c)
    | _ => best) none).elim 0 (·.2)

/-- floor(log2) of a nonzero finite magnitude. -/
def flog2 (v : FVal) : Int :=
  match v with
  | .fin _ m e => (Nat.log2 m : Int) + e
  | _ => 0

/-- E_d of R51: the exponent of the destination's largest finite magnitude. -/
def destExp (t : Ty) (book : Vector (BitVec 16) 16) : Int :=
  match t with
  | .f8e4 => 8
  | .f8e5 => 15
  | _ => flog2 (maxMag (bookVals book))

/-- The scale byte of a block (R51), from the values of its active elements. -/
def blockScale (t : Ty) (book : Vector (BitVec 16) 16) (vals : List FVal) : Nat :=
  if vals.any (fun v => v.isNan || v.isInf) then 255
  else
    let m := maxMag vals
    if m.isZero then 127
    else (max 0 (min 254 (flog2 m - destExp t book + 127))).toNat

/-- The code of a zero in a C4 block: code 0 for +0, the entry −0 for −0 if there is one (R51). -/
def zeroCode (book : Vector (BitVec 16) 16) (neg : Bool) : Nat :=
  if neg then
    match book.toList.findIdx? (fun b => b == 0x8000#16) with
    | some c => c
    | none => 0
  else 0

/-- Encode one active element of a block under its scale (R50, R51): the code bits, with the draw and the flags. `Above the
largest finite magnitude` is judged for F8 on the rounded element, as R43 judges an overflow, and for C4, which has no rounding
step, on the element itself [DEDUCED, log 81]; a C4 element above it takes the nearest code, also where the codebook has no
entry of that magnitude with the element's sign [DESIGN CHOICE, log 81]. -/
def encodeBlockElem (t : Ty) (book : Vector (BitVec 16) 16) (scale : Nat) (allZero : Bool) (env : REnv) (x : FVal) :
    Nat × REnv :=
  match t with
  | .c4 =>
    if scale = 255 then (0, env)
    else if allZero then
      let c := zeroCode book x.sign
      (c, env.raiseNx (!FVal.eq (decodeFloat .bf16 (book.toList.getD c 0).toNat) x))
    else
      let y := x.scale (127 - (scale : Int))
      let c := nearestCode book y
      let beyond := FVal.lt (maxMag (bookVals book)) (match y with | .fin _ m e => .fin false m e | v => v)
      (c, (env.raiseNx (!FVal.eq (decodeFloat .bf16 (book.toList.getD c 0).toNat) y)).raiseSat beyond)
  | _ =>
    if scale = 255 then (canonNan t, env.draw.1)
    else roundTo t true env (x.scale (127 - (scale : Int))) false

end Sys2Proof.Machine
end

