-- ==== Sys2Proof/Machine/Ops.lean ====
section
/-! DEFINITION. Named operations over the slots, the memory and the registers: bytes at their home place (R31, R32, R232,
R242), the translation of R233 to R243, the error ring (R339), stalls, and taking and leaving a trap (R254, R265). -/

namespace Sys2Proof.Machine

/-- A result that only a physical hole can deny. -/
abbrev Res (α : Type) := Except Fault α

/-- The outcome of a meaning. -/
def finish (r : Res State) : Host.Outcome State Fault Refusal :=
  match r with
  | .ok s => .next s
  | .error f => .fault f

/-- Element i of a vector, or d beyond its end. -/
def vat {α : Type} {n : Nat} (v : Vector α n) (i : Nat) (d : α) : α := v[i]?.getD d

/-- Bits lo to lo + n - 1 of a word, as a number (R3). -/
def fld (x : X64) (lo n : Nat) : Nat := x.toNat / 2 ^ lo % 2 ^ n

/-- The word with bits lo to lo + n - 1 replaced. -/
def setFld (x : X64) (lo n v : Nat) : X64 :=
  BitVec.ofNat 64 (x.toNat - fld x lo n * 2 ^ lo + (v % 2 ^ n) * 2 ^ lo)

/-- Bit i of a word. -/
def bitAt (x : X64) (i : Nat) : Bool := decide (fld x i 1 = 1)

/-- A Bool as a number. -/
def b2n (b : Bool) : Nat := if b then 1 else 0

/-- The bytes of a number, least significant first (R3). -/
def toBytes (n v : Nat) : List Byte := (List.range n).map fun i => BitVec.ofNat 8 (v / 2 ^ (8 * i))

/-- The number of a list of bytes, least significant first (R3). -/
def ofBytes : List Byte → Nat
  | [] => 0
  | b :: t => b.toNat + 256 * ofBytes t

/-! ### Slots, cores and registers -/

/-- Slot k of the part: thread k mod 16 of core k / 16 (R10). -/
def State.slot (s : State) (k : Nat) : Slot := alookup Slot.reset s.slots k
/-- Replace slot k. -/
def State.setSlot (s : State) (k : Nat) (sl : Slot) : State := { s with slots := ainsert s.slots k sl }
/-- Change slot k. -/
def State.modSlot (s : State) (k : Nat) (f : Slot → Slot) : State := s.setSlot k (f (s.slot k))
/-- The slot whose slice acts. -/
def State.me (s : State) : Slot := s.slot s.cur
/-- Replace the slot whose slice acts. -/
def State.setMe (s : State) (sl : Slot) : State := s.setSlot s.cur sl
/-- Core c. -/
def State.coreAt (s : State) (c : Nat) : Core := vat s.cores c Core.reset
/-- Change core c. -/
def State.modCore (s : State) (c : Nat) (f : Core → Core) : State :=
  { s with cores := s.cores.setIfInBounds c (f (s.coreAt c)) }
/-- Cluster n, die n / 4. -/
def State.clusterAt (s : State) (n : Nat) : Cluster := vat s.clusters n Cluster.reset
/-- Change cluster n. -/
def State.modCluster (s : State) (n : Nat) (f : Cluster → Cluster) : State :=
  { s with clusters := s.clusters.setIfInBounds n (f (s.clusterAt n)) }
/-- Port p. -/
def State.portAt (s : State) (p : Nat) : Port := vat s.ports p Port.reset
/-- Change port p. -/
def State.modPort (s : State) (p : Nat) (f : Port → Port) : State :=
  { s with ports := s.ports.setIfInBounds p (f (s.portAt p)) }
/-- Hardware queue n. -/
def State.hqAt (s : State) (n : Nat) : Hq := vat s.hqs n Hq.reset
/-- Change hardware queue n. -/
def State.modHq (s : State) (n : Nat) (f : Hq → Hq) : State := { s with hqs := s.hqs.setIfInBounds n (f (s.hqAt n)) }

/-- Change the context that a slot is bound to. -/
def State.modCtxOf (s : State) (n : Option Nat) (f : Ctx → Ctx) : State :=
  match n with
  | none => s
  | some n => { s with ctxs := s.ctxs.map fun (c : Nat × Ctx) => if c.1 = n then (c.1, f c.2) else c }

/-- The core of slot k. -/
def coreOf (k : Nat) : Nat := k / 16
/-- The cluster of slot k. -/
def clusterOf (k : Nat) : Nat := k / 64

/-- Read x register i: x0 reads zero (R12). -/
def Slot.rx (sl : Slot) (i : Nat) : X64 := if i = 0 then 0 else vat sl.x i 0
/-- Write x register i: a write to x0 is discarded (R12). -/
def Slot.wx (sl : Slot) (i : Nat) (v : X64) : Slot := if i = 0 then sl else { sl with x := sl.x.setIfInBounds i v }
/-- Write condition bit i. -/
def Slot.wc (sl : Slot) (i : Nat) (v : Bool) : Slot := { sl with c := sl.c.setIfInBounds i v }

/-- The base rewrites of far accesses that wait for the slice's instruction boundary (R244). -/
def Slot.rebased (sl : Slot) : Slot :=
  sl.rebases.foldl (fun sl r => if (sl.rx r.1).toNat / 65536 = r.2.1 then sl.wx r.1 (sl.rx r.1 + r.2.2) else sl)
    { sl with rebases := [] }
/-- Go on at an address, at an instruction boundary: nothing of the instruction there has happened yet. -/
def Slot.goto (sl : Slot) (pc : X64) : Slot :=
  { sl with pc := pc, busy := false, phase := .fresh, st := .run, cause := 0, bkPass := false, jumped := false }
/-- Go on at the next word. -/
def Slot.adv (sl : Slot) : Slot := sl.goto (sl.pc + 4)
/-- Stall in WAIT with a cause of R86, inside an instruction. -/
def Slot.stall (sl : Slot) (cause : Nat) : Slot := { sl with st := .wait, cause := cause, busy := true }

/-- The nest is live: ACT and OWN = INH (R101). -/
def Slot.live (sl : Slot) : Bool := sl.nest.act && sl.nest.own == sl.tr.inh
/-- Body length LEN. -/
def Nest.len (n : Nest) : Nat := n.lenm1.toNat + 1
/-- Stage count S. -/
def Nest.stages (n : Nest) : Nat := n.sm1.toNat + 1
/-- T: the product of the trip counts (R95). -/
def Nest.total (n : Nest) : Nat := (List.range n.n.toNat).foldl (fun acc i => acc * (vat n.trip i 0).toNat) 1
/-- The address after the body (R95). -/
def Nest.stop (n : Nest) : X64 := n.nbody + 4 * BitVec.ofNat 64 n.len

/-- Stage of the word at pc: floor(o·S / LEN) (R99). -/
def Slot.stageOf (sl : Slot) : Nat := (sl.pc - sl.nest.nbody).toNat / 4 * sl.nest.stages / sl.nest.len
/-- Is the slice inside the body of its live nest. -/
def Slot.inBody (sl : Slot) : Bool := sl.live && decide ((sl.pc - sl.nest.nbody).toNat < 4 * sl.nest.len)
/-- Is the stage of the word at pc live: outside a live nest every word is (R99). -/
def Slot.stageLive (sl : Slot) : Bool := !sl.inBody || vat sl.c (8 + sl.stageOf) false

/-- c8 to c15 at the start of pass p of a nest (R98). -/
def stageBits (n : Nest) (k0 : BitVec 32) : List Bool :=
  let p := n.npass.toNat
  let t := n.total
  let s := n.stages
  (List.range 4).map (fun j => decide (j < s) && decide (j ≤ p) && decide (p - j < t)) ++
    [k0 == 0, decide (k0.toNat + 1 = (vat n.trip 0 0).toNat), decide (p = 0), decide (p + 2 = t + s)]
/-- Write c8 to c15. -/
def Slot.setStages (sl : Slot) (l : List Bool) : Slot :=
  { sl with c := (List.range 8).foldl (fun c j => c.setIfInBounds (8 + j) (l.getD j false)) sl.c }
/-- End the nest: ACT := 0 and c8 to c15 read 0 (R98, R100). -/
def Slot.endNest (sl : Slot) : Slot := { sl with nest := { sl.nest with act := false } }.setStages []
/-- Start a pass. -/
def Slot.startPass (sl : Slot) : Slot := sl.setStages (stageBits sl.nest (vat sl.k 0 0))

/-! ### Memory at its home place -/

/-- What a byte that nothing has written reads as (log 2). -/
def unlisted : Byte := 0
/-- The byte at a physical address. -/
def Memory.read (m : List Host.Cell) (a : Nat) : Byte := alookup unlisted m a
/-- Store a byte; writing the unlisted value removes the entry. -/
def Memory.write (m : List Host.Cell) (a : Nat) (b : Byte) : List Host.Cell :=
  if b = unlisted then aerase m a else ainsert m a b
/-- Are the keys above `lo` and strictly rising, with no entry equal to the unlisted value. -/
def Memory.wfFrom (lo : Nat) : List Host.Cell → Bool
  | [] => true
  | (a, b) :: t => decide (lo ≤ a) && decide (b ≠ unlisted) && Memory.wfFrom (a + 1) t
/-- The canonical form of memory: addresses strictly rise and no entry equals what an unlisted address reads as. -/
def Memory.wf (m : List Host.Cell) : Bool := Memory.wfFrom 0 m

/-- HBM is 384 × 10^9 bytes (R2, R4). -/
def hbmBytes : Nat := 384000000000
/-- The service space (R331). -/
def clusterBase : Nat := 0x00F000000000
def queueBase : Nat := 0x00F000100000
def portBase : Nat := 0x00F000101000
def serviceBase : Nat := 0x00F000102000

/-- What a physical address names. -/
inductive Place where
  | hbm
  | cluster (n off : Nat)
  | queue (off : Nat)
  | port (off : Nat)
  | service (off : Nat)
  | host
  | hole
  deriving DecidableEq, Repr

/-- What a physical address names (R32, R331). Which 64 KiB pages above HBM and outside the service space are windows on the
host the spec leaves to the part (R224, R280) [log 39]. -/
def placeOf (pa : Nat) : Place :=
  if pa < hbmBytes then .hbm
  else if clusterBase ≤ pa ∧ pa < queueBase then .cluster ((pa - clusterBase) / 65536) ((pa - clusterBase) % 65536)
  else if queueBase ≤ pa ∧ pa < portBase then .queue (pa - queueBase)
  else if portBase ≤ pa ∧ pa < portBase + 1024 then .port (pa - portBase)
  else if serviceBase ≤ pa ∧ pa < serviceBase + 4096 then .service (pa - serviceBase)
  else if Config.hostPage (pa / 65536) then .host
  else .hole

/-! ### Registers of the windows, as a read returns them (R331) -/

/-- Power-state code of CPWR (R319). -/
def ClusterState.code : ClusterState → Nat
  | .running => 0 | .gating => 1 | .gated => 2 | .waking => 3

/-- CPWR as a read returns it (R319). -/
def Cluster.cpwr (c : Cluster) : X64 := BitVec.ofNat 64 (c.gidle.toNat * 65536 + b2n c.auto * 64 + c.st.code)

/-- CCUR as a read returns it (R319). -/
def Core.ccur (c : Core) : X64 :=
  BitVec.ofNat 64 (c.bal16 / 16 % 4096 * 2 ^ 48 + c.capacity * 2 ^ 32 + c.rate * 2 ^ 16 + c.plimmax * 256 + c.plim)

/-- A 64-bit register of a cluster window outside its debug blocks (R319); an offset that no register has reads zero. -/
def State.clusterReg (s : State) (n off : Nat) : X64 :=
  if off = 0 then (s.clusterAt n).cpwr
  else if 0x10 ≤ off ∧ off < 0x30 ∧ off % 8 = 0 then (s.coreAt (4 * n + (off - 0x10) / 8)).ccur
  else 0

/-- DHALT as a read returns it (R320). -/
def State.dhalt (s : State) (c : Nat) : X64 :=
  let d := (s.coreAt c).dbg
  let stopped := (List.range 16).foldl (fun acc t => acc + b2n ((s.slot (16 * c + t)).st = .stop) * 2 ^ t) 0
  BitVec.ofNat 64 (stopped * 2 ^ 48 + d.reason % 256 * 2 ^ 32 + d.mthr % 16 * 2 ^ 28 + d.mtch % 8 * 2 ^ 25 +
    d.sthr % 16 * 2 ^ 20 + b2n d.drain * 8 + b2n s.halted)

/-- A register of the debug block of core c, by its offset in the block (R320, R325, R358). -/
def State.debugReg (s : State) (c off : Nat) : X64 :=
  let d := (s.coreAt c).dbg
  if off < 0x40 ∧ off % 8 = 0 then vat d.dbk (off / 8) 0
  else
    match off with
    | 0x40 => s.dhalt c
    | 0x48 => d.trctl
    | 0x50 => d.trbase
    | 0x58 => BitVec.ofNat 64 (b2n d.trfull * 2 ^ 63 + d.tridx)
    | 0x60 => d.dpre
    | _ => 0

/-- EN: a queue is enabled in every state but DISABLED. -/
def Hq.en (q : Hq) : Bool := q.st != .disabled
/-- Codes of HQSTATE (R270). -/
def HqState.code : HqState → Nat
  | .disabled => 0 | .idle => 1 | .active => 2 | .blocked => 3 | .faulted => 4

/-- HQCFG as a read returns it. -/
def Hq.cfg (q : Hq) : X64 := BitVec.ofNat 64 (q.vec.toNat * 256 + b2n q.en * 8 + q.prio.toNat)
/-- HQSTAT as a read returns it. -/
def Hq.stat (q : Hq) : X64 := BitVec.ofNat 64 (q.mark.toNat * 2 ^ 32 + q.err.toNat * 256 + q.opn % 32)

/-- A register of the queue window (R266). -/
def State.queueReg (s : State) (off : Nat) : X64 :=
  let q := s.hqAt (off / 64)
  match off % 64 with
  | 0x00 => q.base
  | 0x08 => q.root
  | 0x10 => q.cfg
  | 0x18 => q.head.setWidth 64
  | 0x20 => q.tail.setWidth 64
  | 0x28 => q.stat
  | 0x38 => BitVec.ofNat 64 q.st.code
  | _ => 0

/-- STATE codes of TLSTAT. -/
def PortState.code : PortState → Nat
  | .down => 0 | .training => 1 | .up => 2 | .errorHeld => 3

/-- TLSTAT as a read returns it. -/
def Port.tlstat (q : Port) : X64 :=
  BitVec.ofNat 64 (q.reason * 2 ^ 24 + (if q.st = .up then 4 else 0) * 65536 + q.st.code)

/-- A register of the port window (R313). -/
def State.portReg (s : State) (off : Nat) : X64 :=
  let q := s.portAt (off / 64)
  match off % 64 with
  | 0x00 => q.tlstat
  | 0x10 => BitVec.ofNat 64 q.retries
  | 0x18 => BitVec.ofNat 64 q.discards
  | 0x20 => BitVec.ofNat 64 q.starves
  | _ => 0

/-- STATE codes of UPSTAT. -/
def UpdateState.code : UpdateState → Nat
  | .idle => 0 | .verifying => 1 | .draining => 2 | .loading => 3 | .done => 4 | .rejected => 5 | .loadFailed => 6

/-- UPSTAT as a read returns it (R334). -/
def Service.upstat (v : Service) : X64 := BitVec.ofNat 64 (v.boot % 256 * 2 ^ 24 + v.upUnit % 256 * 256 + v.upst.code)

/-- A register of the service window (R333, R334). -/
def Service.reg (v : Service) (off : Nat) : X64 :=
  match off with
  | 0x00 => v.erbase
  | 0x08 => BitVec.ofNat 64 (b2n v.lost * 2 ^ 63 + v.eridx.toNat)
  | 0x10 => v.upsrc
  | 0x18 => BitVec.ofNat 64 (v.ctlUnit * 256 + v.ctlPart * 16)
  | 0x20 => v.upstat
  | 0x28 => v.ercons.setWidth 64
  | 0x30 => BitVec.ofNat 64 v.partid
  | _ =>
    if 0x100 ≤ off ∧ off < 0x140 then
      BitVec.ofNat 64 (ofBytes (((List.range 8).map fun i => vat v.qown (off - 0x100 + i) 0)))
    else 0

/-- A 64-bit register of a cluster window as the system cores see it, its debug blocks included (R319, R320). -/
def State.windowReg (s : State) (n off : Nat) : X64 :=
  if 0x100 ≤ off ∧ off < 0x300 then s.debugReg (4 * n + (off - 0x100) / 0x80) ((off - 0x100) % 0x80) else s.clusterReg n off

/-- A 64-bit register of a window of the service space as the system cores read it (R331); the queue windows answer once the
boot has enabled them (R334). An address that names no register reads zero. -/
def State.registerRead (s : State) (pa : Nat) : X64 :=
  match placeOf pa with
  | .cluster n off => s.windowReg n off
  | .queue off => if s.svc.boot = 4 then s.queueReg off else 0
  | .port off => s.portReg off
  | .service off => s.svc.reg off
  | .hbm => 0
  | .host => 0
  | .hole => 0

/-- Bytes [pa, pa + n) of a window, over as many registers as they touch. -/
def windowBytes (reg : Nat → X64) (pa n : Nat) : List Byte :=
  (List.range n).map fun i => BitVec.ofNat 8 ((reg ((pa + i) / 8 * 8)).toNat / 2 ^ (8 * ((pa + i) % 8)))

/-! ### Forwarding (R242) -/

/-- Do both places of a move lie in HBM (R242). -/
def Fwd.inHbm (f : Fwd) : Bool := decide (f.old * 65536 + 65535 < hbmBytes) && decide (f.new * 65536 + 65535 < hbmBytes)
/-- Has the drover copied the line of pa (R242). -/
def Fwd.copied (f : Fwd) (pa : Nat) : Bool := decide (pa % 65536 / 128 < f.upto) || f.ahead.contains (pa % 65536 / 128)
/-- The forwarding of the page of pa, if it is moving. -/
def State.fwdOf (s : State) (pa : Nat) : Option Fwd := s.fwds.find? fun f => f.old == pa / 65536
/-- Where a request for pa is served: forwarded once its line is copied, and from the new place on again while that page is
moving too (R242), over at most n forwardings. -/
def State.homeIn (s : State) : Nat → Nat → Nat
  | 0, pa => pa
  | n + 1, pa =>
    match s.fwdOf pa with
    | some f => if f.copied pa then s.homeIn n (f.new * 65536 + pa % 65536) else pa
    | none => pa
/-- Where a request for pa is served (R242). -/
def State.home (s : State) (pa : Nat) : Nat := s.homeIn s.fwds.length pa

/-- Is the line of pa poisoned (R339). -/
def State.poisoned (s : State) (pa : Nat) : Bool := s.poison.contains (s.home pa / 128)

/-- Write every dirty byte of one line back from every data L1 (R31, R222, R232). -/
def State.flushLine (s : State) (line : Nat) : State :=
  let mine : Host.Cell → Bool := fun c => c.1 / 128 == line
  { s with
    mem := s.cores.toList.foldl (fun m c => (c.l1.filter mine).foldl (fun m b => Memory.write m b.1 b.2) m) s.mem
    cores := s.cores.map fun c => { c with l1 := c.l1.filter fun b => !mine b } }

/-- Is a part drained for an update (R337). -/
def State.partOff (s : State) (part unit : Nat) : Bool := s.svc.offParts.contains (part * 256 + unit)
/-- Is the system-core firmware drained: the scheduler has stopped at a packet boundary (R337). -/
def State.schedOff (s : State) : Bool := s.svc.offParts.any fun u => u / 256 == 0

/-- Where a write to pa performs: the new place of a moving page, copied or not, over at most n forwardings (R242). -/
def State.lastIn (s : State) : Nat → Nat → Nat
  | 0, pa => pa
  | n + 1, pa =>
    match s.fwdOf pa with
    | some f => s.lastIn n (f.new * 65536 + pa % 65536)
    | none => pa

/-- Is a request for pa held at its home slice: a stack that serves it, or would, is drained for an update (R337). -/
def State.stackHeld (s : State) (pa : Nat) : Bool :=
  (s.svc.offParts.filter fun u => u / 256 == 3).any fun u =>
    [s.home pa, s.lastIn s.fwds.length pa].any fun a =>
      decide (placeOf a = .hbm) && decide (u % 256 = (Config.stackOf (a / 128)).toNat)

/-- Are bytes [pa, pa + n) held, on any of their lines (R337). -/
def State.rangeHeld (s : State) (pa n : Nat) : Bool :=
  s.svc.offParts.any (fun u => u / 256 == 3) &&
    (List.range ((pa + n + 127) / 128 - pa / 128)).any fun i => s.stackHeld ((pa / 128 + i) * 128)

/-- Does core c's data L1 hold a dirty byte that a drained stack would not take: its writeback is held (R337). -/
def State.flushHeld (s : State) (c : Nat) : Bool :=
  s.svc.offParts.any (fun u => u / 256 == 3) && (s.coreAt c).l1.any fun b => s.stackHeld b.1

/-- Write every dirty byte of a core's data L1 back to its home slice (R31); those of drained stacks stay (R337). -/
def State.flushCore (s : State) (c : Nat) : State :=
  let m := ((s.coreAt c).l1.filter fun b => !s.stackHeld b.1).foldl (fun m b => Memory.write m b.1 b.2) s.mem
  { s with mem := m }.modCore c fun x => { x with l1 := x.l1.filter fun b => s.stackHeld b.1 }

/-- The byte at a physical address, in memory, on the host or in a register (R242). -/
def State.physByte (s : State) (a : Nat) : Byte :=
  match placeOf a with
  | .hbm => Memory.read s.mem a
  | .host => Memory.read s.hostMem a
  | .hole => unlisted
  | _ => (windowBytes s.registerRead a 1).headD 0
/-- Store a byte in memory or on the host. -/
def State.putByte (s : State) (a : Nat) (b : Byte) : State :=
  match placeOf a with
  | .host => { s with hostMem := Memory.write s.hostMem a b }
  | _ => { s with mem := Memory.write s.mem a b }
/-- Store a line of a copied page: into a window its registers' writes are the next moves (R242) [DESIGN CHOICE, log 88]. -/
def State.putLine (s : State) (a : Nat) (l : List Byte) : State :=
  match placeOf a with
  | .hbm => l.zipIdx.foldl (fun s b => s.putByte (a + b.2) b.1) s
  | .host => l.zipIdx.foldl (fun s b => s.putByte (a + b.2) b.1) s
  | .hole => s
  | _ => { s with agenda := (List.range (l.length / 8)).map (fun i =>
      Move.register (BitVec.ofNat 52 (a + 8 * i)) (BitVec.ofNat 64 (ofBytes ((l.drop (8 * i)).take 8)))) ++ s.agenda }

/-- The record number of a class and unit and the record in the error ring (R339): the service registers after it, and where its
bytes go, unless it is lost. The cycle is a free value (log 4). -/
def State.noteRecord (s : State) (cls unit : Nat) (pa detail : X64) : State × Option (Nat × List Byte) :=
  let n := alookup 0 s.svc.errCounts (cls * 65536 + unit) + 1
  let svc := { s.svc with errCounts := ainsert s.svc.errCounts (cls * 65536 + unit) n }
  let size := 128 * 2 ^ fld svc.erbase 0 4
  if (svc.eridx - svc.ercons).toNat = size then ({ s with svc := { svc with lost := true } }, none)
  else
    let base := fld svc.erbase 12 40 * 4096 + 32 * (svc.eridx.toNat % size)
    let w0 := cls * 2 ^ 56 + unit % 65536 * 2 ^ 40 + (Config.freeCycle s.free).toNat
    let bytes := toBytes 8 w0 ++ toBytes 8 pa.toNat ++ toBytes 8 detail.toNat ++ toBytes 8 n
    ({ s with svc := { svc with eridx := svc.eridx + 1 }, free := s.free + 1 }, some (base, bytes))

/-- Copy line o to line n of a move, each in its place (R242). -/
def State.copyLine (s : State) (f : Fwd) (o n : Nat) : State :=
  if f.inHbm then
    { s with mem := (List.range 128).foldl (fun m j => Memory.write m (n * 128 + j) (Memory.read m (o * 128 + j))) s.mem }
  else s.putLine (n * 128) ((List.range 128).map fun j => s.physByte (o * 128 + j))
/-- Line n is poisoned as line o, from which operation op has copied it: the record's store is the next move (R242, R339). -/
def State.copyPoison (s : State) (op o n : Nat) : State :=
  let r := { s with poison := if s.poison.contains n then s.poison else s.poison ++ [n] }.noteRecord 8 op (BitVec.ofNat 64 (o * 128)) 0
  match r.2 with
  | some (pa, b) => { r.1 with agenda := .store (BitVec.ofNat 52 pa) b :: r.1.agenda }
  | none => r.1

/-- Copy line i of a moving page to the line of address a, its new place: what the old place's home slice serves, poison and
dirty L1 bytes included (R242). The store of a poisoned line's record is the next move; its unit is the drover's operation
(log 36). -/
def State.moveLine (s : State) (f : Fwd) (i a : Nat) : State :=
  let o := s.home (f.old * 65536 + 128 * i) / 128
  let n := a / 128
  let s := ((s.flushLine o).flushLine n).copyLine f o n
  let s := { s with
    fwds := s.fwds.map fun (g : Fwd) =>
      if g.old = f.old ∧ g.op = f.op ∧ g.page = f.page then { g with ahead := g.ahead ++ [i] } else g }
  if s.poison.contains o then s.copyPoison f.op o n else s

/-- A write to the line of pa: on a moving page the drover copies that line first, and the write goes on to the new place, over
at most n forwardings (R242). The second part is the place. -/
def State.forWriteIn : Nat → State → Nat → State × Nat
  | 0, s, pa => (s, pa)
  | n + 1, s, pa =>
    match s.fwdOf pa with
    | none => (s, pa)
    | some f =>
      let w := State.forWriteIn n s (f.new * 65536 + pa % 65536)
      (if f.copied pa then w.1 else w.1.moveLine f (pa % 65536 / 128) w.2, w.2)
/-- A write to the line of pa, with the place where it performs (R242). -/
def State.forWrite (s : State) (pa : Nat) : State × Nat := State.forWriteIn s.fwds.length s pa

/-- Read bytes at their home slices, looking into no L1 (R31). -/
def State.readHome (s : State) (pa n : Nat) : List Byte := (List.range n).map fun i => Memory.read s.mem (s.home (pa + i))

/-- A dirty byte of a data L1, by its home address. -/
def State.dirtyByte (s : State) (a : Nat) : Option Byte :=
  (s.cores.toList.findSome? fun c => c.l1.find? fun b => b.1 == a).map (·.2)

/-- Read bytes as the scalar agents see them: a dirty byte of any data L1 first (R31). -/
def State.readScalar (s : State) (pa n : Nat) : List Byte :=
  (List.range n).map fun i => (s.dirtyByte (s.home (pa + i))).getD (Memory.read s.mem (s.home (pa + i)))

/-- Merge the dirty bytes of the line of a over memory, when there are any (R232). -/
def State.mergeDirty (s : State) (a : Nat) : State :=
  if s.cores.toList.any (fun c => c.l1.any fun b => b.1 / 128 == a / 128) then s.flushLine (a / 128) else s

/-- Store bytes at their home slice, as a vector store does: every dirty scalar byte of their lines is merged over the whole of
them and leaves the L1s (R232). -/
def State.writeHome (s : State) (pa : Nat) (bytes : List Byte) : State :=
  let t := bytes.zipIdx.foldl (fun s b =>
    let w := s.forWrite (pa + b.2)
    { w.1 with mem := Memory.write w.1.mem w.2 b.1 }) s
  (List.range bytes.length).foldl (fun s i => s.mergeDirty (s.home (pa + i))) t

/-- After the vector accesses from s to t performed together, the scalar bytes that were dirty before and left the L1s lie over what they
wrote, wherever their lines are now (R232, R242). -/
def State.keepDirty (s t : State) : State :=
  { t with mem := s.cores.toList.foldl (fun m c => c.l1.foldl (fun m (b : Host.Cell) =>
      if (t.dirtyByte (t.home b.1)).isNone then Memory.write m (t.home b.1) b.2 else m) m) t.mem }

/-- Store bytes at their home slice as a system agent does: older dirty scalar bytes of their lines are written back first
(R31) [DEDUCED, log 84]. -/
def State.writeOver (s : State) (pa : Nat) (bytes : List Byte) : State :=
  bytes.zipIdx.foldl (fun s b =>
    let w := s.forWrite (pa + b.2)
    let t := w.1.flushLine (w.2 / 128)
    if t.fwds.all Fwd.inHbm then { t with mem := Memory.write t.mem w.2 b.1 } else t.putByte w.2 b.1) s

/-- A store of a system agent reaches its home slice: a drained stack holds it (R337). -/
def State.sysStore (s : State) (pa : Nat) (b : List Byte) : State :=
  if s.stackHeld pa then { s with held := s.held ++ [.store (BitVec.ofNat 52 pa) b] } else s.writeOver pa b

/-- Store the bytes of a record or of a dump at a physical address, as a plain store of a system agent (R325, R329, R339): on the host
where the address is a page of it, and nowhere outside memory (log 108). -/
def State.putPhys (s : State) (pa : Nat) (b : List Byte) : State :=
  match placeOf pa with
  | .hbm => s.sysStore pa b
  | .host => { s with hostMem := b.zipIdx.foldl (fun m x => Memory.write m (pa + x.2) x.1) s.hostMem }
  | _ => s

/-- Write a record into the error ring (R339). -/
def State.addRecord (s : State) (cls unit : Nat) (pa detail : X64) : State :=
  let r := s.noteRecord cls unit pa detail
  match r.2 with
  | some (at_, b) => r.1.putPhys at_ b
  | none => r.1

/-- A trace record of a core (R325, R326): a plain physical store, when TRCTL enables its kind and the
buffer is not full with WRAP = 0. FULL is read-only, and a record that WRAP = 1 lets through clears it [DESIGN CHOICE, log 87]. -/
def State.trace (s : State) (k kind : Nat) (w1 w2 w3 : X64) : State :=
  let d := (s.coreAt (coreOf k)).dbg
  if !(bitAt d.trctl 0 && bitAt d.trctl (16 + kind)) || (d.trfull && !bitAt d.trctl 1) then s
  else
    let n := 128 * 2 ^ fld d.trbase 0 4
    let base := fld d.trbase 12 40 * 4096 + 32 * (d.tridx % n)
    let w0 := kind * 2 ^ 56 + coreOf k * 2 ^ 48 + k % 16 * 2 ^ 40 + (Config.freeCycle s.free).toNat
    let bytes := toBytes 8 w0 ++ toBytes 8 w1.toNat ++ toBytes 8 w2.toNat ++ toBytes 8 w3.toNat
    let full := decide (d.tridx % n + 1 = n) && !bitAt d.trctl 1
    ({ s with free := s.free + 1 }.putPhys base bytes).modCore (coreOf k) fun c =>
      { c with dbg := { c.dbg with tridx := (d.tridx + 1) % n, trfull := full } }

/-- Evict a line from a core's data L1: its dirty bytes go to the home slice (R31), unless a drained stack holds them (R337). -/
def State.evictLine (s : State) (c line : Nat) : State :=
  let mine : Host.Cell → Bool := fun b => b.1 / 128 == line && !s.stackHeld (line * 128)
  { s with mem := ((s.coreAt c).l1.filter mine).foldl (fun m (b : Host.Cell) => Memory.write m b.1 b.2) s.mem }.modCore c fun x =>
    { x with l1 := x.l1.filter fun b => !mine b }

/-- Lines of a data L1: 64 KiB of 128 bytes (R2, R31). -/
def l1Lines : Nat := 512
/-- The lines of a core's data L1 that hold dirty bytes. -/
def Core.dirtyLines (c : Core) : List Nat := (c.l1.map fun b => b.1 / 128).eraseDups
/-- Make room in core c's data L1 for the line of a: when every line of it is dirty one of them is evicted, which one is a free
value (R2, R31) [log 85]. -/
def State.l1Room (s : State) (c a : Nat) : State :=
  let dirty := (s.coreAt c).dirtyLines
  let ls := dirty.filter fun l => !s.stackHeld (l * 128)
  if dirty.contains (a / 128) || decide (dirty.length < l1Lines) then s
  else { s.evictLine c (ls.getD ((Config.freeBits s.free).toNat % ls.length) 0) with free := s.free + 1 }

/-- A scalar store: the bytes become dirty in the core's data L1 and leave every other one (R31, R221). -/
def State.writeScalar (s : State) (c pa : Nat) (bytes : List Byte) : State :=
  bytes.zipIdx.foldl (fun s b =>
    let w := s.forWrite (pa + b.2)
    let s := w.1.l1Room c w.2
    { s with cores := s.cores.map fun (x : Core) => { x with l1 := x.l1.filter fun e => e.1 != w.2 } }.modCore c fun x =>
      { x with l1 := x.l1 ++ [(w.2, b.1)] }) s

/-- The bytes a locked update at the home slice sees: the line's dirty bytes are written back first (R222). -/
def State.lockLine (s : State) (pa : Nat) : State :=
  let (s, a) := s.forWrite pa
  s.flushLine (a / 128)

/-! ### Translation -/

/-- What an access needs of its page (R235, R240); `host`: is the atomic one that PCI Express AtomicOps provide, an ADD, SWAP
or CAS of 32 or 64 bits (R224). -/
inductive Acc where
  | read | write | fetch
  | atomic (host : Bool)
  | scadd
  deriving DecidableEq, Repr

/-- Is an access an atomic (R224, R240). -/
def Acc.isAtomic : Acc → Bool
  | .atomic _ => true
  | .scadd => true
  | _ => false
/-- Is an access one that no host page carries (R224). -/
def Acc.unhosted : Acc → Bool
  | .atomic host => !host
  | .scadd => true
  | _ => false

/-- KIND of a memory fault (R253). -/
def Acc.kind : Acc → Nat
  | .read => 0
  | .write => 1
  | .atomic _ => 2
  | .scadd => 2
  | .fetch => 3

/-- CODE of R253. -/
def TrapCode.num : TrapCode → Nat
  | .undefinedInstruction => 1 | .emulation => 2 | .privilege => 3 | .illegalType => 4 | .illegalOperand => 5
  | .instructionAlignment => 6 | .trap => 7 | .svc => 8 | .vectorUnavailable => 9 | .pageFault => 10 | .permission => 11
  | .misaligned => 12 | .poison => 13 | .atomicNotCarried => 14 | .markChain => 15 | .asleep => 16 | .linkIncomplete => 17
  | .multicastDenied => 18 | .residencyMiss => 19 | .fillError => 20 | .descriptor => 21 | .capacity => 22 | .overlap => 23
  | .preempt => 32 | .resume => 33

/-- Fields of a page-table entry (R235). -/
def pteV (e : X64) : Bool := bitAt e 0
def pteLeaf (e : X64) : Bool := bitAt e 1
def pteR (e : X64) : Bool := bitAt e 2
def pteW (e : X64) : Bool := bitAt e 3
def pteX (e : X64) : Bool := bitAt e 4
def pteU (e : X64) : Bool := bitAt e 5
def pteAc (e : X64) : Bool := bitAt e 6
def pteMov (e : X64) : Bool := bitAt e 7
def ptePoison (e : X64) : Bool := bitAt e 8
def pteSpan (e : X64) : Bool := bitAt e 9
def pteMst (e : X64) : Nat := fld e 12 2
def pteAddr (e : X64) : Nat := fld e 16 36
def pteRport (e : X64) : Nat := fld e 53 4
def pteRem (e : X64) : Bool := bitAt e 57
def pteRcls (e : X64) : Nat := fld e 58 2
/-- A marked or retiring entry. -/
def pteMark (e : X64) : Bool := decide (2 ≤ pteMst e)
/-- NVA and MCLS of a mark (R235). -/
def pteNva (e : X64) : Nat := fld e 16 41
def pteMcls (e : X64) : Nat := fld e 57 7

/-- Is a resv field of a table entry or a plain leaf set, or RCLS 3 (R237). -/
def pteResv (e : X64) : Bool :=
  decide (fld e 60 4 ≠ 0) || decide (fld e 52 1 ≠ 0) || decide (fld e 14 2 ≠ 0) || decide (fld e 10 2 ≠ 0) ||
    decide (pteRcls e = 3)

/-- Is an entry at a level malformed; `idx` is its index in its table (R236, R237). -/
def pteMalformed (level idx : Nat) (e : X64) : Bool :=
  if pteMark e then !pteLeaf e || decide (level ≠ 3) || decide (fld e 14 2 ≠ 0)
  else if pteLeaf e then
    decide (level < 2) || pteResv e || (decide (pteMst e = 1) && !pteMov e) ||
      (pteMov e && (pteRem e || pteSpan e || decide (level = 2))) ||
      (pteSpan e && (pteRem e ||
        (if level = 3 then decide (pteAddr e % 32 ≠ idx % 32)
         else decide (pteAddr e / 8192 % 64 ≠ idx % 64) || decide (pteAddr e % 8192 ≠ 0))))
  else decide (level = 3) || pteResv e || decide (fld e 2 8 ≠ 0) || decide (pteMst e ≠ 0)

/-- Index into the table of a level (R233). -/
def walkIdx (level va : Nat) : Nat :=
  match level with
  | 0 => va / 2 ^ 55 % 4
  | 1 => va / 2 ^ 42 % 8192
  | 2 => va / 2 ^ 29 % 8192
  | _ => va / 2 ^ 16 % 8192

/-- The physical address of the entry that a walk reads. -/
def walkAddr (table level va : Nat) : Nat := table * 65536 + 8 * walkIdx level va

/-- Walk from a level on: the leaf, its level and its entry's physical address, or none for a page fault (R233, R237,
R240 step 3). The walker reads entries at their home slices; a table in a window or on the host stops as an address without a place
does [DESIGN CHOICE, log 78]. -/
def State.walkFrom (s : State) : Nat → Nat → Nat → Nat → Res (Option (Nat × X64 × Nat))
  | 0, _, _, _ => .ok none
  | fuel + 1, level, table, va =>
    let pa := walkAddr table level va
    if placeOf pa ≠ .hbm then .error .noSuchPhysicalAddress
    else
      let e := BitVec.ofNat 64 (ofBytes (s.readHome pa 8))
      if !pteV e then .ok none
      else if pteMalformed level (walkIdx level va) e then .ok none
      else if pteLeaf e then .ok (some (level, e, pa))
      else s.walkFrom fuel (level + 1) (pteAddr e) va

/-- An address space: PTROOT's fields (R234). -/
def rootEn (pt : X64) : Bool := bitAt pt 0
def rootAsid (pt : X64) : Nat := fld pt 52 12
def rootTable (pt : X64) : Nat := fld pt 16 36

/-- What a TLB of the core holds for a page, or what a walk finds, cached until a covering invalidation (R239). -/
def State.leafOf (s : State) (core : Nat) (pt : X64) (va : Nat) : Res (State × Option (Nat × X64)) :=
  let vp := va / 65536 % 2 ^ 41
  match (s.coreAt core).tlb.find? fun t => t.asid == rootAsid pt && t.vpage == vp with
  | some t => .ok (s, some (t.level, t.pte))
  | none => do
    match ← s.walkFrom 4 0 (rootTable pt) va with
    | none => .ok (s, none)
    | some (level, e, _) =>
      .ok (s.modCore core fun c => { c with tlb := c.tlb ++ [{ asid := rootAsid pt, vpage := vp, level := level, pte := e }] },
        some (level, e))

/-- Does a walk go on from an entry at a level to a table: one that is valid, well formed and no leaf (R237, R240). -/
def pteTable (level idx : Nat) (e : X64) : Bool := pteV e && !pteMalformed level idx e && !pteLeaf e

/-- Does a walk meet a table entry whose request is held (R337). -/
def State.walkHeld (s : State) : Nat → Nat → Nat → Nat → Bool
  | 0, _, _, _ => false
  | fuel + 1, level, table, va =>
    let pa := walkAddr table level va
    let e := BitVec.ofNat 64 (ofBytes (s.readHome pa 8))
    s.stackHeld pa || (pteTable level (walkIdx level va) e && s.walkHeld fuel (level + 1) (pteAddr e) va)

/-- Does a translation have to wait for a drained stack: its page is in no TLB, and its walk meets one (R337). -/
def State.leafHeld (s : State) (core : Nat) (pt : X64) (va : Nat) : Bool :=
  s.svc.offParts.any (fun u => u / 256 == 3) &&
    !((s.coreAt core).tlb.any fun t => t.asid == rootAsid pt && t.vpage == va / 65536 % 2 ^ 41) &&
    s.walkHeld 4 0 (rootTable pt) va

/-- Does a walk read a table entry of a poisoned line (R339). -/
def State.walkPoison (s : State) : Nat → Nat → Nat → Nat → Bool
  | 0, _, _, _ => false
  | fuel + 1, level, table, va =>
    let pa := walkAddr table level va
    let e := BitVec.ofNat 64 (ofBytes (s.readHome pa 8))
    s.poisoned pa || (pteTable level (walkIdx level va) e && s.walkPoison fuel (level + 1) (pteAddr e) va)

/-- Does a translation consume a poisoned line: its page is in no TLB, and its walk reads one (R339). -/
def State.leafPoison (s : State) (core : Nat) (pt : X64) (va : Nat) : Bool :=
  !s.poison.isEmpty && !((s.coreAt core).tlb.any fun t => t.asid == rootAsid pt && t.vpage == va / 65536 % 2 ^ 41) &&
    s.walkPoison 4 0 (rootTable pt) va

/-- The machine without drained stacks: a store whose answer nobody awaits is translated at once, and its home slice holds it
(R337) [log 8]. -/
def State.unheld (s : State) : State :=
  { s with svc := { s.svc with offParts := s.svc.offParts.filter fun u => u / 256 != 3 } }
/-- The machine with the drained parts of another again. -/
def State.reheld (s t : State) : State := { s with svc := { s.svc with offParts := t.svc.offParts } }

/-- Where an access goes: local memory, far memory over a port (R235), or a home slice that holds it (R337). -/
inductive Target where
  | held
  | loc (pa : Nat)
  | far (port part addr cls : Nat)
  deriving DecidableEq, Repr

/-- What a translation gives: the place, the final address, the sum of the hops and the page followed first (R243, R244),
or the fault and its address (R240). -/
inductive Xlat where
  | ok (t : Target) (fva : X64) (delta : X64) (page : Option Nat)
  | fail (code : TrapCode) (addr : X64)
  deriving DecidableEq, Repr

/-- Step 5 of R240 at the final leaf: `ill` says that a thread's page does not map its window as R331 has it, and `host` that
the page lies on the host (R224). -/
def permFault (e : X64) (priv : Bool) (acc : Acc) (ill host : Bool) : Option TrapCode :=
  let need :=
    match acc with
    | .read => pteR e
    | .write => pteW e
    | .fetch => pteX e
    | .atomic _ => pteR e && pteW e
    | .scadd => pteW e
  if !pteU e && !priv then some .permission
  else if !need || ill then some .permission
  else if acc.isAtomic && (!pteAc e || (host && acc.unhosted)) then some .atomicNotCarried
  else if ptePoison e then some .poison
  else none

/-- The place of an address under its leaf (R233, R235). -/
def leafTarget (level : Nat) (e : X64) (va : Nat) : Target :=
  let pa := if level = 2 then pteAddr e / 8192 * 2 ^ 29 + va % 2 ^ 29 else pteAddr e * 65536 + va % 65536
  if pteRem e then .far (pteRport e) (pteAddr e / 2 ^ 24) (pa % 2 ^ 40) (pteRcls e) else .loc pa

/-- What a target names in this part's physical space; nothing over a link. -/
def Target.place : Target → Option Place
  | .loc pa => some (placeOf pa)
  | _ => none
/-- Does a target lie on the host (R224). -/
def Target.onHost (t : Target) : Bool := t.place == some .host
/-- Does a target lie in the service space (R331). -/
def Target.onWindow (t : Target) : Bool :=
  match t.place with
  | some (.cluster ..) => true
  | some (.queue _) => true
  | some (.port _) => true
  | some (.service _) => true
  | _ => false
/-- Does a leaf map a window as R331 has it: U = 0, R and W set, AC, MOV and REM at 0. -/
def pteWindow (e : X64) : Bool := !pteU e && pteR e && pteW e && !pteAc e && !pteMov e && !pteRem e

/-- A place whose stack is drained holds the access (R337). -/
def State.hold (s : State) (t : Target) : Target :=
  match t with
  | .loc pa => if s.stackHeld pa then .held else t
  | .far .. => t
  | .held => t

/-- The address one hop further: VA + (NVA·2^16 − page base) (R243). -/
def hopAddr (e va : X64) : X64 := va + (BitVec.ofNat 64 (pteNva e * 65536) - BitVec.ofNat 64 (va.toNat / 65536 * 65536))

/-- Steps 2 to 5 of R240, with at most `hops` more hops; a poisoned line that the walk reads traps its consumer (R339). System
cores, which are no thread's core, reach a window through any page (R331). -/
def State.xlatFrom (s : State) (core : Nat) (pt : X64) (priv : Bool) (acc : Acc) :
    Nat → X64 → X64 → Option Nat → Res (State × Xlat)
  | hops, va, delta, page =>
    if 2 ^ 57 ≤ va.toNat then .ok (s, .fail .pageFault va)
    else if !rootEn pt then
      let t := Target.loc (va.toNat % 2 ^ 52)
      if t.onHost && acc.unhosted then .ok (s, .fail .atomicNotCarried va) else .ok (s, .ok (s.hold t) va delta page)
    else if s.leafHeld core pt va.toNat then .ok (s, .ok .held va delta page)
    else if s.leafPoison core pt va.toNat then .ok (s, .fail .poison va)
    else do
      match ← s.leafOf core pt va.toNat with
      | (s, none) => .ok (s, .fail .pageFault va)
      | (s, some (level, e)) =>
        if pteMark e then
          match hops with
          | 0 => .ok (s, .fail .markChain va)
          | n + 1 =>
            let s := if pteMst e = 3 then s.modCore core fun c => { c with rlate := c.rlate + 1 } else s
            let va' := hopAddr e va
            s.xlatFrom core pt priv acc n va' (delta + (va' - va)) (some (page.getD (va.toNat / 65536)))
        else
          let t := leafTarget level e va.toNat
          match permFault e priv acc (decide (core < 64) && t.onWindow && !pteWindow e) t.onHost with
          | some code => .ok (s, .fail code va)
          | none => .ok (s, .ok (s.hold t) va delta page)
termination_by structural hops => hops

/-- Translate an access: step 1 of R240 first, when its size must divide its address. -/
def State.translate (s : State) (core : Nat) (pt : X64) (priv : Bool) (acc : Acc) (align : Nat) (va : X64) :
    Res (State × Xlat) :=
  if va.toNat % align ≠ 0 then .ok (s, .fail .misaligned va) else s.xlatFrom core pt priv acc 2 va 0 none

/-! ### Requests over a link -/

/-- Who makes an access: the core and address space, the privilege, the agent's number (4k the slice of slot k, 4k + 1 its
lanes, 4k + 2 its sequencer, 4k + 3 its fetch; the model's own numbering) and .URG. -/
structure Agent where
  core : Nat
  owner : Nat
  pt : X64
  priv : Bool
  urg : Bool
  deriving DecidableEq, Repr

/-- Opcode, operand type, rounding mode and draw of an ATOMIC packet (R301). -/
structure AtomArgs where
  opc : Nat
  atype : Nat
  arm : Nat
  draw : Nat
  deriving DecidableEq, Repr

/-- The fields of a WRITE or READ packet that only an ATOMIC uses. -/
def AtomArgs.none : AtomArgs := { opc := 0, atype := 0, arm := 0, draw := 0 }

/-- The scheduler's requests for queue n, for the placement of launch n and for the completion word of launch n, those of the
drover's sweep in place n, and writes whose answer nobody awaits (the model's own numbering of agents). -/
def queueOwner (n : Nat) : Nat := 4096 + 4 * n
def placeOwner (n : Nat) : Nat := 4097 + 4 * n
def wordOwner (n : Nat) : Nat := 4098 + 4 * n
def droverOwner (n : Nat) : Nat := 4099 + 4 * n
def postOwner : Nat := droverOwner 4

/-- The class a request travels in (R302). -/
def classOf (urg : Bool) (rcls : Nat) : LinkClass :=
  match rcls with
  | 0 => if urg then .urgent else .bulk
  | 1 => .urgent
  | _ => .control

/-- Index of a class among the three entries of a port. -/
def classIdx : LinkClass → Nat
  | .bulk => 0 | .urgent => 1 | .control => 2

/-- Send one request packet (R301); a port that is not UP completes it LINK-INCOMPLETE at once (R309). -/
def State.sendReq (s : State) (g : Agent) (port part addr rcls kind len : Nat) (a : AtomArgs) (data : List Byte) : State :=
  let up := decide ((s.portAt port).st = .up)
  let cls := classOf g.urg rcls
  let tag := s.nextTag % 65536
  let req : LinkReq :=
    { tag := tag, port := port, owner := g.owner, kind := kind, part := part, addr := addr, len := len
      elem := 0, eva := 0, va := 0, outcome := if up then .waiting else .incomplete, asid := rootAsid g.pt }
  let s := { s with reqs := s.reqs ++ [req] }
  if up then
    let p : Packet :=
      { cls := cls, dpart := part, spart := s.svc.partid, kind := kind, opc := a.opc, tag := tag, addr := addr
        len := data.length + (if kind = 2 then len else 0), status := 0, atype := a.atype, arm := a.arm, draw := a.draw
        data := data }
    { s with nextTag := s.nextTag + 1 }.modPort port fun q =>
      { q with wait := q.wait.setIfInBounds (classIdx cls) (vat q.wait (classIdx cls) [] ++ [p]) }
  else s

/-! ### Contexts -/

/-- The context of a slot, when it has one. -/
def State.ctxOf (s : State) (n : Option Nat) : Option Ctx :=
  match n with
  | none => none
  | some n => (s.ctxs.find? fun c => c.1 == n).map (·.2)

/-- STATE code of a context record (R271). -/
def CtxState.code : CtxState → Nat
  | .free => 0 | .loading => 1 | .ready => 2 | .running => 3 | .preempting => 4 | .saved => 5 | .faulted => 6 | .halted => 7
  | .ended => 8

/-- The scheduler writes STATE into a context record (R271), under HQROOT (R269). A record it can no longer reach stays as it
is. -/
def State.writeRecord (s : State) (c : Ctx) (st : CtxState) : State :=
  match s.unheld.translate 64 c.hqroot true .write 8 c.crec with
  | .ok (u, .ok (.loc pa) _ _ _) => (u.reheld s).putPhys pa (toBytes 8 st.code)
  | .ok (u, .ok (.far port part addr rcls) _ _ _) =>
    (u.reheld s).sendReq { core := 64, owner := postOwner, pt := c.hqroot, priv := true, urg := false } port part addr rcls 1 8 .none
      (toBytes 8 st.code)
  | _ => s

/-- A context enters a state: the record shows it (R250, R271). -/
def State.setCtxSt (s : State) (n : Nat) (st : CtxState) : State :=
  match s.ctxOf (some n) with
  | none => s
  | some c => if c.st = st then s else (s.modCtxOf (some n) fun c => { c with st := st }).writeRecord c st

/-- The slots that a context holds. -/
def State.slotsOf (s : State) (n : Nat) : List (Nat × Slot) := s.slots.filter fun p => p.2.ctx == some n && p.2.st != .vacant

/-- The state of a context follows from its slots (R250): HALTED while the device is halted, RUNNING while several slots are
bound, the state of its only bound slot, and with none bound SAVED or READY. -/
def State.syncCtx (s : State) (n : Nat) : State :=
  match s.ctxOf (some n) with
  | none => s
  | some c =>
    if c.st = .faulted ∨ c.st = .ended ∨ c.st = .free ∨ c.st = .loading ∨ c.word.isSome = true then s
    else
      let st : CtxState :=
        match s.slotsOf n with
        | [] => if c.groups.any fun g => g.2.st == .saved || g.2.st == .saving then .saved else .ready
        | [p] => if s.halted then .halted else p.2.cst
        | _ => if s.halted then .halted else .running
      s.setCtxSt n st

/-! ### Traps -/

/-- The CAUSE word of a trap (R253). -/
def causeWord (code : TrapCode) (kind : Nat) (lane : Bool) : X64 :=
  BitVec.ofNat 64 (b2n (code = .preempt ∨ code = .resume) * 2 ^ 63 + b2n lane * 2 ^ 62 + kind * 256 + code.num)

/-! ### Stops (R320, R323, R326) -/

/-- Members of the convoy that holds the head of a queue. -/
def Slot.convoySize (sl : Slot) : Nat :=
  match sl.queue with
  | [] => 0
  | e :: t => e.cvPos + 1 + (t.takeWhile fun x => x.cvPos != 0).length

/-- The head PC that a stop names (R28). -/
def Slot.headPc (sl : Slot) : X64 :=
  match sl.queue with
  | [] => sl.pc
  | e :: _ => e.cvHead

/-- The STOP record of a slot that has entered STOP (R326). -/
def State.stopRecord (s : State) (k : Nat) : State :=
  s.trace k 7 (s.slot k).headPc (BitVec.ofNat 64 (s.slot k).convoySize) (s.dhalt (coreOf k))

/-- The chunks of slot k wait for leave no longer: its queue is frozen or gone (R315). -/
def State.unwait (s : State) (k : Nat) : State :=
  if (s.coreAt (coreOf k)).waiting.contains k then
    (s.modCore (coreOf k) fun c => { c with waiting := c.waiting.filter fun j => j != k }).modSlot k fun sl =>
      { sl with queue := sl.queue.map fun (e : Entry) => { e with turn := 0 } }
  else s

/-- A context faults: the slot stops and everything stays for a dump; the error ring gets a record (R250, R339). -/
def State.faultContext (s : State) (k : Nat) (cause : X64) : State :=
  let s := s.unwait k
  let sl := s.slot k
  let s := (s.setSlot k { sl with st := .stop, prev := sl.st, cst := .faulted, pend := none, cause := 0 }).stopRecord k
  let s := s.modCtxOf sl.ctx fun c =>
    { c with
      faultCode := if c.st = .faulted then c.faultCode else cause.toNat % 256
      groups := c.groups.map fun (g : Nat × Group) => if g.1 = sl.group then (g.1, { g.2 with st := .faulted }) else g }
  let s := match sl.ctx with | some n => s.setCtxSt n .faulted | none => s
  s.addRecord 7 k 0 cause

/-- Take a trap (R254): with INH = 1 the context faults; otherwise the saved registers are written and the slice goes on
privileged at TVEC. -/
def State.enterTrap (s : State) (k : Nat) (p : PendTrap) : State :=
  let sl := s.slot k
  if sl.tr.inh then s.faultContext k (causeWord p.code p.kind p.lane)
  else
    let sl := sl.goto sl.tr.tvec
    (s.setSlot k { sl with
      pend := none
      tr := { sl.tr with
        cause := causeWord p.code p.kind p.lane, epc := p.epc, tval := p.tval, rpc := p.rpc
        froz := p.lane || decide (p.code = .preempt)
        ppriv := sl.tr.priv, priv := true, inh := true } }).trace k 5 p.epc (causeWord p.code p.kind p.lane) p.tval

/-- Return from a trap (R265): PRIV := PPRIV; INH := 0; FROZ := 0; PC := RPC. A dormant nest that INH = 0 owns is live
again (R101). -/
def Slot.leaveTrap (sl : Slot) : Slot :=
  { sl.goto sl.tr.rpc with tr := { sl.tr with priv := sl.tr.ppriv, inh := false, froz := false } }

/-- Decide a slice trap (R77, R85): with earlier entries in a queue that is not frozen the slot
drains first; otherwise it enters at once. -/
def State.sliceTrap (s : State) (p : PendTrap) : State :=
  let sl := s.me
  if sl.queue.isEmpty || sl.tr.froz then s.enterTrap s.cur p
  else s.setMe { sl with st := .drain, cause := 6, pend := some p }

/-- A trap whose RPC is its own instruction (R254). -/
def State.trapHere (s : State) (code : TrapCode) (kind : Nat) (tval : X64) : State :=
  s.sliceTrap { code := code, kind := kind, lane := false, epc := s.me.pc, tval := tval, rpc := s.me.pc }

/-- A decode trap: TVAL holds the word (R77). -/
def State.trapWord (s : State) (code : TrapCode) (w : Word) : State := s.trapHere code 0 (w.setWidth 64)

/-- An illegal-operand trap at execution: TVAL is 0 (R253). -/
def State.trapOperand (s : State) : State := s.trapHere .illegalOperand 0 0

/-- The code of a decode refusal (R76, R77). -/
def decodeTrapCode : DecodeTrap → TrapCode
  | .undefined => .undefinedInstruction
  | .emulation => .emulation
  | .illegalType => .illegalType
  | .illegalOperand => .illegalOperand

/-- Next free value's number. -/
def State.tick (s : State) : State := { s with free := s.free + 1 }

end Sys2Proof.Machine
end

