-- ==== Sys2Proof/Machine/Power.lean ====
section
/-! DEFINITION. Power and current (R315 to R319): the current bucket, pressure, lane-group and cluster gating, the energy
meter, and the cluster registers. -/

namespace Sys2Proof.Machine

/-! ### The current bucket -/

/-- One refill: RATE sixteenths of a token, clipped to the capacity, which takes effect here (R315, R319). -/
def Core.refill (c : Core) : Core := { c with capNow := c.capacity, bal16 := min (c.bal16 + c.rate) (16 * c.capacity) }

/-- May a chunk of slot k charge now, `turn` its place among the slot's waiting chunks: no earlier chunk waits and the balance covers
the cost (R315). -/
def Core.mayCharge (c : Core) (k turn cost : Nat) : Bool :=
  (c.waiting.isEmpty || (c.waiting.head? == some k && turn == 1)) && decide (16 * cost ≤ c.bal16)
/-- Charge a chunk, the first of those that wait: the balance never goes negative (R315). -/
def Core.charge (c : Core) (cost : Nat) : Core := { c with bal16 := c.bal16 - 16 * cost, waiting := c.waiting.tail }
/-- A chunk of slot k begins to wait for leave, after those that wait already (R315). -/
def Core.await (c : Core) (k : Nat) : Core := { c with waiting := c.waiting ++ [k] }
/-- Change the entry at a place of slot k's queue. -/
def State.modEntry (s : State) (k idx : Nat) (f : Entry → Entry) : State :=
  s.modSlot k fun sl => { sl with queue := sl.queue.modify idx f }
/-- A chunk of slot k charges its core's bucket; the slot's other waiting chunks move up (R315). -/
def State.chargeChunk (s : State) (k cost : Nat) : State :=
  let waits := (s.coreAt (coreOf k)).waiting
  let s := s.modCore (coreOf k) fun c => c.charge cost
  if waits.isEmpty then s
  else s.modSlot k fun sl => { sl with queue := sl.queue.map fun (e : Entry) => { e with turn := e.turn - 1 } }
/-- The chunk of the entry at a place of slot k's queue begins to wait (R315). -/
def State.awaitChunk (s : State) (k idx : Nat) : State :=
  let place := ((s.coreAt (coreOf k)).waiting.filter fun j => j == k).length + 1
  (s.modCore (coreOf k) fun c => c.await k).modEntry k idx fun e => { e with turn := place }

/-- Units of the next chunk: all that remain when their cost fits the capacity, otherwise the longest run that fits (R169). -/
def chunkUnits (capacity cost units : Nat) : Nat := if cost = 0 then units else min units (capacity / cost)

/-! ### Pressure -/

/-- PLIM at the end of a window in which a chunk waited for leave in `waited` of its 65,536 cycles (R316). -/
def nextPlim (plim plimmax waited : Nat) : Nat :=
  if 49152 ≤ waited then max 4 (plim / 2) else if waited ≤ 16384 then min plimmax (2 * plim) else plim

/-- The next lower limit among 4, 8, 16 and 32, or 4 (R319). -/
def floorLimit (n : Nat) : Nat := if 32 ≤ n then 32 else if 16 ≤ n then 16 else if 8 ≤ n then 8 else 4

/-! ### The lane allocation table (R11, R89, R316, R317) -/

/-- Lane groups that a thread of the core holds. -/
def Core.held (c : Core) (t : Nat) : Nat := (c.lanes.filter fun p => p.2 == t).length
/-- A lane group that the table may grant at once: held by nobody, not gated. -/
def Core.freeLane (c : Core) : Option Nat :=
  (List.range 32).find? fun g => !(c.lanes.any fun p => p.1 == g) && !c.gatedLanes.contains g
/-- Grant a lane group to a thread, or pass it on. -/
def Core.giveLane (c : Core) (g t : Nat) : Core := { c with lanes := ainsert c.lanes g t }
/-- Take one lane group, the highest, from a thread. -/
def Core.takeLane (c : Core) (t : Nat) : Core :=
  match (c.lanes.filter fun p => p.2 == t).getLast? with
  | some p => { c with lanes := aerase c.lanes p.1 }
  | none => c
/-- A thread gives back all it holds. -/
def Core.returnLanes (c : Core) (t : Nat) : Core := { c with lanes := c.lanes.filter fun p => p.2 != t }

/-! ### Cluster gating and the cluster registers -/

/-- Wake a cluster: WAKE := 1, or a bind (R318). Requests accepted earlier complete at once here, so GATING turns RUNNING. -/
def Cluster.wake (c : Cluster) : Cluster :=
  match c.st with
  | .running => c
  | .gating => { c with st := .running }
  | .gated => { c with st := .waking }
  | .waking => c

/-- The writes that a cluster has let wait are made again once it runs or is gated (R225, R318). -/
def State.settleLate (s : State) (n : Nat) : State :=
  let c := s.clusterAt n
  if c.st = .running ∨ c.st = .gated then
    { s.modCluster n fun c => { c with late := [] } with
      agenda := c.late.map (fun w => Move.register (BitVec.ofNat 52 w.1) w.2) ++ s.agenda }
  else s
/-- Wake a cluster (R318). -/
def State.wakeCluster (s : State) (n : Nat) : State := (s.modCluster n Cluster.wake).settleLate n
/-- A write to the window of a cluster that gates or wakes waits (R225, R318). -/
def State.writeLate (s : State) (n pa : Nat) (v : X64) : State := s.modCluster n fun c => { c with late := c.late ++ [(pa, v)] }

/-- A write of CPWR (R319). -/
def Cluster.setCpwr (c : Cluster) (v : X64) : Cluster :=
  let c := { c with gidle := BitVec.ofNat 16 (fld v 16 16), auto := bitAt v 6 }
  if bitAt v 7 then c.wake else c

/-- A write of CCUR: values out of range store the nearest legal one, and a lower PLIMMAX lowers PLIM (R316, R319). -/
def Core.setCcur (c : Core) (v : X64) : Core :=
  let pm := floorLimit (fld v 8 6)
  { c with capacity := max 32 (fld v 32 12), rate := max 16 (fld v 16 11), plimmax := pm, plim := min c.plim pm }

/-- Write a 64-bit register of a cluster window outside its debug blocks (R319). -/
def State.setClusterReg (s : State) (n off : Nat) (v : X64) : State :=
  if off = 0 then (s.modCluster n fun c => c.setCpwr v).settleLate n
  else if 0x10 ≤ off ∧ off < 0x30 ∧ off % 8 = 0 then s.modCore (4 * n + (off - 0x10) / 8) fun c => c.setCcur v
  else s

/-- Is some group bound in the cluster, or some writeback or fill of its threads outstanding (R318). -/
def State.clusterBusy (s : State) (n : Nat) : Bool :=
  s.slots.any fun p => clusterOf p.1 == n && p.2.st != .vacant

/-! ### Switch points -/

/-- A switch point: a metering slot charges ACCT, and ELAST follows the counter (R263). -/
def State.switchPoint (s : State) (k : Nat) : State :=
  let e := (s.clusterAt (clusterOf k)).energy
  s.modSlot k fun sl =>
    { sl with
      tr := if bitAt sl.ctxid 32 then { sl.tr with acct := sl.tr.acct + (e - sl.elast) } else sl.tr
      elast := e }

/-! ### The device's own steps -/

/-- BUCKET_REFILL: the start of a cycle at one core's bucket (R315). -/
def execBucketRefill (core : Fin 64) (s : State) : Host.Outcome State Fault Refusal := .next (s.modCore core.val Core.refill)

/-- PRESSURE_WINDOW_END: PLIM follows the window's waiting cycles (R316). -/
def execPressureWindowEnd (core : Fin 64) (waited : Nat) (s : State) : Host.Outcome State Fault Refusal :=
  .next (s.modCore core.val fun c => { c with plim := nextPlim c.plim c.plimmax waited })

/-- LANE_GROUP_GATE: a lane group that no thread holds is gated; only timing changes (R317). -/
def execLaneGroupGate (core : Fin 64) (lg : Fin 32) (s : State) : Host.Outcome State Fault Refusal :=
  .next (s.modCore core.val fun c =>
    if c.gatedLanes.contains lg.val || c.lanes.any fun p => p.1 == lg.val then c
    else { c with gatedLanes := c.gatedLanes ++ [lg.val] })

/-- LANE_GROUP_UNGATE: the table grants the lane group again (R317). -/
def execLaneGroupUngate (core : Fin 64) (lg : Fin 32) (s : State) : Host.Outcome State Fault Refusal :=
  .next (s.modCore core.val fun c => { c with gatedLanes := c.gatedLanes.filter fun g => g != lg.val })

/-- CLUSTER_IDLE_TIMEOUT: a RUNNING cluster with AUTO = 1, GIDLE ≠ 0 and nothing bound begins to gate (R318, R319). -/
def execClusterIdleTimeout (cl : Fin 16) (s : State) : Host.Outcome State Fault Refusal :=
  let c := s.clusterAt cl.val
  if c.st = .running ∧ c.auto = true ∧ c.gidle ≠ 0 ∧ s.clusterBusy cl.val = false then
    .next (s.modCluster cl.val fun c => { c with st := .gating })
  else .next s

/-- CLUSTER_GATING_COMPLETE: every accepted request has completed (R318). -/
def execClusterGatingComplete (cl : Fin 16) (s : State) : Host.Outcome State Fault Refusal :=
  .next ((s.modCluster cl.val fun c => if c.st = .gating then { c with st := .gated } else c).settleLate cl.val)

/-- CPWR_WAKE: WAKE := 1 (R318). -/
def execCpwrWake (cl : Fin 16) (s : State) : Host.Outcome State Fault Refusal := .next (s.wakeCluster cl.val)

/-- CLUSTER_WAKE_COMPLETE: power good and the loft cleared (R318). -/
def execClusterWakeComplete (cl : Fin 16) (s : State) : Host.Outcome State Fault Refusal :=
  .next ((s.modCluster cl.val fun c => if c.st = .waking then { c with st := .running } else c).settleLate cl.val)

/-- Physical address of CCURc in its cluster window (R319, R331). -/
def ccurAddr (core : Nat) : Nat := clusterBase + 65536 * (core / 4) + 0x10 + 8 * (core % 4)

/-- CCUR_WRITE: a write of a core's CCUR, which a gated cluster answers ASLEEP and one that gates or wakes makes the writer send
again (R318, R319). -/
def execCcurWrite (core : Fin 64) (v : BitVec 64) (s : State) : Host.Outcome State Fault Refusal :=
  match (s.clusterAt (core.val / 4)).st with
  | .running => .next (s.modCore core.val fun c => c.setCcur v)
  | .gated => .next s
  | .gating => .next (s.writeLate (core.val / 4) (ccurAddr core.val) v)
  | .waking => .next (s.writeLate (core.val / 4) (ccurAddr core.val) v)

/-- ENERGY_METER_UPDATE: the cluster's meter brings its energy counter to v (R263). -/
def execEnergyMeterUpdate (cl : Fin 16) (v : BitVec 64) (s : State) : Host.Outcome State Fault Refusal :=
  .next (s.modCluster cl.val fun c => { c with energy := v })

end Sys2Proof.Machine
end

