-- ==== Sys2Proof/Machine/Net.lean ====
section
/-! DEFINITION. A core's network port (R264, R353) and its window (R314): pieces, shares and tokens. They change timing only. -/

namespace Sys2Proof.Machine

/-- A request of n bytes of slot k reaches its core's port, cut into pieces of 64 bytes (R264). -/
def State.addPieces (s : State) (k n : Nat) : State :=
  s.modCore (coreOf k) fun c =>
    { c with pieces := c.pieces ++ List.replicate ((n + 63) / 64) { id := fld (s.slot k).ctxid 0 32, old := false } }

/-- Do n bytes at a place hit core c's data L1: each is dirty in it (R31); clean lines the model does not follow (log 62). -/
def State.l1Hit (s : State) (c : Nat) (t : Target) (n : Nat) : Bool :=
  match t with
  | .loc pa => (List.range n).all fun i => (s.coreAt c).l1.any fun b => b.1 == s.home (pa + i)
  | _ => false

/-- A scalar access of n bytes asks the port only when it misses (R264). -/
def State.scalarPieces (s : State) (k n : Nat) (hit : Bool) : State := if hit then s else s.addPieces k n

/-- SHARE of a context ID on a core, from the lowest-numbered slot bound to it (R353); with none bound any more it is as the port
last read it, and 1 where it has read none [DEDUCED, log 109] (R354). -/
def State.shareOn (s : State) (core id : Nat) : Nat :=
  match (List.range' (16 * core) 16).find? fun k => decide ((s.slot k).st ≠ .vacant) && decide (fld (s.slot k).ctxid 0 32 = id) with
  | some k => fld (s.slot k).ctxid 40 8
  | none => alookup 1 (s.coreAt core).shares id

/-- Put a number into a rising list of numbers, once. -/
def insertId : List Nat → Nat → List Nat
  | [], i => [i]
  | j :: t, i => if i < j then i :: j :: t else if i = j then j :: t else j :: insertId t i

/-- The IDs of A in R264: a piece that reached the port in an earlier cycle, or one issued in the window just ended. -/
def Core.activeIds (c : Core) : List Nat := ((c.pieces.filter (·.old)).map (·.id)).foldl insertId (c.issued.foldl insertId [])

/-- The shares of a refill: each active ID's floor, at least 1, and the remainder for the largest share (R264). -/
def refillBuckets (shares : List (Nat × Nat)) : List (Nat × Nat) :=
  let total := shares.foldl (fun acc p => acc + p.2) 0
  let floorOf (p : Nat × Nat) : Nat := 1024 * p.2 / total
  let rest := 1024 - shares.foldl (fun acc p => acc + floorOf p) 0
  let most := shares.foldl (fun acc p => max acc p.2) 0
  let top := (shares.find? fun p => p.2 == most).map (·.1)
  shares.map fun p => (p.1, max 1 (floorOf p) + if top = some p.1 then rest else 0)

/-- PORT_REFILL: the start of a window of 1,024 cycles at one core's port (R264, R353). -/
def execPortRefill (core : Fin 64) (s : State) : Host.Outcome State Fault Refusal :=
  .next (s.modCore core.val fun c =>
    let shares := c.activeIds.map fun id => (id, s.shareOn core.val id)
    { c with
      buckets := refillBuckets shares, issued := [], shares := shares
      pieces := c.pieces.map fun p => { p with old := true } })

/-- Does an ID have a token and a waiting piece. -/
def Core.canIssue (c : Core) (id : Nat) : Bool := decide (0 < alookup 0 c.buckets id) && c.pieces.any fun p => p.id == id

/-- The ID that issues next: round robin in rising order after the last (R353). -/
def Core.nextId (c : Core) : Option Nat :=
  let ids := ((c.pieces.map (·.id)).foldl insertId []).filter c.canIssue
  match c.lastId with
  | none => ids.head?
  | some l =>
    match ids.find? fun i => decide (l < i) with
    | some i => some i
    | none => ids.head?

/-- One piece of an ID issues and takes one token (R264). -/
def Core.issuePiece (c : Core) (id : Nat) : Core :=
  { c with
    pieces := (c.pieces.eraseP fun p => p.id == id).map fun p => { p with old := true }
    buckets := ainsert c.buckets id (alookup 0 c.buckets id - 1)
    issued := insertId c.issued id, lastId := some id }

/-- A marked reply halves the window, not below 4, once in 1,024 cycles (R314). -/
def Core.mark (c : Core) : Core := if c.halved then c else { c with window := max 4 (c.window / 2), halved := true }

/-- Replies to n outstanding pieces have come, with a mark or without (R314). -/
def Core.replies (c : Core) (n : Nat) (marked : Bool) : Core :=
  let c := { c with outstanding := c.outstanding - n }
  if marked && decide (n ≠ 0) then c.mark else c

/-- The replies of one cycle: how many of the outstanding pieces have theirs, and whether one carries a mark, are free values
(R314) [log 97]. -/
def State.portReplies (s : State) (core : Nat) : State :=
  let c := s.coreAt core
  if c.outstanding = 0 then s
  else
    (s.modCore core fun c =>
      c.replies ((Config.freeCount s.free).toNat % (c.outstanding + 1)) (Config.freeOrder s.free)).tick

/-- PIECE_ISSUE: one cycle of a core's port (R264, R353); a port with a full window holds its pieces (R314). -/
def execPieceIssue (core : Fin 64) (s : State) : Host.Outcome State Fault Refusal :=
  .next ((s.portReplies core.val).modCore core.val fun c =>
    match if c.outstanding < c.window then c.nextId else none with
    | some id => { c.issuePiece id with outstanding := c.outstanding + 1 }
    | none => { c with pieces := c.pieces.map fun p => { p with old := true } })

/-- CONGESTION_WINDOW_INCREASE: 1,024 cycles end, in which `marked` says whether a marked reply came: after none the window is one
larger, up to 256, and the next marked reply may halve it again (R314). -/
def execCongestionWindowIncrease (core : Fin 64) (marked : Bool) (s : State) : Host.Outcome State Fault Refusal :=
  .next (s.modCore core.val fun c =>
    let c := if marked then c.mark else if c.halved then c else { c with window := min 256 (c.window + 1) }
    { c with halved := false })

end Sys2Proof.Machine
end

