-- ==== Sys2Proof/Machine/Debug.lean ====
section
/-! DEFINITION. Debug blocks (R320 to R326, R358): comparators, halt, resume and step, the drain of a stopped slot, and
samples. -/

namespace Sys2Proof.Machine

/-- Fields of a comparator DBKn (R320). -/
def dbkEn (d : X64) : Bool := bitAt d 63
def dbkKind (d : X64) : Nat := fld d 61 2
def dbkLen (d : X64) : Nat := fld d 57 4
def dbkVa (d : X64) : Nat := fld d 0 57

/-- Do n bytes at va meet the aligned block of a comparator (R320, R321). -/
def dbkMeets (d : X64) (va n : Nat) : Bool :=
  let lo := dbkVa d / 2 ^ dbkLen d * 2 ^ dbkLen d
  decide (va < lo + 2 ^ dbkLen d) && decide (lo < va + n)

/-- The first comparator of a block that matches a fetch of the word at va (R321). -/
def DebugBlock.fetchHit (b : DebugBlock) (va : Nat) : Option Nat :=
  (List.range 8).find? fun i => let d := vat b.dbk i 0; dbkEn d && dbkKind d == 0 && dbkMeets d va 4

/-- The first comparator that matches a data access: KIND 1 read, 2 write, 3 either (R320, R321). -/
def DebugBlock.dataHit (b : DebugBlock) (isR isW : Bool) (va n : Nat) : Option Nat :=
  (List.range 8).find? fun i =>
    let d := vat b.dbk i 0
    dbkEn d && dbkMeets d va n &&
      ((dbkKind d == 1 && isR) || (dbkKind d == 2 && isW) || (dbkKind d == 3 && (isR || isW)))

/-- The convoy that holds the head entry has begun (R323): a member before the head has retired, or the head is part done. -/
def Slot.begun (sl : Slot) : Bool :=
  match sl.queue with
  | [] => false
  | e :: _ => decide (e.cvPos ≠ 0) || decide (sl.lane.vstart ≠ 0)

/-- A slice stopped in the stall of a back-flow (R255): an entry of its own that has not retired is the youngest of the
queue and is withdrawn, and the slice will push it again; one that has retired completes the instruction with its value. -/
def Slot.settle (sl : Slot) : Slot :=
  match sl.phase with
  | .pushed _ => { sl with queue := sl.queue.dropLast, lastCv := none, phase := .fresh, st := .run, cause := 0 }
  | .value d v => (sl.wx d v).adv
  | _ => sl

/-- The lanes of slot k have begun the convoy that holds the head entry: an element group of the head was issued, or a packet of
its far accesses travels (R215, R323). -/
def State.convoyBegun (s : State) (k : Nat) : Bool :=
  (s.slot k).begun || match (s.slot k).queue with
  | [] => false
  | e :: _ => decide (e.ahead ≠ 0) || decide (e.leave ≠ 0) || s.reqs.any fun r => r.owner == 4 * k + 1

/-- A slot enters STOP: the lanes drain a convoy that has begun, as it has when `mid` says that an access of its head performs now,
and a STOP record is written (R323, R326). -/
def State.stopSlot (s : State) (k : Nat) (mid : Bool) : State :=
  let sl := s.slot k
  if sl.st = .vacant ∨ sl.st = .stop then s
  else
    let cut := (mid || s.convoyBegun k) && !sl.tr.froz
    let sl := if cut then sl else sl.settle
    (s.setSlot k { sl with st := .stop, prev := sl.st, stopping := cut }).stopRecord k

/-- Halt the whole device from core c (R322): the other cores report REASON 5. `lanes` is the slot whose lanes made the access that
matched. -/
def State.haltFor (s : State) (c reason mthr mtch : Nat) (lanes : Option Nat) : State :=
  if s.halted then s
  else
    let cores := (List.range 64).foldl (fun (v : Vector Core 64) j =>
      let x := vat v j Core.reset
      v.setIfInBounds j { x with
        dbg := if j = c then
            { x.dbg with
              reason := reason, mthr := if reason = 3 then x.dbg.mthr else mthr, mtch := if reason = 3 then x.dbg.mtch else mtch
              sthr := if reason = 3 then x.dbg.sthr else mthr, drain := true }
          else { x.dbg with reason := 5, drain := true } }) s.cores
    let s := (s.slots.map (·.1)).foldl (fun s k => s.stopSlot k (lanes == some k)) { s with halted := true, haltCore := c, cores := cores }
    (s.ctxs.map (·.1)).foldl State.syncCtx s

/-- A halt that no access of the lanes brings about (R322). -/
def State.haltDevice (s : State) (c reason mthr mtch : Nat) : State := s.haltFor c reason mthr mtch none

/-- Resume the device: every slot that a halt stopped goes back to the state before STOP (R85, R322). A faulted slot stays
stopped (R250). -/
def State.resumeDevice (s : State) : State :=
  let slots : List (Nat × Slot) := s.slots.map fun p =>
    if p.2.st = .stop ∧ p.2.cst ≠ .faulted then (p.1, { p.2 with st := p.2.prev, stopping := false, closing := false }) else p
  let s : State := { s with halted := false, slots := slots }
  (s.ctxs.map (·.1)).foldl State.syncCtx s

/-- STEP releases one stopped slot of a core (R324); nothing else happens until it stops again. -/
def State.stepThread (s : State) (c t : Nat) : State :=
  let sl := s.slot (16 * c + t)
  if s.halted ∧ sl.st = .stop ∧ sl.cst ≠ .faulted then
    (s.setSlot (16 * c + t) { sl with st := sl.prev, stopping := false, closing := false }).modCore c fun x =>
      { x with dbg := { x.dbg with sthr := t } }
  else s

/-- A data access of slot k performs: a comparator that its bytes meet halts the device (R321, R322). -/
def State.watch (s : State) (k : Nat) (isR isW : Bool) (va n : Nat) : State :=
  match (s.coreAt (coreOf k)).dbg.dataHit isR isW va n with
  | some i => s.haltDevice (coreOf k) 2 (k % 16) i
  | none => s

/-- The same for an access of slot k's lanes, whose head entry has then begun (R323). -/
def State.watchLanes (s : State) (k : Nat) (isR isW : Bool) (va n : Nat) : State :=
  match (s.coreAt (coreOf k)).dbg.dataHit isR isW va n with
  | some i => s.haltFor (coreOf k) 2 (k % 16) i (some k)
  | none => s

/-! ### Registers of a debug block -/

/-- A write of DHALT: STHR, then HALT, RESUME and STEP (R320). -/
def State.setDhalt (s : State) (c : Nat) (v : X64) : State :=
  let s := s.modCore c fun x => { x with dbg := { x.dbg with sthr := fld v 20 4 } }
  let s := if bitAt v 0 then s.haltDevice c 3 0 0 else s
  let s := if bitAt v 1 then s.resumeDevice else s
  if bitAt v 2 then s.stepThread c (fld v 20 4) else s

/-- Keep only the bits of a write that the register holds. -/
def maskTo (v : X64) (fields : List (Nat × Nat)) : X64 :=
  BitVec.ofNat 64 (fields.foldl (fun acc f => acc + fld v f.1 f.2 * 2 ^ f.1) 0)

/-- Write a register of the debug block of core c (R320, R325, R358). Reserved and read-only fields keep their values. -/
def State.setDebugReg (s : State) (c off : Nat) (v : X64) : State :=
  let up (f : DebugBlock → DebugBlock) : State := s.modCore c fun x => { x with dbg := f x.dbg }
  if off < 0x40 ∧ off % 8 = 0 then up fun d => { d with dbk := d.dbk.setIfInBounds (off / 8) v }
  else
    match off with
    | 0x40 => s.setDhalt c v
    | 0x48 => up fun d => { d with trctl := maskTo v [(32, 16), (16, 16), (1, 1), (0, 1)] }
    | 0x50 => up fun d => { d with trbase := maskTo v [(12, 40), (0, 4)] }
    | 0x58 => up fun d => { d with tridx := fld v 0 32 % (128 * 2 ^ fld d.trbase 0 4) }
    | 0x60 => up fun d => { d with dpre := maskTo v [(63, 1), (20, 3), (16, 4), (0, 13)] }
    | _ => s

/-! ### The device's own steps -/

/-- Physical address of a core's DHALT in its cluster window (R320, R331). -/
def dhaltAddr (core : Nat) : Nat := clusterBase + 65536 * (core / 4) + 0x140 + 0x80 * (core % 4)

/-- A write of a core's DHALT with effect t: a gated cluster answers ASLEEP, and one that gates or wakes makes the writer send again
(R225, R318). `bits` and `thr` are what was written. -/
def State.dhaltWrite (s t : State) (core bits thr : Nat) : State :=
  let late := s.writeLate (core / 4) (dhaltAddr core) (BitVec.ofNat 64 (bits + thr * 2 ^ 20))
  match (s.clusterAt (core / 4)).st with
  | .running => t
  | .gated => s
  | .gating => late
  | .waking => late

/-- STHR of a core's DHALT. -/
def State.sthr (s : State) (core : Nat) : Nat := (s.coreAt core).dbg.sthr

/-- DHALT_HALT: a HALT write on a core (R322). -/
def execDhaltHalt (core : Fin 64) (s : State) : Host.Outcome State Fault Refusal :=
  .next (s.dhaltWrite (s.haltDevice core.val 3 0 0) core.val 1 (s.sthr core.val))
/-- DHALT_RESUME: a RESUME write on a core (R320). -/
def execDhaltResume (core : Fin 64) (s : State) : Host.Outcome State Fault Refusal :=
  .next (s.dhaltWrite s.resumeDevice core.val 2 (s.sthr core.val))
/-- DHALT_STEP: a STEP write on a core for a thread (R324). -/
def execDhaltStep (core : Fin 64) (thr : Fin 16) (s : State) : Host.Outcome State Fault Refusal :=
  .next (s.dhaltWrite ((s.modCore core.val fun x => { x with dbg := { x.dbg with sthr := thr.val } }).stepThread core.val thr.val)
    core.val 4 thr.val)

/-- A slot that STEP released stops again with REASON 4; its lanes then drain every open convoy (R324). -/
def State.endStep (s : State) (k : Nat) : State :=
  let sl := s.slot k
  let s := s.setSlot k { sl with st := .stop, prev := sl.st, stopping := !sl.queue.isEmpty && !sl.tr.froz }
  (s.modCore (coreOf k) fun x => { x with dbg := { x.dbg with reason := 4, sthr := k % 16 } }).stopRecord k

/-- Has a stopped slot drained: nothing open after a step, otherwise its convoy done (R323, R324). -/
def State.drained (s : State) (k : Nat) : Bool :=
  let sl := s.slot k
  let d := (s.coreAt (coreOf k)).dbg
  sl.queue.isEmpty || (!sl.begun && !(d.reason == 4 && d.sthr == k % 16))

/-- The lanes stop at the head entry: groups issued behind it are discarded whole (R14, R24, R215). -/
def Slot.recall (sl : Slot) : Slot :=
  { sl with queue := match sl.queue with
    | e :: t => { e with ahead := 0 } :: t.map fun e => { e with ahead := 0, leave := 0 }
    | [] => [] }

/-- The lanes of a stopped slot begin nothing more: groups issued behind the head are discarded whole, and a back-flow is settled
(R14, R255, R323). -/
def Slot.endDrain (sl : Slot) : Slot :=
  let x := { sl.recall with st := sl.prev }.settle
  { x with st := .stop, prev := x.st, stopping := false }

/-- The slot-state code of TSTAT (R86). -/
def SlotState.code : SlotState → Nat
  | .vacant => 0 | .run => 1 | .wait => 2 | .drain => 3 | .stop => 4

/-- TSTAT of a slot (R86): CAUSE in WAIT and DRAIN, and 0 in every other state, in STOP too, whatever the slice waited for
[DESIGN CHOICE, log 113]. -/
def Slot.tstat (sl : Slot) : X64 :=
  BitVec.ofNat 64 ((if sl.st = .wait ∨ sl.st = .drain then sl.cause else 0) % 16 * 256 + sl.st.code)

/-- TRACE_SAMPLE: one SAMPLE record for each bound slot of a core, when SPER asks for samples (R325, R326). -/
def execTraceSample (core : Fin 64) (s : State) : Host.Outcome State Fault Refusal :=
  if fld (s.coreAt core.val).dbg.trctl 32 16 = 0 then .next s
  else
    .next ((List.range 16).foldl (fun s t =>
      let k := 16 * core.val + t
      let sl := s.slot k
      if sl.st = .vacant then s else s.trace k 6 sl.pc sl.tstat sl.landed) s)

end Sys2Proof.Machine
end

