-- ==== Sys2Proof/Machine/Windows.lean ====
section
/-! DEFINITION. Writes of the windows of the service space (R331): the cluster windows (R319, R320), and what a partial write leaves of
a register. -/

namespace Sys2Proof.Machine

/-! ### Writes of the windows (R331) -/

/-- Write a 64-bit register of a cluster window as the system cores do (R319, R320). -/
def State.setWindowReg (s : State) (n off : Nat) (v : X64) : State :=
  if 0x100 ≤ off ∧ off < 0x300 then s.setDebugReg (4 * n + (off - 0x100) / 0x80) ((off - 0x100) % 0x80) v
  else s.setClusterReg n off v

/-- The register at address r after a write of bytes from pa on, of which it keeps the old bytes it does not cover; `old` is
what a register keeps: its value, with a W1C field at 0 (R5). -/
def windowMerge (old : X64) (r pa : Nat) (b : List Byte) : X64 :=
  BitVec.ofNat 64 (ofBytes ((List.range 8).map fun j =>
    if pa ≤ r + j ∧ r + j < pa + b.length then b.getD (r + j - pa) 0 else BitVec.ofNat 8 (old.toNat / 2 ^ (8 * j))))

/-- The registers that n bytes at pa touch, in rising order. -/
def windowRegs (pa n : Nat) : List Nat := (List.range' (pa / 8) ((pa + n + 7) / 8 - pa / 8)).map (8 * ·)

/-- What a partial write leaves in a service register's other bytes: ERPTR.LOST is W1C, UPCTL.GO reads 0 (R5, R334). -/
def Service.kept (v : Service) (off : Nat) : X64 := if off = 8 then v.eridx.setWidth 64 else v.reg off

end Sys2Proof.Machine
end

