-- ==== Sys2Proof/Machine/Access.lean ====
section
/-! DEFINITION. Typed memory accesses of the agents of a thread (R227): local memory, cluster windows (R225, R331) and
REMOTE pages (R216, R301, R309), the rewriting of stale bases (R244), and what a release covers (R230). -/

namespace Sys2Proof.Machine

/-- The scalar agent of slot k. -/
def State.sliceAgent (s : State) (k : Nat) : Agent :=
  { core := coreOf k, owner := 4 * k, pt := (s.slot k).ptroot, priv := (s.slot k).tr.priv, urg := false }
/-- The vector agent of slot k. -/
def State.laneAgent (s : State) (k : Nat) (urg : Bool) : Agent :=
  { core := coreOf k, owner := 4 * k + 1, pt := (s.slot k).ptroot, priv := (s.slot k).tr.priv, urg := urg }
/-- The sequencer acting for slot k: with the privilege of the interrupted program while a handler runs (log 20). -/
def State.seqAgent (s : State) (k : Nat) : Agent :=
  let sl := s.slot k
  { core := coreOf k, owner := 4 * k + 2, pt := sl.ptroot, priv := if sl.tr.inh then sl.tr.ppriv else sl.tr.priv, urg := false }

/-- What an access comes to: done with a result, a fault with its code and address, or still to be waited for. -/
inductive Got (α : Type) where
  | ok (v : α)
  | trap (code : TrapCode) (addr : X64)
  | wait
  deriving DecidableEq, Repr

/-! ### Requests over a link -/

/-- The outstanding request of an agent that covers n bytes at a far address. -/
def State.reqFor (s : State) (owner kind part addr n : Nat) : Option LinkReq :=
  s.reqs.find? fun r =>
    r.owner == owner && r.kind == kind && r.part == part && decide (r.addr ≤ addr) && decide (addr + n ≤ r.addr + r.len)

/-- The result of a covering request for n bytes at an address, once it is there: NOTCARRIED on a READ or WRITE is taken as
LINK-INCOMPLETE [DESIGN CHOICE, log 104] (R309, R311). -/
def reqResult (r : LinkReq) (addr n : Nat) (va : X64) : Got (List Byte) :=
  match r.outcome with
  | .waiting => .wait
  | .ok data => .ok ((data.drop (addr - r.addr)).take n)
  | .notCarried => .trap (if r.kind = 4 then .atomicNotCarried else .linkIncomplete) va
  | .incomplete => .trap .linkIncomplete va

/-- Forget the requests of an agent: its access has completed or is given up. A response that still comes is dropped
(R309). -/
def State.dropReqs (s : State) (owner : Nat) : State := { s with reqs := s.reqs.filter fun r => r.owner != owner }

/-- Is a request of an agent still on its way. -/
def State.reqOpen (s : State) (owner : Nat) : Bool := s.reqs.any fun r => r.owner == owner && r.outcome == .waiting

/-! ### One access at a translated place -/

/-- Does a system agent make the access: the scheduler or the drover, no thread's (R331). -/
def Agent.sys (g : Agent) : Bool := decide (4096 ≤ g.owner)

/-- How a request for n bytes meets a cluster window: PERMISSION where threads never reach, ASLEEP when gated, retry while the
cluster gates or wakes (R225, R318, R320, R331). CPWR answers the system in every state, so that WAKE can be written [DEDUCED,
log 86]. -/
def State.windowDenied (s : State) (g : Agent) (c off n : Nat) (va : X64) : Option (Got Unit) :=
  if !g.sys && (!g.priv || (decide (0x100 < off + n) && decide (off < 0x300))) then some (.trap .permission va)
  else if g.sys && decide (off < 8) then none
  else
    match (s.clusterAt c).st with
    | .running => none
    | .gated => some (.trap .asleep va)
    | .gating => some .wait
    | .waking => some .wait

/-- How a request of n bytes meets the window at a physical address: threads reach the cluster windows alone (R331). -/
def State.serviceDenied (s : State) (g : Agent) (pa n : Nat) (va : X64) : Option (Got Unit) :=
  match placeOf pa with
  | .cluster c off => s.windowDenied g c off n va
  | _ => if g.sys then none else some (.trap .permission va)

/-- The writes of whole registers that a write of some bytes to a window makes, registers of the queue, port and service
windows apart from those of the clusters (R5, R331). -/
def State.windowWrites (s : State) (pa : Nat) (b : List Byte) : List (Nat × X64) :=
  (windowRegs pa b.length).map fun r =>
    (r, windowMerge (match placeOf r with | .service off => s.svc.kept off | _ => s.registerRead r) r pa b)

/-- Write bytes to a window: a cluster's registers change at once; the writes of the others are the next moves, which nothing
precedes (R331) [log 86]. -/
def State.windowWrite (s : State) (pa : Nat) (b : List Byte) : State :=
  match placeOf pa with
  | .cluster .. =>
    (s.windowWrites pa b).foldl (fun s w => match placeOf w.1 with
      | .cluster n off => s.setWindowReg n off w.2
      | _ => s) s
  | _ => { s with agenda := (s.windowWrites pa b).map (fun w => Move.register (BitVec.ofNat 52 w.1) w.2) ++ s.agenda }

/-- Store bytes in host memory (R224, R280). -/
def State.hostWrite (s : State) (pa : Nat) (b : List Byte) : State :=
  { s with hostMem := b.zipIdx.foldl (fun m x => Memory.write m (pa + x.2) x.1) s.hostMem }
/-- Bytes of host memory. -/
def State.hostRead (s : State) (pa n : Nat) : List Byte := (List.range n).map fun i => Memory.read s.hostMem (s.home (pa + i))

/-- Read n bytes at a translated place; the scalar agents see dirty L1 bytes (R31). -/
def State.readAt (s : State) (g : Agent) (scalar : Bool) (t : Target) (n : Nat) (va : X64) : Res (State × Got (List Byte)) :=
  match t with
  | .far port part addr rcls =>
    match s.reqFor g.owner 2 part addr n with
    | some r => .ok (s, reqResult r addr n va)
    | none => .ok (s.sendReq g port part addr rcls 2 n .none [], .wait)
  | .held => .ok (s, .wait)
  | .loc pa =>
    match placeOf (s.home pa) with
    | .hbm =>
      if s.poisoned pa then .ok (s, .trap .poison va)
      else .ok (s, .ok (if scalar then s.readScalar pa n else s.readHome pa n))
    | .host => .ok (s, .ok (s.hostRead pa n))
    | .hole => .error .noSuchPhysicalAddress
    | _ =>
      match s.serviceDenied g pa n va with
      | some (.trap code a) => .ok (s, .trap code a)
      | some _ => .ok (s, .wait)
      | none => .ok (s, .ok (windowBytes s.registerRead pa n))

/-- Store bytes at a translated place: a vector store keeps dirty scalar bytes (R232), a system agent's store does not. On a moving page
the place is the new one (R242). -/
def State.writeAt (s : State) (g : Agent) (scalar : Bool) (t : Target) (b : List Byte) (va : X64) : Res (State × Got Unit) :=
  match t with
  | .far port part addr rcls =>
    match s.reqFor g.owner 1 part addr b.length with
    | some r =>
      match reqResult r addr b.length va with
      | .ok _ => .ok (s, .ok ())
      | .trap code a => .ok (s, .trap code a)
      | .wait => .ok (s, .wait)
    | none => .ok (s.sendReq g port part addr rcls 1 b.length .none b, .wait)
  | .held => .ok (s, .wait)
  | .loc pa =>
    let w := s.forWrite pa
    match placeOf w.2 with
    | .hbm =>
      .ok (if scalar then w.1.writeScalar g.core w.2 b else if g.sys then w.1.writeOver w.2 b else w.1.writeHome w.2 b, .ok ())
    | .host => .ok (w.1.hostWrite w.2 b, .ok ())
    | .hole => .error .noSuchPhysicalAddress
    | _ =>
      match s.serviceDenied g pa b.length va with
      | some e => .ok (s, e)
      | none => .ok (s.windowWrite pa b, .ok ())

/-- Before a store of the slice that passes the data L1s, older dirty bytes of its line go to their home slice, as the scalar agents are
coherent (R31). -/
def State.cleanFor (s : State) (t : Target) : State :=
  match t with
  | .loc pa => if placeOf pa = .hbm then s.lockLine pa else s
  | .far .. => s
  | .held => s

/-- May an access of n bytes perform at a translated place now: a read of a poisoned line traps (R339), a window may deny it or
let it wait (R225), a drained stack holds it (R337). -/
def State.admits (s : State) (g : Agent) (read : Bool) (t : Target) (n : Nat) (va : X64) : Res (Got Unit) :=
  match t with
  | .far .. => .ok (.ok ())
  | .held => .ok .wait
  | .loc pa =>
    match placeOf (if read then s.home pa else s.lastIn s.fwds.length pa) with
    | .hbm => .ok (if read && s.poisoned pa then .trap .poison va else .ok ())
    | .host => .ok (.ok ())
    | .hole => .error .noSuchPhysicalAddress
    | _ => .ok ((s.serviceDenied g pa n va).getD (.ok ()))

/-- An indivisible update of n bytes at a translated place: the old value, after `f` has given the new one, or left it
(R222, R223). Over a link it travels as one ATOMIC packet (R311), and to the host as a PCI Express AtomicOp (R224, R332). -/
def State.updateAt (s : State) (g : Agent) (t : Target) (n : Nat) (f : Nat → Option Nat) (a : AtomArgs) (data : List Byte)
    (va : X64) : Res (State × Got Nat) :=
  let upd (s : State) (old : List Byte) (store : State → List Byte → State) : Res (State × Got Nat) :=
    .ok (match f (ofBytes old) with | some v => store s (toBytes n v) | none => s, .ok (ofBytes old))
  match t with
  | .far port part addr rcls =>
    match s.reqFor g.owner 4 part addr n with
    | some r =>
      match reqResult r addr n va with
      | .ok b => .ok (s, .ok (ofBytes b))
      | .trap code x => .ok (s, .trap code x)
      | .wait => .ok (s, .wait)
    | none => .ok (s.sendReq g port part addr rcls 4 n a data, .wait)
  | .held => .ok (s, .wait)
  | .loc pa =>
    let w := s.forWrite pa
    match placeOf w.2 with
    | .hbm =>
      if s.poisoned pa then .ok (s, .trap .poison va)
      else
        let s := w.1.lockLine w.2
        upd s (s.readHome w.2 n) fun s b => s.writeHome w.2 b
    | .host => upd w.1 (w.1.hostRead w.2 n) fun s b => s.hostWrite w.2 b
    | .hole => .error .noSuchPhysicalAddress
    | _ =>
      match s.serviceDenied g pa n va with
      | some (.trap code x) => .ok (s, .trap code x)
      | some _ => .ok (s, .wait)
      | none => upd s (windowBytes s.registerRead pa n) fun s b => s.windowWrite pa b

/-- A scalar access of slot k of at most 128 bytes has performed: its pieces reach the port when it missed, and its final address is
matched against the watchpoints (R240, R264, R321). A hit is judged in the state before the access. -/
def State.touch (s : State) (k : Nat) (g : Agent) (isR isW : Bool) (va : X64) (n : Nat) (before : State := s) : State :=
  match s.translate g.core g.pt g.priv (if isW then .write else .read) 1 va with
  | .ok (_, .ok t fva _ _) => (s.scalarPieces k n (before.l1Hit (coreOf k) t n)).watch k isR isW fva.toNat n
  | _ => s
/-- The same for n bytes, 128 at a time. -/
def State.touchRange (s : State) (k : Nat) (g : Agent) (isR isW : Bool) (va : X64) (n : Nat) (before : State := s) : State :=
  (List.range ((n + 127) / 128)).foldl
    (fun s i => s.touch k g isR isW (va + BitVec.ofNat 64 (128 * i)) (min 128 (n - 128 * i)) before) s

/-! ### Stale bases -/

/-- Is a value an address in the page that an access followed first (R244). -/
def stale (page : Nat) (v : X64) : Bool := v.toNat / 65536 == page

/-- Does an entry's scalar value hold an address (R62, R244). -/
def Entry.addressed (e : Entry) : Bool :=
  match e.ins with
  | some (.ldf ..) => true
  | some (.stf ..) => true
  | some (.ldfx ..) => true
  | some (.stfx ..) => true
  | some (.stfm ..) => true
  | some (.scaddInt ..) => true
  | some (.scaddFlt ..) => true
  | _ => false

/-- Is an entry a far load (R214). -/
def Entry.farLoad (e : Entry) : Bool :=
  match e.ins with
  | some (.ldf ..) => true
  | some (.ldfx ..) => true
  | _ => false

/-- The writes of an element or segment at a place delta bytes further. -/
def shiftWrites (delta : X64) (u : List (Nat × List Byte)) : List (Nat × List Byte) :=
  u.map fun p => ((BitVec.ofNat 64 p.1 + delta).toNat, p.2)
/-- What a writeback still owes lies where its register's BASE now has it (R184, R244). -/
def Writeback.shift (w : Writeback) (delta : X64) : Writeback :=
  { w with elems := w.elems.map (shiftWrites delta), lost := w.lost.map (shiftWrites delta) }

/-- Rewrite the stale copies of slot k after an access that followed a mark: its base register, the scalar values of its
queue and the BASE of its live registers, each only while it lies in the page followed first (R201, R244); the base of an access of
the lanes, `late`, at the slice's next instruction boundary. -/
def State.rebase (s : State) (k : Nat) (page : Option Nat) (delta : X64) (xa : Option Nat) (late : Bool) : State :=
  match page with
  | none => s
  | some page =>
    s.modSlot k fun sl =>
      let sl :=
        match xa with
        | some a =>
          if late && sl.busy then { sl with rebases := sl.rebases ++ [(a, page, delta)] }
          else if stale page (sl.rx a) then sl.wx a (sl.rx a + delta)
          else sl
        | none => sl
      { sl with
        queue := sl.queue.map fun e => if e.addressed && stale page e.scalar then { e with scalar := e.scalar + delta } else e
        q := sl.q.map fun r =>
          if r.st = .live ∧ stale page r.desc.base = true then
            { r with
              desc := { r.desc with base := r.desc.base + delta }
              wbs := if fld r.desc.flags 16 3 = 7 then r.wbs.map fun w => w.shift delta else r.wbs }
          else r }

/-- An access that has only waited has followed nothing yet: the stale copies of slot k and RLATE are as they were, and its next
attempt follows its marks anew (R243, R244, R247). -/
def State.unfollow (t s : State) (k : Nat) : State :=
  (t.setSlot k (s.slot k)).modCore (coreOf k) fun c => { c with rlate := (s.coreAt (coreOf k)).rlate }

/-! ### Releases -/

/-- Does an entry reach the loft: a resident access or a resident MMA (R227). -/
def Entry.loft (e : Entry) : Bool :=
  match e.ins with
  | some (.ldr ..) => true
  | some (.str ..) => true
  | some (.ldrx ..) => true
  | some (.strx ..) => true
  | some (.mmaAccResident ..) => true
  | some (.mmaZeroResident ..) => true
  | _ => false

/-- Is an entry a vector access, far or resident, as a release covers it (R227, R230). -/
def Entry.memory (e : Entry) : Bool := (e.addressed || e.loft) && e.p

/-- Is the head entry a far store or an atomic whose issued accesses must be acknowledged first (R215, R220). -/
def Slot.headStores (sl : Slot) : Bool :=
  match sl.queue with
  | e :: _ => (match e.ins with
    | some (.stf ..) => true
    | some (.stfx ..) => true
    | some (.scaddInt ..) => true
    | some (.scaddFlt ..) => true
    | _ => false)
  | [] => false

/-- Is the head entry a far load. -/
def Slot.headLoads (sl : Slot) : Bool :=
  match sl.queue with
  | e :: _ => (match e.ins with
    | some (.ldf ..) => true
    | some (.ldfx ..) => true
    | _ => false)
  | [] => false

/-- Did a request not perform. -/
def LinkReq.lost (r : LinkReq) : Bool :=
  match r.outcome with
  | .incomplete => true
  | .notCarried => true
  | _ => false

/-- Must a stop wait for the head entry of slot k: a far store has accesses that were issued and not yet settled, or an issued group of
a far load has met a fault (R215). -/
def State.storesOpen (s : State) (k : Nat) : Bool :=
  ((s.slot k).headStores && s.reqs.any fun r => r.owner == 4 * k + 1) ||
    ((s.slot k).headLoads && s.reqs.any fun r => r.owner == 4 * k + 1 && r.lost)

/-- Slot k has stopped at its drain limit: DRAIN reads 0, and the lanes still wait for what a far store has issued and for a fault that a
far load has met; what else a far load has issued is discarded whole (R215, R323). -/
def State.cutDrain (s : State) (k : Nat) : State :=
  let s := if s.storesOpen k then s else s.dropReqs (4 * k + 1)
  (s.setSlot k { (s.slot k).endDrain with closing := true }).modCore (coreOf k) fun x => { x with dbg := { x.dbg with drain := false } }

/-- CONVOY_DRAIN_LIMIT: a slot that has not drained stops at the next element-group boundary, and DRAIN reads 0 (R323); a
step whose instruction stalls ends here with the instruction unexecuted (R324). -/
def execConvoyDrainLimit (k : Fin 1024) (s : State) : Host.Outcome State Fault Refusal :=
  let sl := s.slot k.val
  if !s.halted then .next s
  else if sl.st = .stop then .next (if sl.stopping then s.cutDrain k.val else s)
  else if sl.st = .vacant then .next s
  else .next ((s.endStep k.val).cutDrain k.val)

/-- Has a writeback performed as far as it can while a handler runs: what completed LINK-INCOMPLETE counts as performed (R310). -/
def Writeback.done (w : Writeback) : Bool := w.elems.isEmpty && !w.hard

/-- Has every writeback of slot k that its entries have passed performed: nothing left to release, no write outstanding
(R184, R230); while a handler runs, after whose ERET they are sent again, those that completed LINK-INCOMPLETE count (R186, R310). -/
def Slot.writtenBack (sl : Slot) : Bool :=
  sl.q.toList.all fun r => (r.wbs.all fun w => sl.tr.inh && w.done) && (r.gens.take (r.past + 1)).all fun g => g.released

/-! ### Lane faults -/

/-- May a lane fault be decided now: the slice is at an instruction boundary, with no scalar request of its own unanswered or
not yet consumed (R103, R222). -/
def State.laneFree (s : State) (k : Nat) : Bool := !s.reqs.any fun r => r.owner == 4 * k

/-- A lane fault is decided (R85, R103, R254): the lanes begin nothing more, a back-flow is settled (R255), an older slice
trap gives way (R77), and the slice drains into the trap. In a halt the trap is taken after the resume (R323); a pre-emption
stop gives way to it (R255). -/
def State.laneTrap (s : State) (k : Nat) (code : TrapCode) (kind : Nat) (epc tval : X64) : State :=
  let s := (s.unwait k).dropReqs (4 * k + 1)
  let sl := (s.slot k).recall
  let trap (x : Slot) : PendTrap := { code := code, kind := kind, lane := true, epc := epc, tval := tval, rpc := x.pc }
  if sl.st = .stop then
    let x := { sl with st := sl.prev }.settle
    s.setSlot k { x with
      st := if s.halted then .stop else .drain, prev := .drain, cause := 6, pend := some (trap x), stopping := false, closing := false }
  else
    let x := sl.settle
    s.setSlot k { x with st := .drain, cause := 6, pend := some (trap x) }

/-- May a fault of slot k be taken at the lanes' next boundary: no handler runs, nothing is frozen, stopped or pending. -/
def Slot.takesLaneTrap (sl : Slot) : Bool := !sl.tr.inh && !sl.tr.froz && sl.st != .stop && sl.st != .vacant &&
  sl.pend.all fun p => !p.lane

end Sys2Proof.Machine
end

