-- ==== Sys2Proof/Machine/Flags.lean ====
section
/-! DEFINITION. The sticky flags (R47, R48) and the rounding mode that a qualifier selects (R20, R64, R131). -/

namespace Sys2Proof.Machine

/-- The flag word of R48. -/
def FlagWord.bits (f : FlagWord) : Nat :=
  b2n f.nx + 2 * b2n f.uf + 4 * b2n f.of + 8 * b2n f.dz + 16 * b2n f.nv + 32 * b2n f.sat

/-- The flags of a flag word. -/
def FlagWord.ofBits (x : X64) : FlagWord :=
  { nx := bitAt x 0, uf := bitAt x 1, of := bitAt x 2, dz := bitAt x 3, nv := bitAt x 4, sat := bitAt x 5 }

/-- RM code of a rounding mode (R20). -/
def RMode.code : RMode → Nat
  | .rne => 0 | .rtz => 1 | .rdn => 2 | .rup => 3 | .rsr => 4
/-- The rounding mode of an RM code (R20). -/
def RMode.ofCode : Nat → RMode
  | 0 => .rne | 1 => .rtz | 2 => .rdn | 3 => .rup | _ => .rsr

/-- The mode of a vector float instruction (R20, R64): with SRE = 0, RSR rounds as RNE. -/
def Lane.mode (l : Lane) (q : Nat) : RMode :=
  match q with
  | 0 => if l.rm = .rsr ∧ l.sre = false then .rne else l.rm
  | 1 => .rne
  | 2 => .rtz
  | _ => if l.sre then .rsr else .rne

/-- The mode of an sc form (R64). -/
def scMode (q : Nat) : RMode := if q = 2 then .rtz else .rne

/-- What a rounding step of the lanes starts from: the mode, the generator and the flags. -/
def Lane.env (l : Lane) (m : RMode) : REnv := { mode := m, seed := l.srseed, flags := l.flags }
/-- Keep what a rounding step leaves: the generator and the flags. -/
def Lane.keep (l : Lane) (e : REnv) : Lane := { l with srseed := e.seed, flags := e.flags }
/-- What a rounding step of the slice starts from: no generator, and flags that are discarded (R64, R110). -/
def scEnv (q : Nat) : REnv := { mode := scMode q, seed := 1, flags := FlagWord.reset }

/-- Raise SAT and DZ as an integer operation does (R111, R112). -/
def Lane.raiseInt (l : Lane) (sat dz : Bool) : Lane :=
  { l with flags := { l.flags with sat := l.flags.sat || sat, dz := l.flags.dz || dz } }

end Sys2Proof.Machine
end

