-- ==== Sys2Proof/Machine/Operands.lean ====
section
/-! DEFINITION. The operand forms of the lanes: elements of vector registers, register groups, masks, accumulators and
codebooks, operand B of every form, and the ways in which an entry runs (R13 to R16, R65, R105 to R108, R132). -/

namespace Sys2Proof.Machine

/-- Replace w bits from bit lo on. -/
def setBits {n : Nat} (x : BitVec n) (lo w v : Nat) : BitVec n :=
  BitVec.ofNat n (x.toNat - x.toNat / 2 ^ lo % 2 ^ w * 2 ^ lo + v % 2 ^ w * 2 ^ lo)

/-- What an entry sees in the lanes: the lane state when its element group begins, VLCAP.CAP, the launch's AGRP and its
scalar value. -/
structure LEnv where
  l : Lane
  cap : Nat
  agrp : Nat
  x : X64
  deriving DecidableEq, Repr

/-- Elements of width w in one register (R13). -/
def perReg (cap w : Nat) : Nat := 512 * 2 ^ cap / w
/-- Elements of type t in one register. -/
def LEnv.count (n : LEnv) (t : Ty) : Nat := perReg n.cap t.bits

/-! ### Vector registers -/

/-- Element e of width w of v register r, as bits (R3). -/
def Lane.rd (l : Lane) (r w e : Nat) : Nat := (vat l.v r VReg.reset).data.toNat / 2 ^ (w * e) % 2 ^ w
/-- The side byte of 64-bit lane j of v register r. -/
def Lane.side (l : Lane) (r j : Nat) : Nat := (vat l.v r VReg.reset).side.toNat / 2 ^ (8 * j) % 256
/-- Mark a write to v register r that reaches bit b (R23, R258). -/
def Lane.touchV (l : Lane) (r b : Nat) : Lane :=
  { l with vdirty := setBits l.vdirty r 1 1, vext := if l.vext.toNat < b / 512 + 1 then BitVec.ofNat 6 (b / 512 + 1) else l.vext }
/-- Set the side byte of 64-bit lane j of v register r. -/
def Lane.setSide (l : Lane) (r j s : Nat) : Lane :=
  let v := vat l.v r VReg.reset
  { l with v := l.v.setIfInBounds r { v with side := setBits v.side (8 * j) 8 s } }
/-- Set the bits of element e of width w of v register r. -/
def Lane.setData (l : Lane) (r w e x : Nat) : Lane :=
  let v := vat l.v r VReg.reset
  ({ l with v := l.v.setIfInBounds r { v with data := setBits v.data (w * e) w x } }).touchV r (w * e + w - 1)
/-- Write an element of an unscaled type: the side byte of its lane becomes 0x00 (R16). -/
def Lane.wr (l : Lane) (r w e x : Nat) : Lane := (l.setData r w e x).setSide r (w * e / 64) 0
/-- The lane that holds the scale of the block of element e (R16). -/
def scaleLane (t : Ty) (e : Nat) : Nat := if t == .c4 then e / 16 else 2 * (e / 16)
/-- The scale of the block of element e (R16). -/
def Lane.scaleOf (l : Lane) (t : Ty) (r e : Nat) : Nat := l.side r (scaleLane t e)
/-- Set the scale of the block of element e: an F8 block has it in both its lanes (R16). -/
def Lane.setScale (l : Lane) (t : Ty) (r e s : Nat) : Lane :=
  if t == .c4 then l.setSide r (e / 16) s else (l.setSide r (2 * (e / 16)) s).setSide r (2 * (e / 16) + 1) s

/-- Element e of a register group that starts at r (R108). -/
def LEnv.rdG (n : LEnv) (r w e : Nat) : Nat := n.l.rd (r + e / perReg n.cap w) w (e % perReg n.cap w)
/-- Write element e of a register group of an unscaled type (R108). -/
def Lane.wrG (l : Lane) (cap r w e x : Nat) : Lane := l.wr (r + e / perReg cap w) w (e % perReg cap w) x

/-- Codebook k. -/
def Lane.book (l : Lane) (k : Nat) : Vector (BitVec 16) 16 := vat l.b k (Vector.replicate 16 0)

/-- The value of element e of type t, scales and codebook applied (R36, R40, R41). -/
def Lane.val (l : Lane) (t : Ty) (k r e : Nat) : FVal :=
  if t == .c4 then decodeC4 (l.book k) (l.scaleOf t r e) (l.rd r 4 e)
  else if t.isF8 then applyScale (l.scaleOf t r e) (decodeFloat t (l.rd r 8 e))
  else decodeFloat t (l.rd r t.bits e)

/-! ### Masks and accumulators -/

/-- Bit p of mask register i. -/
def Lane.maskBit (l : Lane) (i p : Nat) : Bool := (vat l.m i 0).getLsbD p
/-- Is element e governed active by the mask that VMSEL selects (R15). -/
def Lane.gov (l : Lane) (e : Nat) : Bool := l.maskBit l.msel.toNat e
/-- Set bit p of mask register i. -/
def Lane.setMask (l : Lane) (i p : Nat) (v : Bool) : Lane :=
  { l with m := l.m.setIfInBounds i (setBits (vat l.m i 0) p 1 (b2n v)) }

/-- Accumulator element e of group g in the layout of width w (R116, R155). -/
def LEnv.rdA (n : LEnv) (g w e : Nat) : Nat :=
  (vat n.l.a (8 * g + e / perReg n.cap w) 0).toNat / 2 ^ (w * (e % perReg n.cap w)) % 2 ^ w
/-- Write an accumulator element: ADIRTY and VEXT follow (R23, R258). -/
def Lane.wrA (l : Lane) (cap g w e x : Nat) : Lane :=
  let i := 8 * g + e / perReg cap w
  let lo := w * (e % perReg cap w)
  { l with
    a := l.a.setIfInBounds i (setBits (vat l.a i 0) lo w x)
    vext := if l.vext.toNat < (lo + w - 1) / 512 + 1 then BitVec.ofNat 6 ((lo + w - 1) / 512 + 1) else l.vext }
/-- Set ADIRTY for group g. -/
def Lane.touchA (l : Lane) (g : Nat) : Lane := { l with adirty := setBits l.adirty g 1 1 }

/-! ### Operand B -/

/-- The sources of operand B (R61, R106). -/
inductive BOp where
  | reg (b : Nat) (c : XMod)
  | scal
  | imm (i : BitVec 9) (logical : Bool)
  deriving DecidableEq, Repr

/-- The element a cross-lane modifier reads, inside the element group of g elements (R65). -/
def crossIdx (c : XMod) (g e : Nat) : Option Nat :=
  match c with
  | .none => some e
  | .bc => some (e / g * g)
  | .up => if e % g = 0 then none else some (e - 1)
  | .dn => if (e + 1) % g = 0 then none else some (e + 1)

/-- The operand that an immediate makes (R52). -/
def immBits (t : Ty) (logical : Bool) (i : BitVec 9) : Nat :=
  if t.isInt then
    if t.isSigned && !logical then wrapTo t.bits (toSigned 9 i.toNat) else i.toNat % 2 ^ t.bits
  else smallFloat t i.toNat

/-- Operand B of element e, as bits of type t; g is the element group (R65, R106). -/
def LEnv.bBits (n : LEnv) (t : Ty) (g : Nat) (o : BOp) (e : Nat) : Nat :=
  match o with
  | .reg b c =>
    match crossIdx c g e with
    | some j => n.l.rd b t.bits j
    | none => 0
  | .scal => n.x.toNat % 2 ^ t.bits
  | .imm i logical => immBits t logical i

/-- Operand B of element e as a value: an F8 scalar carries scale 0x7F (R106). -/
def LEnv.bVal (n : LEnv) (t : Ty) (g : Nat) (o : BOp) (e : Nat) : FVal :=
  match o with
  | .reg b _ => if t.isBlock then n.l.val t 0 b e else decodeFloat t (n.bBits t g o e)
  | _ => decodeFloat t (n.bBits t g o e)

/-! ### Ways to run -/

/-- What an entry does in the lanes: trap before any element; run element groups of `group` elements from VSTART to `stop`,
each from the lanes as they stand; complete at once; or complete with a value for the slice. -/
inductive LaneAct where
  | illegal
  | elems (group stop : Nat) (run : Nat → Nat → Lane)
  | whole (l : Lane)
  | back (v : X64) (l : Lane)

/-- A writer of accumulator group g sets its ADIRTY bit, whatever elements are active (R116, R156). -/
def LaneAct.dirties (a : LaneAct) (g : Nat) : LaneAct :=
  match a with
  | .elems k stop run => .elems k stop fun lo hi => (run lo hi).touchA g
  | a => a

/-- Run `f` over the active elements of [lo, hi), in increasing order, from the lanes as they stand (R105). -/
def LEnv.overActive (n : LEnv) (f : Lane → Nat → Lane) (lo hi : Nat) : Lane :=
  (List.range' lo (hi - lo)).foldl (fun acc e => if n.l.gov e then f acc e else acc) n.l

/-- The same over every element of [lo, hi), whatever its mask bit. -/
def LEnv.overAll (n : LEnv) (f : Lane → Nat → Lane) (lo hi : Nat) : Lane :=
  (List.range' lo (hi - lo)).foldl f n.l

/-- An element-wise entry: a VL above an operand's element count is an illegal operand (R105, R107). -/
def LEnv.elemwise (n : LEnv) (counts : List Nat) (g : Nat) (f : Lane → Nat → Lane) : LaneAct :=
  if counts.all (fun c => decide (n.l.vl.toNat ≤ c)) then .elems g n.l.vl.toNat (n.overActive f) else .illegal

/-- A whole-register entry: it requires VSTART = 0 and a VL within its operands (R132). -/
def LEnv.wholeReg (n : LEnv) (counts : List Nat) (l : Lane) : LaneAct :=
  if n.l.vstart = 0 ∧ counts.all (fun c => decide (n.l.vl.toNat ≤ c)) then .whole l else .illegal

/-- Elements of an element group of type t (R14). -/
def groupOf (w : Nat) : Nat := 512 / w

/-- The active positions of [0, VL), in increasing order. -/
def LEnv.actives (n : LEnv) : List Nat := (List.range n.l.vl.toNat).filter n.l.gov

end Sys2Proof.Machine
end

