-- ==== Sys2Proof/Machine/Uses.lean ====
section
/-! DEFINITION. Which registers each entry reads and writes, for presence, convoys and FEMASK (R25, R28, R156, R288). A
number below 32 is a v register, 100 + i is m_i, 200 + g accumulator group g, 300 + k codebook b_k. -/

namespace Sys2Proof

/-- Registers that an entry names and reads. The governing mask, which every masked instruction reads (R132), and the codebook
of a resident set are `Slot.readsOf`'s. -/
def Instr.reads : Instr → List Nat
  | .addVv _ a b _ _ _ => [a.val, b.val]
  | .addVs _ a _ _ _ => [a.val]
  | .addVi _ a _ _ => [a.val]
  | .subVv _ a b _ _ _ => [a.val, b.val]
  | .subVs _ a _ _ _ => [a.val]
  | .subVi _ a _ _ => [a.val]
  | .mulVv _ a b _ _ _ => [a.val, b.val]
  | .mulVs _ a _ _ _ => [a.val]
  | .mulVi _ a _ _ => [a.val]
  | .mulhVv _ a b _ _ => [a.val, b.val]
  | .mulhVs _ a _ _ => [a.val]
  | .mulhVi _ a _ _ => [a.val]
  | .minVv _ a b _ _ => [a.val, b.val]
  | .minVs _ a _ _ => [a.val]
  | .minVi _ a _ _ => [a.val]
  | .maxVv _ a b _ _ => [a.val, b.val]
  | .maxVs _ a _ _ => [a.val]
  | .maxVi _ a _ _ => [a.val]
  | .andVv _ a b _ _ => [a.val, b.val]
  | .andVs _ a _ _ => [a.val]
  | .andVi _ a _ _ => [a.val]
  | .orVv _ a b _ _ => [a.val, b.val]
  | .orVs _ a _ _ => [a.val]
  | .orVi _ a _ _ => [a.val]
  | .xorVv _ a b _ _ => [a.val, b.val]
  | .xorVs _ a _ _ => [a.val]
  | .xorVi _ a _ _ => [a.val]
  | .shlVv _ a b _ _ _ => [a.val, b.val]
  | .shlVs _ a _ _ _ => [a.val]
  | .shlVi _ a _ _ => [a.val]
  | .shrVv _ a b _ _ => [a.val, b.val]
  | .shrVs _ a _ _ => [a.val]
  | .shrVi _ a _ _ => [a.val]
  | .shraVv _ a b _ _ => [a.val, b.val]
  | .shraVs _ a _ _ => [a.val]
  | .shraVi _ a _ _ => [a.val]
  | .maddVv d a b _ _ _ => [a.val, b.val, d.val]
  | .maddVs d a _ _ _ => [a.val, d.val]
  | .maddVi d a _ _ => [a.val, d.val]
  | .divVv _ a b _ _ _ => [a.val, b.val]
  | .divVs _ a _ _ _ => [a.val]
  | .remVv _ a b _ _ => [a.val, b.val]
  | .remVs _ a _ _ => [a.val]
  | .rshrVv _ a b _ _ => [a.val, b.val]
  | .rshrVs _ a _ _ => [a.val]
  | .rshrVi _ a _ _ => [a.val]
  | .andnVv _ a b _ _ => [a.val, b.val]
  | .andnVs _ a _ _ => [a.val]
  | .andnVi _ a _ _ => [a.val]
  | .clzVv _ a _ => [a.val]
  | .popcVv _ a _ => [a.val]
  | .pickVv _ a b _ _ => [a.val, b.val]
  | .pickVs _ a _ _ => [a.val]
  | .pickVi _ a _ _ => [a.val]
  | .wmulVv _ a b _ _ => [a.val, b.val]
  | .wmacVv d a b _ _ _ => [a.val, b.val, 200 + d.val]
  | .wmacVs d a _ _ _ => [a.val, 200 + d.val]
  | .nrshrVv _ a b _ _ => [200 + a.val, b.val]
  | .nrshrVs _ a _ _ => [200 + a.val]
  | .nrshrVi _ a _ _ => [200 + a.val]
  | .absVv _ a _ _ => [a.val]
  | .faddVv _ a b _ _ _ => [a.val, b.val]
  | .faddVs _ a _ _ _ => [a.val]
  | .faddVi _ a _ _ => [a.val]
  | .fsubVv _ a b _ _ _ => [a.val, b.val]
  | .fsubVs _ a _ _ _ => [a.val]
  | .fsubVi _ a _ _ => [a.val]
  | .fmulVv _ a b _ _ _ => [a.val, b.val]
  | .fmulVs _ a _ _ _ => [a.val]
  | .fmulVi _ a _ _ => [a.val]
  | .fmaVv d a b _ _ _ => [a.val, b.val, d.val]
  | .fmaVs d a _ _ _ => [a.val, d.val]
  | .fmaVi d a _ _ => [a.val, d.val]
  | .fnmsVv d a b _ _ _ => [a.val, b.val, d.val]
  | .fnmsVs d a _ _ _ => [a.val, d.val]
  | .fnmsVi d a _ _ => [a.val, d.val]
  | .fnmaVv d a b _ _ _ => [a.val, b.val, d.val]
  | .fnmaVs d a _ _ _ => [a.val, d.val]
  | .fnmaVi d a _ _ => [a.val, d.val]
  | .fminVv _ a b _ _ => [a.val, b.val]
  | .fminVs _ a _ _ => [a.val]
  | .fminVi _ a _ _ => [a.val]
  | .fmaxVv _ a b _ _ => [a.val, b.val]
  | .fmaxVs _ a _ _ => [a.val]
  | .fmaxVi _ a _ _ => [a.val]
  | .fdivVv _ a b _ _ _ => [a.val, b.val]
  | .fsqrtVv _ a _ _ => [a.val]
  | .frcpVv _ a _ _ => [a.val]
  | .frsqVv _ a _ _ => [a.val]
  | .fscaleVv _ a b _ _ _ => [a.val, b.val]
  | .fscaleVs _ a _ _ _ => [a.val]
  | .fscaleVi _ a _ _ => [a.val]
  | .frintVv _ a _ _ => [a.val]
  | .fclassVv _ a _ => [a.val]
  | .fsgnAbs _ a _ => [a.val]
  | .fsgnNeg _ a _ => [a.val]
  | .fsgnCopy _ a b _ => [a.val, b.val]
  | .cvtVv _ a s _ m => [a.val] ++ (if s == .c4 then [300 + m.val % 8] else [])
  | .cvts _ a s t m => List.range' a.val (s.bits / t.bits) ++ (if t == .c4 then [300 + m.val % 8] else [])
  | .cvtw _ a s _ m => [a.val] ++ (if s == .c4 then [300 + m.val % 8] else [])
  | .scld _ a _ t m => [a.val] ++ (if t == .c4 then [300 + m.val % 8] else [])
  | .cbld _ a => [a.val]
  | .cmpEqVv _ a b _ _ => [a.val, b.val]
  | .cmpEqVs _ a _ _ => [a.val]
  | .cmpEqVi _ a _ _ => [a.val]
  | .cmpNeVv _ a b _ _ => [a.val, b.val]
  | .cmpNeVs _ a _ _ => [a.val]
  | .cmpNeVi _ a _ _ => [a.val]
  | .cmpLtVv _ a b _ _ => [a.val, b.val]
  | .cmpLtVs _ a _ _ => [a.val]
  | .cmpLtVi _ a _ _ => [a.val]
  | .cmpLeVv _ a b _ _ => [a.val, b.val]
  | .cmpLeVs _ a _ _ => [a.val]
  | .cmpLeVi _ a _ _ => [a.val]
  | .fcmpEqVv _ a b _ _ => [a.val, b.val]
  | .fcmpEqVs _ a _ _ => [a.val]
  | .fcmpEqVi _ a _ _ => [a.val]
  | .fcmpLtVv _ a b _ _ => [a.val, b.val]
  | .fcmpLtVs _ a _ _ => [a.val]
  | .fcmpLtVi _ a _ _ => [a.val]
  | .fcmpLeVv _ a b _ _ => [a.val, b.val]
  | .fcmpLeVs _ a _ _ => [a.val]
  | .fcmpLeVi _ a _ _ => [a.val]
  | .fcmpUnVv _ a b _ _ => [a.val, b.val]
  | .fcmpUnVs _ a _ _ => [a.val]
  | .fcmpUnVi _ a _ _ => [a.val]
  | .mlogAnd _ a b => [100 + a.val, 100 + b.val]
  | .mlogOr _ a b => [100 + a.val, 100 + b.val]
  | .mlogXor _ a b => [100 + a.val, 100 + b.val]
  | .msbf _ a => [100 + a.val]
  | .msif _ a => [100 + a.val]
  | .mpopc _ a => [100 + a.val]
  | .mfirst _ a => [100 + a.val]
  | .compress _ a _ => [a.val]
  | .expand _ a _ => [a.val]
  | .vperm _ a b t => [a.val, b.val] ++ (if t.bits == 8 then [b.val + 1] else [])
  | .vslupVs _ a _ _ => [a.val]
  | .vslupVi _ a _ _ => [a.val]
  | .vsldnVs _ a _ _ => [a.val]
  | .vsldnVi _ a _ _ => [a.val]
  | .bperm _ a b _ => [a.val, b.val]
  | .vzipZip _ a b _ => [a.val, b.val]
  | .vzipUnzip _ a _ => [a.val, a.val + 1]
  | .vmoveExt _ a _ => [a.val]
  | .vmoveIns _ a _ => [a.val]
  | .vmoveElt _ a _ => [a.val]
  | .redSum _ a b _ _ => [a.val, b.val]
  | .redMin _ a b _ => [a.val, b.val]
  | .redMax _ a b _ => [a.val, b.val]
  | .redAnd _ a b _ => [a.val, b.val]
  | .redOr _ a b _ => [a.val, b.val]
  | .redXor _ a b _ => [a.val, b.val]
  | .fredOsum _ a b _ => [a.val, b.val]
  | .fredTsum _ a b _ => [a.val, b.val]
  | .fredMin _ a b _ => [a.val, b.val]
  | .fredMax _ a b _ => [a.val, b.val]
  | .vmrgLo _ a b _ => [a.val, a.val + 1, b.val, b.val + 1]
  | .vmrgHi _ a b _ => [a.val, a.val + 1, b.val, b.val + 1]
  | .vsort _ a _ => [a.val, a.val + 1]
  | .mmaAccResident d a _ t m g =>
    [200 + d.val] ++ List.range' a.val (2 ^ g.val) ++ (if t == .c4 then [300 + 2 * m.val] else [])
  | .mmaZeroResident d a _ t m g =>
    [200 + d.val] ++ List.range' a.val (2 ^ g.val) ++ (if t == .c4 then [300 + 2 * m.val] else [])
  | .mmaAccRegister d a b t m g =>
    [200 + d.val] ++ List.range' a.val (2 ^ g.val) ++ List.range' b.val (2 ^ g.val) ++
      (if t == .c4 then [300 + 2 * m.val, 300 + 2 * m.val + 1] else [])
  | .mmaZeroRegister d a b t m g =>
    [200 + d.val] ++ List.range' a.val (2 ^ g.val) ++ List.range' b.val (2 ^ g.val) ++
      (if t == .c4 then [300 + 2 * m.val, 300 + 2 * m.val + 1] else [])
  | .accrd _ a _ _ _ => [200 + a.val]
  | .accwr _ a t => List.range' a.val t.tileRegs
  | .dfma d a b _ => [a.val, b.val, 200 + d.val]
  | .str d _ _ _ => [d.val]
  | .ldrx _ _ b _ => [b.val]
  | .strx d _ b _ => [d.val, b.val]
  | .ldfx _ _ _ b _ _ _ _ => [b.val]
  | .stf _ d _ _ _ _ _ _ => [d.val]
  | .stfx _ d _ b _ _ _ _ => [d.val, b.val]
  | .stfm _ d _ _ _ _ _ _ => [d.val]
  | .scaddInt _ d _ b _ => [d.val, b.val]
  | .scaddFlt _ d _ b _ => [d.val, b.val]
  | _ => []

/-- Registers that an entry writes. -/
def Instr.writes : Instr → List Nat
  | .addVv d _ _ _ _ _ => [d.val]
  | .addVs d _ _ _ _ => [d.val]
  | .addVi d _ _ _ => [d.val]
  | .subVv d _ _ _ _ _ => [d.val]
  | .subVs d _ _ _ _ => [d.val]
  | .subVi d _ _ _ => [d.val]
  | .mulVv d _ _ _ _ _ => [d.val]
  | .mulVs d _ _ _ _ => [d.val]
  | .mulVi d _ _ _ => [d.val]
  | .mulhVv d _ _ _ _ => [d.val]
  | .mulhVs d _ _ _ => [d.val]
  | .mulhVi d _ _ _ => [d.val]
  | .minVv d _ _ _ _ => [d.val]
  | .minVs d _ _ _ => [d.val]
  | .minVi d _ _ _ => [d.val]
  | .maxVv d _ _ _ _ => [d.val]
  | .maxVs d _ _ _ => [d.val]
  | .maxVi d _ _ _ => [d.val]
  | .andVv d _ _ _ _ => [d.val]
  | .andVs d _ _ _ => [d.val]
  | .andVi d _ _ _ => [d.val]
  | .orVv d _ _ _ _ => [d.val]
  | .orVs d _ _ _ => [d.val]
  | .orVi d _ _ _ => [d.val]
  | .xorVv d _ _ _ _ => [d.val]
  | .xorVs d _ _ _ => [d.val]
  | .xorVi d _ _ _ => [d.val]
  | .shlVv d _ _ _ _ _ => [d.val]
  | .shlVs d _ _ _ _ => [d.val]
  | .shlVi d _ _ _ => [d.val]
  | .shrVv d _ _ _ _ => [d.val]
  | .shrVs d _ _ _ => [d.val]
  | .shrVi d _ _ _ => [d.val]
  | .shraVv d _ _ _ _ => [d.val]
  | .shraVs d _ _ _ => [d.val]
  | .shraVi d _ _ _ => [d.val]
  | .maddVv d _ _ _ _ _ => [d.val]
  | .maddVs d _ _ _ _ => [d.val]
  | .maddVi d _ _ _ => [d.val]
  | .divVv d _ _ _ _ _ => [d.val]
  | .divVs d _ _ _ _ => [d.val]
  | .remVv d _ _ _ _ => [d.val]
  | .remVs d _ _ _ => [d.val]
  | .rshrVv d _ _ _ _ => [d.val]
  | .rshrVs d _ _ _ => [d.val]
  | .rshrVi d _ _ _ => [d.val]
  | .andnVv d _ _ _ _ => [d.val]
  | .andnVs d _ _ _ => [d.val]
  | .andnVi d _ _ _ => [d.val]
  | .clzVv d _ _ => [d.val]
  | .popcVv d _ _ => [d.val]
  | .pickVv d _ _ _ _ => [d.val]
  | .pickVs d _ _ _ => [d.val]
  | .pickVi d _ _ _ => [d.val]
  | .wmulVv d _ _ _ _ => [d.val, d.val + 1]
  | .wmacVv d _ _ _ _ _ => [200 + d.val]
  | .wmacVs d _ _ _ _ => [200 + d.val]
  | .nrshrVv d _ _ _ _ => [d.val]
  | .nrshrVs d _ _ _ => [d.val]
  | .nrshrVi d _ _ _ => [d.val]
  | .absVv d _ _ _ => [d.val]
  | .faddVv d _ _ _ _ _ => [d.val]
  | .faddVs d _ _ _ _ => [d.val]
  | .faddVi d _ _ _ => [d.val]
  | .fsubVv d _ _ _ _ _ => [d.val]
  | .fsubVs d _ _ _ _ => [d.val]
  | .fsubVi d _ _ _ => [d.val]
  | .fmulVv d _ _ _ _ _ => [d.val]
  | .fmulVs d _ _ _ _ => [d.val]
  | .fmulVi d _ _ _ => [d.val]
  | .fmaVv d _ _ _ _ _ => [d.val]
  | .fmaVs d _ _ _ _ => [d.val]
  | .fmaVi d _ _ _ => [d.val]
  | .fnmsVv d _ _ _ _ _ => [d.val]
  | .fnmsVs d _ _ _ _ => [d.val]
  | .fnmsVi d _ _ _ => [d.val]
  | .fnmaVv d _ _ _ _ _ => [d.val]
  | .fnmaVs d _ _ _ _ => [d.val]
  | .fnmaVi d _ _ _ => [d.val]
  | .fminVv d _ _ _ _ => [d.val]
  | .fminVs d _ _ _ => [d.val]
  | .fminVi d _ _ _ => [d.val]
  | .fmaxVv d _ _ _ _ => [d.val]
  | .fmaxVs d _ _ _ => [d.val]
  | .fmaxVi d _ _ _ => [d.val]
  | .fdivVv d _ _ _ _ _ => [d.val]
  | .fsqrtVv d _ _ _ => [d.val]
  | .frcpVv d _ _ _ => [d.val]
  | .frsqVv d _ _ _ => [d.val]
  | .fscaleVv d _ _ _ _ _ => [d.val]
  | .fscaleVs d _ _ _ _ => [d.val]
  | .fscaleVi d _ _ _ => [d.val]
  | .frintVv d _ _ _ => [d.val]
  | .fclassVv d _ _ => [d.val]
  | .fsgnAbs d _ _ => [d.val]
  | .fsgnNeg d _ _ => [d.val]
  | .fsgnCopy d _ _ _ => [d.val]
  | .cvtVv d _ _ _ _ => [d.val]
  | .cvts d _ _ _ _ => [d.val]
  | .cvtw d _ s t _ => List.range' d.val (t.bits / s.bits)
  | .scld d _ _ _ _ => [d.val]
  | .cbld k _ => [300 + k.val]
  | .cmpEqVv d _ _ _ _ => [100 + d.val]
  | .cmpEqVs d _ _ _ => [100 + d.val]
  | .cmpEqVi d _ _ _ => [100 + d.val]
  | .cmpNeVv d _ _ _ _ => [100 + d.val]
  | .cmpNeVs d _ _ _ => [100 + d.val]
  | .cmpNeVi d _ _ _ => [100 + d.val]
  | .cmpLtVv d _ _ _ _ => [100 + d.val]
  | .cmpLtVs d _ _ _ => [100 + d.val]
  | .cmpLtVi d _ _ _ => [100 + d.val]
  | .cmpLeVv d _ _ _ _ => [100 + d.val]
  | .cmpLeVs d _ _ _ => [100 + d.val]
  | .cmpLeVi d _ _ _ => [100 + d.val]
  | .fcmpEqVv d _ _ _ _ => [100 + d.val]
  | .fcmpEqVs d _ _ _ => [100 + d.val]
  | .fcmpEqVi d _ _ _ => [100 + d.val]
  | .fcmpLtVv d _ _ _ _ => [100 + d.val]
  | .fcmpLtVs d _ _ _ => [100 + d.val]
  | .fcmpLtVi d _ _ _ => [100 + d.val]
  | .fcmpLeVv d _ _ _ _ => [100 + d.val]
  | .fcmpLeVs d _ _ _ => [100 + d.val]
  | .fcmpLeVi d _ _ _ => [100 + d.val]
  | .fcmpUnVv d _ _ _ _ => [100 + d.val]
  | .fcmpUnVs d _ _ _ => [100 + d.val]
  | .fcmpUnVi d _ _ _ => [100 + d.val]
  | .mlogAnd d _ _ => [100 + d.val]
  | .mlogOr d _ _ => [100 + d.val]
  | .mlogXor d _ _ => [100 + d.val]
  | .msbf d _ => [100 + d.val]
  | .msif d _ => [100 + d.val]
  | .msetAll d => [100 + d.val]
  | .msetNone d => [100 + d.val]
  | .msetVl d => [100 + d.val]
  | .compress d _ _ => [d.val]
  | .expand d _ _ => [d.val]
  | .iota d _ => [d.val]
  | .vperm d _ _ _ => [d.val]
  | .vslupVs d _ _ _ => [d.val]
  | .vslupVi d _ _ _ => [d.val]
  | .vsldnVs d _ _ _ => [d.val]
  | .vsldnVi d _ _ _ => [d.val]
  | .vbcastVs d _ _ => [d.val]
  | .vbcastVi d _ _ => [d.val]
  | .bperm d _ _ _ => [d.val]
  | .vzipZip d _ _ _ => [d.val, d.val + 1]
  | .vzipUnzip d _ _ => [d.val, d.val + 1]
  | .vmoveIns d _ _ => [d.val]
  | .vmoveElt d _ _ => [d.val]
  | .redSum d _ _ _ _ => [d.val]
  | .redMin d _ _ _ => [d.val]
  | .redMax d _ _ _ => [d.val]
  | .redAnd d _ _ _ => [d.val]
  | .redOr d _ _ _ => [d.val]
  | .redXor d _ _ _ => [d.val]
  | .fredOsum d _ _ _ => [d.val]
  | .fredTsum d _ _ _ => [d.val]
  | .fredMin d _ _ _ => [d.val]
  | .fredMax d _ _ _ => [d.val]
  | .vmrgLo d _ _ _ => [d.val, d.val + 1]
  | .vmrgHi d _ _ _ => [d.val, d.val + 1]
  | .vsort d _ _ => [d.val, d.val + 1]
  | .mmaAccResident d _ _ _ _ _ => [200 + d.val]
  | .mmaZeroResident d _ _ _ _ _ => [200 + d.val]
  | .mmaAccRegister d _ _ _ _ _ => [200 + d.val]
  | .mmaZeroRegister d _ _ _ _ _ => [200 + d.val]
  | .accrd d _ t _ _ => List.range' d.val t.tileRegs
  | .accwr d _ _ => [200 + d.val]
  | .accz d => [200 + d.val]
  | .dfma d _ _ _ => [200 + d.val]
  | .ldr d _ _ _ => [d.val]
  | .ldrx d _ _ _ => [d.val]
  | .ldf _ d _ _ _ _ _ _ => [d.val]
  | .ldfx _ d _ _ _ _ _ _ => [d.val]
  | _ => []

/-- Does m[VMSEL.MSEL] govern an instruction of the lanes: every one of them but those whose rule sets the mask aside (R130,
R137, R145, R147, R149, R152, R153, R166). -/
def Instr.masked : Instr → Bool
  | .cbld _ _ => false
  | .mlogAnd _ _ _ => false
  | .mlogOr _ _ _ => false
  | .mlogXor _ _ _ => false
  | .msbf _ _ => false
  | .msif _ _ => false
  | .msetAll _ => false
  | .msetNone _ => false
  | .msetVl _ => false
  | .mpopc _ _ => false
  | .mfirst _ _ => false
  | .vslupVs _ _ _ t => !t.isBlock
  | .vslupVi _ _ _ t => !t.isBlock
  | .vsldnVs _ _ _ t => !t.isBlock
  | .vsldnVi _ _ _ t => !t.isBlock
  | .bperm _ _ _ _ => false
  | .vmoveExt _ _ _ => false
  | .vmoveIns _ _ _ => false
  | .vsort _ _ _ => false
  | .vmrgLo _ _ _ _ => false
  | .vmrgHi _ _ _ _ => false
  | .accz _ => false
  | i => !i.reads.isEmpty || !i.writes.isEmpty

/-- The resident set whose codebook an entry decodes with: operand B of a C4 MMA (R41, R161). -/
def Instr.residentBook : Instr → Option Nat
  | .mmaAccResident _ _ q t _ _ => if t == .c4 then some q.val else none
  | .mmaZeroResident _ _ q t _ _ => if t == .c4 then some q.val else none
  | _ => none

/-- Residency register that an instruction reads or writes. -/
def Instr.residentSet : Instr → Option Nat
  | .ldr _ q _ _ => some q.val
  | .str _ q _ _ => some q.val
  | .ldrx _ q _ _ => some q.val
  | .strx _ q _ _ => some q.val
  | .mmaAccResident _ _ q _ _ _ => some q.val
  | .mmaZeroResident _ _ q _ _ _ => some q.val
  | _ => none

end Sys2Proof
end

