-- ==== Sys2Proof/Machine/Slice.lean ====
section
/-! DEFINITION. What the scalar slice does with a word it has decoded: the checks of R77 and R100, a scalar instruction in a
live or dead stage (R99), and the push of an entry into the control queue (R24, R62, R99, R258), convoys included (R28). -/

namespace Sys2Proof.Machine

/-- The word of an instruction. -/
def wordOf (i : Instr) : Word := (encode i).headD 0

/-- OP of a word. -/
def opOf (w : Word) : Nat := w.toNat / 33554432
/-- Is a word a CSRW. -/
def isCsrw (w : Word) : Bool := opOf w == 0x7F && w.toNat / 2097152 % 16 == 4
/-- Residency register q. -/
def Slot.reg (sl : Slot) (q : Nat) : ResReg := vat sl.q q ResReg.reset
/-- Counters k0 to k5. -/
abbrev Ctrs := Vector (BitVec 32) 6

/-! ### Fields of FLAGS (R172), of a box term (R173) and of SHAPE (R174) -/

def Desc.rank (d : Desc) : Nat := fld d.flags 0 3
def Desc.pad (d : Desc) (i : Nat) : Bool := bitAt d.flags (3 + i)
def Desc.accR (d : Desc) : Bool := bitAt d.flags 9
def Desc.accW (d : Desc) : Bool := bitAt d.flags 10
def Desc.shq (d : Desc) : Nat := fld d.flags 11 4
def Desc.shv (d : Desc) : Bool := bitAt d.flags 15
def Desc.ixd (d : Desc) : Nat := fld d.flags 16 3
def Desc.ixq (d : Desc) : Nat := fld d.flags 19 4
def Desc.mfc (d : Desc) : Nat := fld d.flags 23 2
def Desc.marg (d : Desc) : Nat := fld d.flags 25 4

/-- VMSEL.MSEL after the CSRWs of some entries (R17, R26). -/
def mselAfter (m : Nat) (l : List Entry) : Nat :=
  l.foldl (fun m e =>
    if e.p && e.ins.isNone && e.kind == .instr && isCsrw e.word && e.word.toNat % 2048 == 0 then fld e.scalar 0 3 else m) m

/-- Every register that an instruction reads when it follows the entries `before` of a slot's queue: those it names, the
governing mask (R132) and the codebook of its resident set (R41). -/
def Slot.readsOf (sl : Slot) (before : List Entry) (i : Instr) : List Nat :=
  i.reads ++ (if i.masked then [100 + mselAfter sl.lane.msel.toNat before] else []) ++
    (match i.residentBook with
     | some q => [300 + (sl.reg q).desc.marg]
     | none => [])

/-- Does an entry that follows the whole queue chain on the one before it (R28). -/
def Slot.chains (sl : Slot) (p e : Entry) : Bool :=
  match p.ins, e.ins with
  | some i, some j => i.writes.any fun r => (sl.readsOf sl.queue j).contains r
  | _, _ => false

/-- Push an entry; a ninth chaining entry starts a new convoy (R24, R28). -/
def Slot.push (sl : Slot) (e : Entry) : Slot :=
  let e :=
    match sl.lastCv with
    | some p => if sl.chains p e && decide (p.cvPos < 7) then { e with cvHead := p.cvHead, cvPos := p.cvPos + 1 } else e
    | none => e
  { sl with queue := sl.queue ++ [e], lastCv := some e }

/-- c8 to c11 as an entry carries them (R24). -/
def Slot.predicates (sl : Slot) : BitVec 4 :=
  BitVec.ofNat 4 (b2n (vat sl.c 8 false) + 2 * b2n (vat sl.c 9 false) + 4 * b2n (vat sl.c 10 false) + 8 * b2n (vat sl.c 11 false))

/-- The entry of an instruction at the slice's PC; its VL is the slice's copy, and P its stage predicate (R24, R257). -/
def Slot.entryOf (sl : Slot) (ins : Option Instr) (w : Word) (x : X64) : Entry :=
  { kind := .instr, ins := ins, word := w, scalar := x, pc := sl.pc, stages := sl.predicates, named := 0, vl := sl.svl
    p := sl.stageLive, cvHead := sl.pc, cvPos := 0, leave := 0 }

/-- Enter a word into the control queue: VECTOR-UNAVAILABLE without vector state (R258), ILLEGAL-OPERAND while the queue is
frozen (R256), a stall while it is full (R24). -/
def State.enqueue (s : State) (w : Word) (mk : Slot → Entry) (after : Slot → Slot) : State :=
  let sl := s.me
  if !sl.tr.vu then s.trapWord .vectorUnavailable w
  else if sl.tr.froz then s.trapOperand
  else if 64 ≤ sl.queue.length then s.setMe (sl.stall 1)
  else s.setMe (after (sl.push (mk sl)))

/-- Push a vector instruction with its scalar value (R24, R62, R99). -/
def State.pushVector (s : State) (i : Instr) (x : X64) : State :=
  match i.typeTrap with
  | some t => s.trapWord (decodeTrapCode t) (wordOf i)
  | none => s.enqueue (wordOf i) (fun sl => sl.entryOf (some i) (wordOf i) x) Slot.adv

/-- A back-flow that pushes an entry of its own: the slice stalls until the lanes' value for x[d] returns (R27). In a dead
stage nothing returns and nothing is awaited (R99). -/
def State.pushBack (s : State) (i : Instr) (d : Nat) : State :=
  match i.typeTrap with
  | some t => s.trapWord (decodeTrapCode t) (wordOf i)
  | none =>
    match s.me.phase with
    | .value r v => s.setMe ((s.me.wx r v).adv)
    | .pushed _ => s.setMe (s.me.stall 2)
    | _ =>
      if !s.me.stageLive then s.enqueue (wordOf i) (fun sl => sl.entryOf (some i) (wordOf i) 0) Slot.adv
      else s.enqueue (wordOf i) (fun sl => sl.entryOf (some i) (wordOf i) 0) fun sl => { sl with phase := .pushed d }.stall 2

/-- A scalar instruction: R100 when it is forbidden in a live nest, the privilege check, the type checks, and in a dead
stage no effect (R77, R99). -/
def State.scalarStep (s : State) (w : Word) (forbid priv : Bool) (type : Option DecodeTrap) (act : State → Res State) :
    Res State :=
  if forbid && s.me.inBody then .ok (s.trapWord .undefinedInstruction w)
  else if priv && !s.me.tr.priv then .ok (s.trapWord .privilege w)
  else
    match type with
    | some t => .ok (s.trapWord (decodeTrapCode t) w)
    | none => if !s.me.stageLive then .ok (s.setMe s.me.adv) else act s

/-- A word at the slice that enters the control queue: without vector state it raises VECTOR-UNAVAILABLE at decode, in a dead stage
too (R99, R258). -/
def State.queueStep (s : State) (w : Word) (priv : Bool) (act : State → Res State) : Res State :=
  if priv && !s.me.tr.priv then .ok (s.trapWord .privilege w)
  else if !s.me.tr.vu then .ok (s.trapWord .vectorUnavailable w)
  else s.scalarStep w false false none act

/-- Write x[d] and go on (R110). -/
def State.putX (s : State) (d : Nat) (v : X64) : State := s.setMe ((s.me.wx d v).adv)
/-- Write c[d] and go on (R136). -/
def State.putC (s : State) (d : Nat) (v : Bool) : State := s.setMe ((s.me.wc d v).adv)

end Sys2Proof.Machine
end

