-- ==== Sys2Proof/Machine/Integer.lean ====
section
/-! DEFINITION. Integer instructions of the lanes and their sc forms (R111 to R117): exact results, fitted once. -/

namespace Sys2Proof.Machine

/-- The integer operations of R111 and R112. -/
inductive IOp where
  | add | sub | mul | mulh | min | max | and | or | xor | shl | shr | shra | madd | div | rem | rshr | andn | clz | popc | abs
  deriving DecidableEq, Repr

/-- The number of one bits among the low w bits. -/
def popCount (w n : Nat) : Nat := (List.range w).foldl (fun c i => c + n / 2 ^ i % 2) 0

/-- The exact result of an operation on patterns a, b and d of type t (R111 to R113). -/
def intExact (o : IOp) (t : Ty) (a b d : Nat) : Int :=
  let w := t.bits
  let x := intVal t a
  let y := intVal t b
  let s := b % w
  match o with
  | .add => x + y
  | .sub => x - y
  | .mul => x * y
  | .mulh => x * y / ((2 ^ w : Nat) : Int)
  | .min => if x ≤ y then x else y
  | .max => if x ≤ y then y else x
  | .and => ((a &&& b : Nat) : Int)
  | .or => ((a ||| b : Nat) : Int)
  | .xor => ((a ^^^ b : Nat) : Int)
  | .andn => ((a &&& (b ^^^ (2 ^ w - 1)) : Nat) : Int)
  | .shl => x * ((2 ^ s : Nat) : Int)
  | .shr => ((a % 2 ^ w / 2 ^ s : Nat) : Int)
  | .shra => toSigned w a / ((2 ^ s : Nat) : Int)
  | .madd => intVal t d + x * y
  | .div => if b % 2 ^ w = 0 then (if t.isSigned then -1 else ((2 ^ w - 1 : Nat) : Int)) else Int.tdiv x y
  | .rem => if b % 2 ^ w = 0 then x else Int.tmod x y
  | .rshr => if s = 0 then x else (x + ((2 ^ (s - 1) : Nat) : Int)) / ((2 ^ s : Nat) : Int)
  | .clz => if a % 2 ^ w = 0 then (w : Int) else ((w - 1 - Nat.log2 (a % 2 ^ w) : Nat) : Int)
  | .popc => (popCount w a : Int)
  | .abs => if x < 0 then -x else x

/-- Does the operation raise DZ (R112). -/
def intDz (o : IOp) (t : Ty) (a b : Nat) : Bool :=
  (o == .div || o == .rem) && decide (b % 2 ^ t.bits = 0) && decide (a % 2 ^ t.bits ≠ 0)

/-- One element: the fitted pattern and whether it was clamped (R34). -/
def intOp (o : IOp) (t : Ty) (sat : Bool) (a b d : Nat) : Nat × Bool := fitInt t sat (intExact o t a b d)

/-- An integer entry (R105, R111). -/
def LEnv.int (n : LEnv) (o : IOp) (t : Ty) (sat : Bool) (d a : Nat) (b : BOp) : LaneAct :=
  let g := groupOf t.bits
  n.elemwise [n.count t] g fun acc e =>
    let x := n.l.rd a t.bits e
    let y := n.bBits t g b e
    let r := intOp o t sat x y (n.l.rd d t.bits e)
    (acc.wr d t.bits e r.1).raiseInt r.2 (intDz o t x y)

/-- A unary integer entry. -/
def LEnv.int1 (n : LEnv) (o : IOp) (t : Ty) (sat : Bool) (d a : Nat) : LaneAct := n.int o t sat d a (.reg a .none)

/-- An integer sc form (R110): no flag. -/
def scInt (o : IOp) (t : Ty) (q d a b : Nat) (s : State) : Res State :=
  .ok (s.putX d (extendInt t (intOp o t (decide (q = 1)) (s.me.rx a).toNat (s.me.rx b).toNat 0).1))

/-- PICK: every element of [VSTART, VL) is written, whatever its mask bit (R114); the bits of a NaN are copied as they are
[DEDUCED, log 115]. -/
def LEnv.pick (n : LEnv) (t : Ty) (d a : Nat) (b : BOp) : LaneAct :=
  let g := groupOf t.bits
  if n.l.vl.toNat ≤ n.count t then
    .elems g n.l.vl.toNat (n.overAll fun acc e =>
      acc.wr d t.bits e (if n.l.gov e then n.l.rd a t.bits e else n.bBits t g b e))
  else .illegal

/-- The double-width type of the same signedness (R115). -/
def doubleOf : Ty → Ty
  | .s8 => .s16 | .n8 => .n16 | .s16 => .s32 | .n16 => .n32 | .s32 => .s64 | .n32 => .n64 | t => t

/-- WMUL: exact double-width products into a register pair (R115). -/
def LEnv.wmul (n : LEnv) (t : Ty) (d a : Nat) (b : BOp) : LaneAct :=
  let g := groupOf (2 * t.bits)
  n.elemwise [n.count t] g fun acc e =>
    acc.wrG n.cap d (2 * t.bits) e
      (wrapTo (2 * t.bits) (intVal t (n.l.rd a t.bits e) * intVal t (n.bBits t g b e)))

/-- WMAC: one reduction of length 1 into an accumulator group (R53, R116, R278). -/
def LEnv.wmac (n : LEnv) (t : Ty) (q d a : Nat) (b : BOp) : LaneAct :=
  let g := groupOf 32
  if n.agrp ≤ d then .illegal
  else
    LaneAct.dirties (g := d) <| n.elemwise [n.count t] g fun acc e =>
      let old := n.rdA d 32 e
      if t.isInt then
        let r := fitInt .s32 (decide (q = 1)) (toSigned 32 old + intVal t (n.l.rd a t.bits e) * intVal t (n.bBits t g b e))
        (acc.wrA n.cap d 32 e r.1).raiseInt r.2 false
      else
        let p := mulExact (n.l.val t 0 a e) (n.bVal t g b e)
        let r1 := roundExact .f32 ((acc.env (n.l.mode q)).raiseNv p.2) p.1
        let sum := addExact (decide (n.l.mode q = .rdn)) (decodeFloat .f32 old) (decodeFloat .f32 r1.1)
        let r2 := roundExact .f32 (r1.2.raiseNv sum.2) sum.1
        (acc.wrA n.cap d 32 e r2.1).keep r2.2

/-- NRSHR: a rounding shift of S32 accumulators, clamped to the type (R117). -/
def LEnv.nrshr (n : LEnv) (t : Ty) (d a : Nat) (b : BOp) : LaneAct :=
  let g := groupOf 32
  if n.agrp ≤ a then .illegal
  else
    n.elemwise [n.count t] g fun acc e =>
      let s :=
        match b with
        | .reg r c => (match crossIdx c g e with | some j => n.l.rd r t.bits j | none => 0) % 32
        | .scal => n.x.toNat % 32
        | .imm i _ => i.toNat % 32
      let z := toSigned 32 (n.rdA a 32 e)
      let z := if s = 0 then z else (z + ((2 ^ (s - 1) : Nat) : Int)) / ((2 ^ s : Nat) : Int)
      let r := fitInt t true z
      (acc.wr d t.bits e r.1).raiseInt r.2 false

/-- ADD_VV in the lanes (R111). -/
def laneAddVv (d a b : Fin 32) (t : Ty) (q : Fin 4) (c : XMod) (n : LEnv) : LaneAct :=
  n.int .add t (decide (q.val = 1)) d.val a.val (.reg b.val c)
/-- ADD_VV at the slice: pushed (R24, R62). -/
def execAddVv (d a b : Fin 32) (t : Ty) (q : Fin 4) (c : XMod) (s : State) : Host.Outcome State Fault Refusal := .next (s.pushVector (.addVv d a b t q c) 0)

/-- ADD_VS in the lanes (R111). -/
def laneAddVs (d a _b : Fin 32) (t : Ty) (q : Fin 4) (n : LEnv) : LaneAct :=
  n.int .add t (decide (q.val = 1)) d.val a.val .scal
/-- ADD_VS at the slice: pushed (R24, R62). -/
def execAddVs (d a b : Fin 32) (t : Ty) (q : Fin 4) (s : State) : Host.Outcome State Fault Refusal := .next (s.pushVector (.addVs d a b t q) (s.me.rx b.val))

/-- ADD_VI in the lanes (R111). -/
def laneAddVi (d a : Fin 32) (i : BitVec 9) (t : Ty) (n : LEnv) : LaneAct :=
  n.int .add t false d.val a.val (.imm i false)
/-- ADD_VI at the slice: pushed (R24, R62). -/
def execAddVi (d a : Fin 32) (i : BitVec 9) (t : Ty) (s : State) : Host.Outcome State Fault Refusal := .next (s.pushVector (.addVi d a i t) 0)

/-- ADD_SC at the slice (R111, R110). -/
def execAddSc (d a b : Fin 32) (t : Ty) (q : Fin 4) (s : State) : Host.Outcome State Fault Refusal :=
  finish (s.scalarStep (wordOf (.addSc d a b t q)) false false (Instr.typeTrap (.addSc d a b t q)) (scInt .add t q.val d.val a.val b.val))

/-- SUB_VV in the lanes (R111). -/
def laneSubVv (d a b : Fin 32) (t : Ty) (q : Fin 4) (c : XMod) (n : LEnv) : LaneAct :=
  n.int .sub t (decide (q.val = 1)) d.val a.val (.reg b.val c)
/-- SUB_VV at the slice: pushed (R24, R62). -/
def execSubVv (d a b : Fin 32) (t : Ty) (q : Fin 4) (c : XMod) (s : State) : Host.Outcome State Fault Refusal := .next (s.pushVector (.subVv d a b t q c) 0)

/-- SUB_VS in the lanes (R111). -/
def laneSubVs (d a _b : Fin 32) (t : Ty) (q : Fin 4) (n : LEnv) : LaneAct :=
  n.int .sub t (decide (q.val = 1)) d.val a.val .scal
/-- SUB_VS at the slice: pushed (R24, R62). -/
def execSubVs (d a b : Fin 32) (t : Ty) (q : Fin 4) (s : State) : Host.Outcome State Fault Refusal := .next (s.pushVector (.subVs d a b t q) (s.me.rx b.val))

/-- SUB_VI in the lanes (R111). -/
def laneSubVi (d a : Fin 32) (i : BitVec 9) (t : Ty) (n : LEnv) : LaneAct :=
  n.int .sub t false d.val a.val (.imm i false)
/-- SUB_VI at the slice: pushed (R24, R62). -/
def execSubVi (d a : Fin 32) (i : BitVec 9) (t : Ty) (s : State) : Host.Outcome State Fault Refusal := .next (s.pushVector (.subVi d a i t) 0)

/-- SUB_SC at the slice (R111, R110). -/
def execSubSc (d a b : Fin 32) (t : Ty) (q : Fin 4) (s : State) : Host.Outcome State Fault Refusal :=
  finish (s.scalarStep (wordOf (.subSc d a b t q)) false false (Instr.typeTrap (.subSc d a b t q)) (scInt .sub t q.val d.val a.val b.val))

/-- MUL_VV in the lanes (R111). -/
def laneMulVv (d a b : Fin 32) (t : Ty) (q : Fin 4) (c : XMod) (n : LEnv) : LaneAct :=
  n.int .mul t (decide (q.val = 1)) d.val a.val (.reg b.val c)
/-- MUL_VV at the slice: pushed (R24, R62). -/
def execMulVv (d a b : Fin 32) (t : Ty) (q : Fin 4) (c : XMod) (s : State) : Host.Outcome State Fault Refusal := .next (s.pushVector (.mulVv d a b t q c) 0)

/-- MUL_VS in the lanes (R111). -/
def laneMulVs (d a _b : Fin 32) (t : Ty) (q : Fin 4) (n : LEnv) : LaneAct :=
  n.int .mul t (decide (q.val = 1)) d.val a.val .scal
/-- MUL_VS at the slice: pushed (R24, R62). -/
def execMulVs (d a b : Fin 32) (t : Ty) (q : Fin 4) (s : State) : Host.Outcome State Fault Refusal := .next (s.pushVector (.mulVs d a b t q) (s.me.rx b.val))

/-- MUL_VI in the lanes (R111). -/
def laneMulVi (d a : Fin 32) (i : BitVec 9) (t : Ty) (n : LEnv) : LaneAct :=
  n.int .mul t false d.val a.val (.imm i false)
/-- MUL_VI at the slice: pushed (R24, R62). -/
def execMulVi (d a : Fin 32) (i : BitVec 9) (t : Ty) (s : State) : Host.Outcome State Fault Refusal := .next (s.pushVector (.mulVi d a i t) 0)

/-- MUL_SC at the slice (R111, R110). -/
def execMulSc (d a b : Fin 32) (t : Ty) (q : Fin 4) (s : State) : Host.Outcome State Fault Refusal :=
  finish (s.scalarStep (wordOf (.mulSc d a b t q)) false false (Instr.typeTrap (.mulSc d a b t q)) (scInt .mul t q.val d.val a.val b.val))

/-- MULH_VV in the lanes (R111). -/
def laneMulhVv (d a b : Fin 32) (t : Ty) (c : XMod) (n : LEnv) : LaneAct :=
  n.int .mulh t false d.val a.val (.reg b.val c)
/-- MULH_VV at the slice: pushed (R24, R62). -/
def execMulhVv (d a b : Fin 32) (t : Ty) (c : XMod) (s : State) : Host.Outcome State Fault Refusal := .next (s.pushVector (.mulhVv d a b t c) 0)

/-- MULH_VS in the lanes (R111). -/
def laneMulhVs (d a _b : Fin 32) (t : Ty) (n : LEnv) : LaneAct :=
  n.int .mulh t false d.val a.val .scal
/-- MULH_VS at the slice: pushed (R24, R62). -/
def execMulhVs (d a b : Fin 32) (t : Ty) (s : State) : Host.Outcome State Fault Refusal := .next (s.pushVector (.mulhVs d a b t) (s.me.rx b.val))

/-- MULH_VI in the lanes (R111). -/
def laneMulhVi (d a : Fin 32) (i : BitVec 9) (t : Ty) (n : LEnv) : LaneAct :=
  n.int .mulh t false d.val a.val (.imm i false)
/-- MULH_VI at the slice: pushed (R24, R62). -/
def execMulhVi (d a : Fin 32) (i : BitVec 9) (t : Ty) (s : State) : Host.Outcome State Fault Refusal := .next (s.pushVector (.mulhVi d a i t) 0)

/-- MULH_SC at the slice (R111, R110). -/
def execMulhSc (d a b : Fin 32) (t : Ty) (s : State) : Host.Outcome State Fault Refusal :=
  finish (s.scalarStep (wordOf (.mulhSc d a b t)) false false (Instr.typeTrap (.mulhSc d a b t)) (scInt .mulh t 0 d.val a.val b.val))

/-- MIN_VV in the lanes (R111). -/
def laneMinVv (d a b : Fin 32) (t : Ty) (c : XMod) (n : LEnv) : LaneAct :=
  n.int .min t false d.val a.val (.reg b.val c)
/-- MIN_VV at the slice: pushed (R24, R62). -/
def execMinVv (d a b : Fin 32) (t : Ty) (c : XMod) (s : State) : Host.Outcome State Fault Refusal := .next (s.pushVector (.minVv d a b t c) 0)

/-- MIN_VS in the lanes (R111). -/
def laneMinVs (d a _b : Fin 32) (t : Ty) (n : LEnv) : LaneAct :=
  n.int .min t false d.val a.val .scal
/-- MIN_VS at the slice: pushed (R24, R62). -/
def execMinVs (d a b : Fin 32) (t : Ty) (s : State) : Host.Outcome State Fault Refusal := .next (s.pushVector (.minVs d a b t) (s.me.rx b.val))

/-- MIN_VI in the lanes (R111). -/
def laneMinVi (d a : Fin 32) (i : BitVec 9) (t : Ty) (n : LEnv) : LaneAct :=
  n.int .min t false d.val a.val (.imm i false)
/-- MIN_VI at the slice: pushed (R24, R62). -/
def execMinVi (d a : Fin 32) (i : BitVec 9) (t : Ty) (s : State) : Host.Outcome State Fault Refusal := .next (s.pushVector (.minVi d a i t) 0)

/-- MIN_SC at the slice (R111, R110). -/
def execMinSc (d a b : Fin 32) (t : Ty) (s : State) : Host.Outcome State Fault Refusal :=
  finish (s.scalarStep (wordOf (.minSc d a b t)) false false (Instr.typeTrap (.minSc d a b t)) (scInt .min t 0 d.val a.val b.val))

/-- MAX_VV in the lanes (R111). -/
def laneMaxVv (d a b : Fin 32) (t : Ty) (c : XMod) (n : LEnv) : LaneAct :=
  n.int .max t false d.val a.val (.reg b.val c)
/-- MAX_VV at the slice: pushed (R24, R62). -/
def execMaxVv (d a b : Fin 32) (t : Ty) (c : XMod) (s : State) : Host.Outcome State Fault Refusal := .next (s.pushVector (.maxVv d a b t c) 0)

/-- MAX_VS in the lanes (R111). -/
def laneMaxVs (d a _b : Fin 32) (t : Ty) (n : LEnv) : LaneAct :=
  n.int .max t false d.val a.val .scal
/-- MAX_VS at the slice: pushed (R24, R62). -/
def execMaxVs (d a b : Fin 32) (t : Ty) (s : State) : Host.Outcome State Fault Refusal := .next (s.pushVector (.maxVs d a b t) (s.me.rx b.val))

/-- MAX_VI in the lanes (R111). -/
def laneMaxVi (d a : Fin 32) (i : BitVec 9) (t : Ty) (n : LEnv) : LaneAct :=
  n.int .max t false d.val a.val (.imm i false)
/-- MAX_VI at the slice: pushed (R24, R62). -/
def execMaxVi (d a : Fin 32) (i : BitVec 9) (t : Ty) (s : State) : Host.Outcome State Fault Refusal := .next (s.pushVector (.maxVi d a i t) 0)

/-- MAX_SC at the slice (R111, R110). -/
def execMaxSc (d a b : Fin 32) (t : Ty) (s : State) : Host.Outcome State Fault Refusal :=
  finish (s.scalarStep (wordOf (.maxSc d a b t)) false false (Instr.typeTrap (.maxSc d a b t)) (scInt .max t 0 d.val a.val b.val))

/-- AND_VV in the lanes (R111). -/
def laneAndVv (d a b : Fin 32) (t : Ty) (c : XMod) (n : LEnv) : LaneAct :=
  n.int .and t false d.val a.val (.reg b.val c)
/-- AND_VV at the slice: pushed (R24, R62). -/
def execAndVv (d a b : Fin 32) (t : Ty) (c : XMod) (s : State) : Host.Outcome State Fault Refusal := .next (s.pushVector (.andVv d a b t c) 0)

/-- AND_VS in the lanes (R111). -/
def laneAndVs (d a _b : Fin 32) (t : Ty) (n : LEnv) : LaneAct :=
  n.int .and t false d.val a.val .scal
/-- AND_VS at the slice: pushed (R24, R62). -/
def execAndVs (d a b : Fin 32) (t : Ty) (s : State) : Host.Outcome State Fault Refusal := .next (s.pushVector (.andVs d a b t) (s.me.rx b.val))

/-- AND_VI in the lanes (R111). -/
def laneAndVi (d a : Fin 32) (i : BitVec 9) (t : Ty) (n : LEnv) : LaneAct :=
  n.int .and t false d.val a.val (.imm i true)
/-- AND_VI at the slice: pushed (R24, R62). -/
def execAndVi (d a : Fin 32) (i : BitVec 9) (t : Ty) (s : State) : Host.Outcome State Fault Refusal := .next (s.pushVector (.andVi d a i t) 0)

/-- AND_SC at the slice (R111, R110). -/
def execAndSc (d a b : Fin 32) (t : Ty) (s : State) : Host.Outcome State Fault Refusal :=
  finish (s.scalarStep (wordOf (.andSc d a b t)) false false (Instr.typeTrap (.andSc d a b t)) (scInt .and t 0 d.val a.val b.val))

/-- OR_VV in the lanes (R111). -/
def laneOrVv (d a b : Fin 32) (t : Ty) (c : XMod) (n : LEnv) : LaneAct :=
  n.int .or t false d.val a.val (.reg b.val c)
/-- OR_VV at the slice: pushed (R24, R62). -/
def execOrVv (d a b : Fin 32) (t : Ty) (c : XMod) (s : State) : Host.Outcome State Fault Refusal := .next (s.pushVector (.orVv d a b t c) 0)

/-- OR_VS in the lanes (R111). -/
def laneOrVs (d a _b : Fin 32) (t : Ty) (n : LEnv) : LaneAct :=
  n.int .or t false d.val a.val .scal
/-- OR_VS at the slice: pushed (R24, R62). -/
def execOrVs (d a b : Fin 32) (t : Ty) (s : State) : Host.Outcome State Fault Refusal := .next (s.pushVector (.orVs d a b t) (s.me.rx b.val))

/-- OR_VI in the lanes (R111). -/
def laneOrVi (d a : Fin 32) (i : BitVec 9) (t : Ty) (n : LEnv) : LaneAct :=
  n.int .or t false d.val a.val (.imm i true)
/-- OR_VI at the slice: pushed (R24, R62). -/
def execOrVi (d a : Fin 32) (i : BitVec 9) (t : Ty) (s : State) : Host.Outcome State Fault Refusal := .next (s.pushVector (.orVi d a i t) 0)

/-- OR_SC at the slice (R111, R110). -/
def execOrSc (d a b : Fin 32) (t : Ty) (s : State) : Host.Outcome State Fault Refusal :=
  finish (s.scalarStep (wordOf (.orSc d a b t)) false false (Instr.typeTrap (.orSc d a b t)) (scInt .or t 0 d.val a.val b.val))

/-- XOR_VV in the lanes (R111). -/
def laneXorVv (d a b : Fin 32) (t : Ty) (c : XMod) (n : LEnv) : LaneAct :=
  n.int .xor t false d.val a.val (.reg b.val c)
/-- XOR_VV at the slice: pushed (R24, R62). -/
def execXorVv (d a b : Fin 32) (t : Ty) (c : XMod) (s : State) : Host.Outcome State Fault Refusal := .next (s.pushVector (.xorVv d a b t c) 0)

/-- XOR_VS in the lanes (R111). -/
def laneXorVs (d a _b : Fin 32) (t : Ty) (n : LEnv) : LaneAct :=
  n.int .xor t false d.val a.val .scal
/-- XOR_VS at the slice: pushed (R24, R62). -/
def execXorVs (d a b : Fin 32) (t : Ty) (s : State) : Host.Outcome State Fault Refusal := .next (s.pushVector (.xorVs d a b t) (s.me.rx b.val))

/-- XOR_VI in the lanes (R111). -/
def laneXorVi (d a : Fin 32) (i : BitVec 9) (t : Ty) (n : LEnv) : LaneAct :=
  n.int .xor t false d.val a.val (.imm i true)
/-- XOR_VI at the slice: pushed (R24, R62). -/
def execXorVi (d a : Fin 32) (i : BitVec 9) (t : Ty) (s : State) : Host.Outcome State Fault Refusal := .next (s.pushVector (.xorVi d a i t) 0)

/-- XOR_SC at the slice (R111, R110). -/
def execXorSc (d a b : Fin 32) (t : Ty) (s : State) : Host.Outcome State Fault Refusal :=
  finish (s.scalarStep (wordOf (.xorSc d a b t)) false false (Instr.typeTrap (.xorSc d a b t)) (scInt .xor t 0 d.val a.val b.val))

/-- SHL_VV in the lanes (R111). -/
def laneShlVv (d a b : Fin 32) (t : Ty) (q : Fin 4) (c : XMod) (n : LEnv) : LaneAct :=
  n.int .shl t (decide (q.val = 1)) d.val a.val (.reg b.val c)
/-- SHL_VV at the slice: pushed (R24, R62). -/
def execShlVv (d a b : Fin 32) (t : Ty) (q : Fin 4) (c : XMod) (s : State) : Host.Outcome State Fault Refusal := .next (s.pushVector (.shlVv d a b t q c) 0)

/-- SHL_VS in the lanes (R111). -/
def laneShlVs (d a _b : Fin 32) (t : Ty) (q : Fin 4) (n : LEnv) : LaneAct :=
  n.int .shl t (decide (q.val = 1)) d.val a.val .scal
/-- SHL_VS at the slice: pushed (R24, R62). -/
def execShlVs (d a b : Fin 32) (t : Ty) (q : Fin 4) (s : State) : Host.Outcome State Fault Refusal := .next (s.pushVector (.shlVs d a b t q) (s.me.rx b.val))

/-- SHL_VI in the lanes (R111). -/
def laneShlVi (d a : Fin 32) (i : BitVec 9) (t : Ty) (n : LEnv) : LaneAct :=
  n.int .shl t false d.val a.val (.imm i false)
/-- SHL_VI at the slice: pushed (R24, R62). -/
def execShlVi (d a : Fin 32) (i : BitVec 9) (t : Ty) (s : State) : Host.Outcome State Fault Refusal := .next (s.pushVector (.shlVi d a i t) 0)

/-- SHL_SC at the slice (R111, R110). -/
def execShlSc (d a b : Fin 32) (t : Ty) (q : Fin 4) (s : State) : Host.Outcome State Fault Refusal :=
  finish (s.scalarStep (wordOf (.shlSc d a b t q)) false false (Instr.typeTrap (.shlSc d a b t q)) (scInt .shl t q.val d.val a.val b.val))

/-- SHR_VV in the lanes (R111). -/
def laneShrVv (d a b : Fin 32) (t : Ty) (c : XMod) (n : LEnv) : LaneAct :=
  n.int .shr t false d.val a.val (.reg b.val c)
/-- SHR_VV at the slice: pushed (R24, R62). -/
def execShrVv (d a b : Fin 32) (t : Ty) (c : XMod) (s : State) : Host.Outcome State Fault Refusal := .next (s.pushVector (.shrVv d a b t c) 0)

/-- SHR_VS in the lanes (R111). -/
def laneShrVs (d a _b : Fin 32) (t : Ty) (n : LEnv) : LaneAct :=
  n.int .shr t false d.val a.val .scal
/-- SHR_VS at the slice: pushed (R24, R62). -/
def execShrVs (d a b : Fin 32) (t : Ty) (s : State) : Host.Outcome State Fault Refusal := .next (s.pushVector (.shrVs d a b t) (s.me.rx b.val))

/-- SHR_VI in the lanes (R111). -/
def laneShrVi (d a : Fin 32) (i : BitVec 9) (t : Ty) (n : LEnv) : LaneAct :=
  n.int .shr t false d.val a.val (.imm i false)
/-- SHR_VI at the slice: pushed (R24, R62). -/
def execShrVi (d a : Fin 32) (i : BitVec 9) (t : Ty) (s : State) : Host.Outcome State Fault Refusal := .next (s.pushVector (.shrVi d a i t) 0)

/-- SHR_SC at the slice (R111, R110). -/
def execShrSc (d a b : Fin 32) (t : Ty) (s : State) : Host.Outcome State Fault Refusal :=
  finish (s.scalarStep (wordOf (.shrSc d a b t)) false false (Instr.typeTrap (.shrSc d a b t)) (scInt .shr t 0 d.val a.val b.val))

/-- SHRA_VV in the lanes (R111). -/
def laneShraVv (d a b : Fin 32) (t : Ty) (c : XMod) (n : LEnv) : LaneAct :=
  n.int .shra t false d.val a.val (.reg b.val c)
/-- SHRA_VV at the slice: pushed (R24, R62). -/
def execShraVv (d a b : Fin 32) (t : Ty) (c : XMod) (s : State) : Host.Outcome State Fault Refusal := .next (s.pushVector (.shraVv d a b t c) 0)

/-- SHRA_VS in the lanes (R111). -/
def laneShraVs (d a _b : Fin 32) (t : Ty) (n : LEnv) : LaneAct :=
  n.int .shra t false d.val a.val .scal
/-- SHRA_VS at the slice: pushed (R24, R62). -/
def execShraVs (d a b : Fin 32) (t : Ty) (s : State) : Host.Outcome State Fault Refusal := .next (s.pushVector (.shraVs d a b t) (s.me.rx b.val))

/-- SHRA_VI in the lanes (R111). -/
def laneShraVi (d a : Fin 32) (i : BitVec 9) (t : Ty) (n : LEnv) : LaneAct :=
  n.int .shra t false d.val a.val (.imm i false)
/-- SHRA_VI at the slice: pushed (R24, R62). -/
def execShraVi (d a : Fin 32) (i : BitVec 9) (t : Ty) (s : State) : Host.Outcome State Fault Refusal := .next (s.pushVector (.shraVi d a i t) 0)

/-- SHRA_SC at the slice (R111, R110). -/
def execShraSc (d a b : Fin 32) (t : Ty) (s : State) : Host.Outcome State Fault Refusal :=
  finish (s.scalarStep (wordOf (.shraSc d a b t)) false false (Instr.typeTrap (.shraSc d a b t)) (scInt .shra t 0 d.val a.val b.val))

/-- MADD_VV in the lanes (R113). -/
def laneMaddVv (d a b : Fin 32) (t : Ty) (q : Fin 4) (c : XMod) (n : LEnv) : LaneAct :=
  n.int .madd t (decide (q.val = 1)) d.val a.val (.reg b.val c)
/-- MADD_VV at the slice: pushed (R24, R62). -/
def execMaddVv (d a b : Fin 32) (t : Ty) (q : Fin 4) (c : XMod) (s : State) : Host.Outcome State Fault Refusal := .next (s.pushVector (.maddVv d a b t q c) 0)

/-- MADD_VS in the lanes (R113). -/
def laneMaddVs (d a _b : Fin 32) (t : Ty) (q : Fin 4) (n : LEnv) : LaneAct :=
  n.int .madd t (decide (q.val = 1)) d.val a.val .scal
/-- MADD_VS at the slice: pushed (R24, R62). -/
def execMaddVs (d a b : Fin 32) (t : Ty) (q : Fin 4) (s : State) : Host.Outcome State Fault Refusal := .next (s.pushVector (.maddVs d a b t q) (s.me.rx b.val))

/-- MADD_VI in the lanes (R113). -/
def laneMaddVi (d a : Fin 32) (i : BitVec 9) (t : Ty) (n : LEnv) : LaneAct :=
  n.int .madd t false d.val a.val (.imm i false)
/-- MADD_VI at the slice: pushed (R24, R62). -/
def execMaddVi (d a : Fin 32) (i : BitVec 9) (t : Ty) (s : State) : Host.Outcome State Fault Refusal := .next (s.pushVector (.maddVi d a i t) 0)

/-- DIV_VV in the lanes (R112). -/
def laneDivVv (d a b : Fin 32) (t : Ty) (q : Fin 4) (c : XMod) (n : LEnv) : LaneAct :=
  n.int .div t (decide (q.val = 1)) d.val a.val (.reg b.val c)
/-- DIV_VV at the slice: pushed (R24, R62). -/
def execDivVv (d a b : Fin 32) (t : Ty) (q : Fin 4) (c : XMod) (s : State) : Host.Outcome State Fault Refusal := .next (s.pushVector (.divVv d a b t q c) 0)

/-- DIV_VS in the lanes (R112). -/
def laneDivVs (d a _b : Fin 32) (t : Ty) (q : Fin 4) (n : LEnv) : LaneAct :=
  n.int .div t (decide (q.val = 1)) d.val a.val .scal
/-- DIV_VS at the slice: pushed (R24, R62). -/
def execDivVs (d a b : Fin 32) (t : Ty) (q : Fin 4) (s : State) : Host.Outcome State Fault Refusal := .next (s.pushVector (.divVs d a b t q) (s.me.rx b.val))

/-- DIV_SC at the slice (R112, R110). -/
def execDivSc (d a b : Fin 32) (t : Ty) (q : Fin 4) (s : State) : Host.Outcome State Fault Refusal :=
  finish (s.scalarStep (wordOf (.divSc d a b t q)) false false (Instr.typeTrap (.divSc d a b t q)) (scInt .div t q.val d.val a.val b.val))

/-- REM_VV in the lanes (R112). -/
def laneRemVv (d a b : Fin 32) (t : Ty) (c : XMod) (n : LEnv) : LaneAct :=
  n.int .rem t false d.val a.val (.reg b.val c)
/-- REM_VV at the slice: pushed (R24, R62). -/
def execRemVv (d a b : Fin 32) (t : Ty) (c : XMod) (s : State) : Host.Outcome State Fault Refusal := .next (s.pushVector (.remVv d a b t c) 0)

/-- REM_VS in the lanes (R112). -/
def laneRemVs (d a _b : Fin 32) (t : Ty) (n : LEnv) : LaneAct :=
  n.int .rem t false d.val a.val .scal
/-- REM_VS at the slice: pushed (R24, R62). -/
def execRemVs (d a b : Fin 32) (t : Ty) (s : State) : Host.Outcome State Fault Refusal := .next (s.pushVector (.remVs d a b t) (s.me.rx b.val))

/-- REM_SC at the slice (R112, R110). -/
def execRemSc (d a b : Fin 32) (t : Ty) (s : State) : Host.Outcome State Fault Refusal :=
  finish (s.scalarStep (wordOf (.remSc d a b t)) false false (Instr.typeTrap (.remSc d a b t)) (scInt .rem t 0 d.val a.val b.val))

/-- RSHR_VV in the lanes (R111). -/
def laneRshrVv (d a b : Fin 32) (t : Ty) (c : XMod) (n : LEnv) : LaneAct :=
  n.int .rshr t false d.val a.val (.reg b.val c)
/-- RSHR_VV at the slice: pushed (R24, R62). -/
def execRshrVv (d a b : Fin 32) (t : Ty) (c : XMod) (s : State) : Host.Outcome State Fault Refusal := .next (s.pushVector (.rshrVv d a b t c) 0)

/-- RSHR_VS in the lanes (R111). -/
def laneRshrVs (d a _b : Fin 32) (t : Ty) (n : LEnv) : LaneAct :=
  n.int .rshr t false d.val a.val .scal
/-- RSHR_VS at the slice: pushed (R24, R62). -/
def execRshrVs (d a b : Fin 32) (t : Ty) (s : State) : Host.Outcome State Fault Refusal := .next (s.pushVector (.rshrVs d a b t) (s.me.rx b.val))

/-- RSHR_VI in the lanes (R111). -/
def laneRshrVi (d a : Fin 32) (i : BitVec 9) (t : Ty) (n : LEnv) : LaneAct :=
  n.int .rshr t false d.val a.val (.imm i false)
/-- RSHR_VI at the slice: pushed (R24, R62). -/
def execRshrVi (d a : Fin 32) (i : BitVec 9) (t : Ty) (s : State) : Host.Outcome State Fault Refusal := .next (s.pushVector (.rshrVi d a i t) 0)

/-- RSHR_SC at the slice (R111, R110). -/
def execRshrSc (d a b : Fin 32) (t : Ty) (s : State) : Host.Outcome State Fault Refusal :=
  finish (s.scalarStep (wordOf (.rshrSc d a b t)) false false (Instr.typeTrap (.rshrSc d a b t)) (scInt .rshr t 0 d.val a.val b.val))

/-- ANDN_VV in the lanes (R111). -/
def laneAndnVv (d a b : Fin 32) (t : Ty) (c : XMod) (n : LEnv) : LaneAct :=
  n.int .andn t false d.val a.val (.reg b.val c)
/-- ANDN_VV at the slice: pushed (R24, R62). -/
def execAndnVv (d a b : Fin 32) (t : Ty) (c : XMod) (s : State) : Host.Outcome State Fault Refusal := .next (s.pushVector (.andnVv d a b t c) 0)

/-- ANDN_VS in the lanes (R111). -/
def laneAndnVs (d a _b : Fin 32) (t : Ty) (n : LEnv) : LaneAct :=
  n.int .andn t false d.val a.val .scal
/-- ANDN_VS at the slice: pushed (R24, R62). -/
def execAndnVs (d a b : Fin 32) (t : Ty) (s : State) : Host.Outcome State Fault Refusal := .next (s.pushVector (.andnVs d a b t) (s.me.rx b.val))

/-- ANDN_VI in the lanes (R111). -/
def laneAndnVi (d a : Fin 32) (i : BitVec 9) (t : Ty) (n : LEnv) : LaneAct :=
  n.int .andn t false d.val a.val (.imm i true)
/-- ANDN_VI at the slice: pushed (R24, R62). -/
def execAndnVi (d a : Fin 32) (i : BitVec 9) (t : Ty) (s : State) : Host.Outcome State Fault Refusal := .next (s.pushVector (.andnVi d a i t) 0)

/-- ANDN_SC at the slice (R111, R110). -/
def execAndnSc (d a b : Fin 32) (t : Ty) (s : State) : Host.Outcome State Fault Refusal :=
  finish (s.scalarStep (wordOf (.andnSc d a b t)) false false (Instr.typeTrap (.andnSc d a b t)) (scInt .andn t 0 d.val a.val b.val))

/-- CLZ_VV in the lanes (R111). -/
def laneClzVv (d a : Fin 32) (t : Ty) (n : LEnv) : LaneAct :=
  n.int1 .clz t false d.val a.val
/-- CLZ_VV at the slice: pushed (R24, R62). -/
def execClzVv (d a : Fin 32) (t : Ty) (s : State) : Host.Outcome State Fault Refusal := .next (s.pushVector (.clzVv d a t) 0)

/-- CLZ_SC at the slice (R111, R110). -/
def execClzSc (d a : Fin 32) (t : Ty) (s : State) : Host.Outcome State Fault Refusal :=
  finish (s.scalarStep (wordOf (.clzSc d a t)) false false (Instr.typeTrap (.clzSc d a t)) (scInt .clz t 0 d.val a.val a.val))

/-- POPC_VV in the lanes (R111). -/
def lanePopcVv (d a : Fin 32) (t : Ty) (n : LEnv) : LaneAct :=
  n.int1 .popc t false d.val a.val
/-- POPC_VV at the slice: pushed (R24, R62). -/
def execPopcVv (d a : Fin 32) (t : Ty) (s : State) : Host.Outcome State Fault Refusal := .next (s.pushVector (.popcVv d a t) 0)

/-- POPC_SC at the slice (R111, R110). -/
def execPopcSc (d a : Fin 32) (t : Ty) (s : State) : Host.Outcome State Fault Refusal :=
  finish (s.scalarStep (wordOf (.popcSc d a t)) false false (Instr.typeTrap (.popcSc d a t)) (scInt .popc t 0 d.val a.val a.val))

/-- ABS_VV in the lanes (R111). -/
def laneAbsVv (d a : Fin 32) (t : Ty) (q : Fin 4) (n : LEnv) : LaneAct :=
  n.int1 .abs t (decide (q.val = 1)) d.val a.val
/-- ABS_VV at the slice: pushed (R24, R62). -/
def execAbsVv (d a : Fin 32) (t : Ty) (q : Fin 4) (s : State) : Host.Outcome State Fault Refusal := .next (s.pushVector (.absVv d a t q) 0)

/-- ABS_SC at the slice (R111, R110). -/
def execAbsSc (d a : Fin 32) (t : Ty) (q : Fin 4) (s : State) : Host.Outcome State Fault Refusal :=
  finish (s.scalarStep (wordOf (.absSc d a t q)) false false (Instr.typeTrap (.absSc d a t q)) (scInt .abs t q.val d.val a.val a.val))

/-- PICK_VV in the lanes (R114). -/
def lanePickVv (d a b : Fin 32) (t : Ty) (c : XMod) (n : LEnv) : LaneAct :=
  n.pick t d.val a.val (.reg b.val c)
/-- PICK_VV at the slice: pushed (R24, R62). -/
def execPickVv (d a b : Fin 32) (t : Ty) (c : XMod) (s : State) : Host.Outcome State Fault Refusal := .next (s.pushVector (.pickVv d a b t c) 0)

/-- PICK_VS in the lanes (R114). -/
def lanePickVs (d a _b : Fin 32) (t : Ty) (n : LEnv) : LaneAct :=
  n.pick t d.val a.val .scal
/-- PICK_VS at the slice: pushed (R24, R62). -/
def execPickVs (d a b : Fin 32) (t : Ty) (s : State) : Host.Outcome State Fault Refusal := .next (s.pushVector (.pickVs d a b t) (s.me.rx b.val))

/-- PICK_VI in the lanes (R114). -/
def lanePickVi (d a : Fin 32) (i : BitVec 9) (t : Ty) (n : LEnv) : LaneAct :=
  n.pick t d.val a.val (.imm i false)
/-- PICK_VI at the slice: pushed (R24, R62). -/
def execPickVi (d a : Fin 32) (i : BitVec 9) (t : Ty) (s : State) : Host.Outcome State Fault Refusal := .next (s.pushVector (.pickVi d a i t) 0)

/-- WMUL_VV in the lanes (R115). -/
def laneWmulVv (d a b : Fin 32) (t : Ty) (c : XMod) (n : LEnv) : LaneAct :=
  n.wmul t d.val a.val (.reg b.val c)
/-- WMUL_VV at the slice: pushed (R24, R62). -/
def execWmulVv (d a b : Fin 32) (t : Ty) (c : XMod) (s : State) : Host.Outcome State Fault Refusal := .next (s.pushVector (.wmulVv d a b t c) 0)

/-- WMAC_VV in the lanes (R116). -/
def laneWmacVv (d a b : Fin 32) (t : Ty) (q : Fin 4) (c : XMod) (n : LEnv) : LaneAct :=
  n.wmac t q.val d.val a.val (.reg b.val c)
/-- WMAC_VV at the slice: pushed (R24, R62). -/
def execWmacVv (d a b : Fin 32) (t : Ty) (q : Fin 4) (c : XMod) (s : State) : Host.Outcome State Fault Refusal := .next (s.pushVector (.wmacVv d a b t q c) 0)

/-- WMAC_VS in the lanes (R116). -/
def laneWmacVs (d a _b : Fin 32) (t : Ty) (q : Fin 4) (n : LEnv) : LaneAct :=
  n.wmac t q.val d.val a.val .scal
/-- WMAC_VS at the slice: pushed (R24, R62). -/
def execWmacVs (d a b : Fin 32) (t : Ty) (q : Fin 4) (s : State) : Host.Outcome State Fault Refusal := .next (s.pushVector (.wmacVs d a b t q) (s.me.rx b.val))

/-- NRSHR_VV in the lanes (R117). -/
def laneNrshrVv (d a b : Fin 32) (t : Ty) (c : XMod) (n : LEnv) : LaneAct :=
  n.nrshr t d.val a.val (.reg b.val c)
/-- NRSHR_VV at the slice: pushed (R24, R62). -/
def execNrshrVv (d a b : Fin 32) (t : Ty) (c : XMod) (s : State) : Host.Outcome State Fault Refusal := .next (s.pushVector (.nrshrVv d a b t c) 0)

/-- NRSHR_VS in the lanes (R117). -/
def laneNrshrVs (d a _b : Fin 32) (t : Ty) (n : LEnv) : LaneAct :=
  n.nrshr t d.val a.val .scal
/-- NRSHR_VS at the slice: pushed (R24, R62). -/
def execNrshrVs (d a b : Fin 32) (t : Ty) (s : State) : Host.Outcome State Fault Refusal := .next (s.pushVector (.nrshrVs d a b t) (s.me.rx b.val))

/-- NRSHR_VI in the lanes (R117). -/
def laneNrshrVi (d a : Fin 32) (i : BitVec 9) (t : Ty) (n : LEnv) : LaneAct :=
  n.nrshr t d.val a.val (.imm i false)
/-- NRSHR_VI at the slice: pushed (R24, R62). -/
def execNrshrVi (d a : Fin 32) (i : BitVec 9) (t : Ty) (s : State) : Host.Outcome State Fault Refusal := .next (s.pushVector (.nrshrVi d a i t) 0)

end Sys2Proof.Machine
end

