-- ==== Sys2Proof/Machine/Float.lean ====
section
/-! DEFINITION. Float instructions of the lanes and their sc forms (R118 to R124). -/

namespace Sys2Proof.Machine

/-- The rounded float operations of R118. -/
inductive FOp where
  | add | sub | mul | fma | fnms | fnma | div | sqrt | rcp | rsq
  deriving DecidableEq, Repr

/-- A value to round: the value itself, whether the magnitude lies just above it, and NV and DZ (R119). -/
structure FExact where
  v : FVal
  sticky : Bool
  nv : Bool
  dz : Bool
  deriving DecidableEq, Repr

/-- An exact value with its NV. -/
def FExact.of (p : FVal × Bool) : FExact := { v := p.1, sticky := false, nv := p.2, dz := false }
/-- A NaN from a NaN operand: no flag (R37). -/
def FExact.quiet : FExact := { v := .nan, sticky := false, nv := false, dz := false }
/-- A magnitude with a sign. -/
def FExact.mag (neg : Bool) (m : Mag) : FExact := { v := .fin neg m.m m.e, sticky := m.sticky, nv := false, dz := false }

/-- a / b (R119). -/
def divExact (a b : FVal) : FExact :=
  let s := a.sign != b.sign
  if a.isNan || b.isNan then .quiet
  else if (a.isZero && b.isZero) || (a.isInf && b.isInf) then .of (.nan, true)
  else if b.isZero then { v := .inf s, sticky := false, nv := false, dz := !a.isInf }
  else if a.isInf then .of (.inf s, false)
  else if a.isZero || b.isInf then .of (.fin s 0 0, false)
  else
    match a, b with
    | .fin _ m e, .fin _ n f => .mag s (divMag m n e f)
    | _, _ => .quiet

/-- √a (R119). -/
def sqrtExact (a : FVal) : FExact :=
  match a with
  | .nan => .quiet
  | .inf s => if s then .of (.nan, true) else .of (.inf false, false)
  | .fin s m e => if m = 0 then .of (.fin s 0 0, false) else if s then .of (.nan, true) else .mag false (sqrtMag m e)

/-- 1 / √a (R119). -/
def rsqExact (a : FVal) : FExact :=
  match a with
  | .nan => .quiet
  | .inf s => if s then .of (.nan, true) else .of (.fin false 0 0, false)
  | .fin s m e =>
    if m = 0 then { v := .inf s, sticky := false, nv := false, dz := true }
    else if s then .of (.nan, true) else .mag false (rsqrtMag m e)

/-- ±(a × b) ± d with the product never rounded before the sum (R118); `slices` limits an F64S product (R120, R167). -/
def fusedExact (slices : Nat) (rdn negP negD : Bool) (a b d : FVal) : FExact :=
  if a.isNan || b.isNan || d.isNan then .quiet
  else
    let p := mulSlices slices a b
    let q := addExact rdn (if negP then p.1.neg else p.1) (if negD then d.neg else d)
    .of (q.1, p.2 || q.2)

/-- The exact result of an operation (R118, R119). -/
def floatExact (o : FOp) (slices : Nat) (rdn : Bool) (a b d : FVal) : FExact :=
  match o with
  | .add => .of (addExact rdn a b)
  | .sub => .of (addExact rdn a b.neg)
  | .mul => .of (mulSlices slices a b)
  | .fma => fusedExact slices rdn false false a b d
  | .fnms => fusedExact slices rdn true false a b d
  | .fnma => fusedExact slices rdn true true a b d
  | .div => divExact a b
  | .sqrt => sqrtExact a
  | .rcp => divExact (.fin false 1 0) a
  | .rsq => rsqExact a

/-- One rounded element with its flags and draw (R118). -/
def floatOp (o : FOp) (t : Ty) (slices : Nat) (env : REnv) (a b d : FVal) : Nat × REnv :=
  let x := floatExact o (if t == .f64s then slices else 7) (decide (env.mode = .rdn)) a b d
  roundTo t false ((env.raiseNv x.nv).raiseDz x.dz) x.v x.sticky

/-- A rounded float entry (R105, R118). -/
def LEnv.flt (n : LEnv) (o : FOp) (t : Ty) (q d a : Nat) (b : BOp) : LaneAct :=
  let g := groupOf t.bits
  n.elemwise [n.count t] g fun acc e =>
    let r := floatOp o t n.l.slices.toNat (acc.env (n.l.mode q)) (decodeFloat t (n.l.rd a t.bits e))
      (n.bVal t g b e) (decodeFloat t (n.l.rd d t.bits e))
    (acc.wr d t.bits e r.1).keep r.2

/-- A rounded F32 sc form: no flag, the upper half zero (R110). -/
def scFlt (o : FOp) (q d a b : Nat) (s : State) : Res State :=
  let v := fun i => decodeFloat .f32 ((s.me.rx i).toNat % 2 ^ 32)
  .ok (s.putX d (BitVec.ofNat 64 (floatOp o .f32 7 (scEnv q) (v a) (v b) (v d)).1))

/-- FMIN and FMAX on encodings: a lone NaN gives the other operand, −0 lies below +0, nothing rounds (R119). -/
def fminmax (isMax : Bool) (t : Ty) (a b : Nat) : Nat :=
  let x := decodeFloat t a
  let y := decodeFloat t b
  if x.isNan then (if y.isNan then canonNan t else b)
  else if y.isNan then a
  else
    let less := x.lt y || (x.isZero && y.isZero && x.sign && !y.sign)
    if isMax then (if less then b else a) else (if less then a else if y.lt x || (y.sign && !x.sign) then b else a)

/-- An FMIN or FMAX entry (R119). -/
def LEnv.fmm (n : LEnv) (isMax : Bool) (t : Ty) (d a : Nat) (b : BOp) : LaneAct :=
  let g := groupOf t.bits
  n.elemwise [n.count t] g fun acc e => acc.wr d t.bits e (fminmax isMax t (n.l.rd a t.bits e) (n.bBits t g b e))

/-- An FMIN or FMAX sc form (R110, R119). -/
def scFmm (isMax : Bool) (d a b : Nat) (s : State) : Res State :=
  .ok (s.putX d (BitVec.ofNat 64 (fminmax isMax .f32 ((s.me.rx a).toNat % 2 ^ 32) ((s.me.rx b).toNat % 2 ^ 32))))

/-- a × 2^k rounded; beyond ±5,000 the exponent changes no result of any format (R121). -/
def fscale (t : Ty) (env : REnv) (a : FVal) (k : Int) : Nat × REnv :=
  roundExact t env (a.scale (max (-5000) (min 5000 k)))

/-- An FSCALE entry: the exponent is an integer in every form (R121). -/
def LEnv.fsc (n : LEnv) (t : Ty) (q d a : Nat) (b : BOp) : LaneAct :=
  let g := groupOf t.bits
  n.elemwise [n.count t] g fun acc e =>
    let k : Int :=
      match b with
      | .reg _ _ => toSigned t.bits (n.bBits t g b e)
      | .scal => toSigned 64 n.x.toNat
      | .imm i _ => toSigned 9 i.toNat
    let r := fscale t (acc.env (n.l.mode q)) (decodeFloat t (n.l.rd a t.bits e)) k
    (acc.wr d t.bits e r.1).keep r.2

/-- Round to an integral value of the same format, keeping the sign (R122). -/
def frint (t : Ty) (env : REnv) (a : FVal) : Nat × REnv :=
  let d := env.draw
  match a with
  | .fin s m e =>
    let r := roundMag env.mode s d.2 { m := m, e := e, sticky := false } 0
    ((roundTo t false { mode := .rne, seed := 1, flags := FlagWord.reset } (.fin s r.1 0) false).1, d.1.raiseNx r.2)
  | _ => ((roundTo t false { mode := .rne, seed := 1, flags := FlagWord.reset } a false).1, d.1)

/-- An FRINT entry (R122). -/
def LEnv.frnt (n : LEnv) (t : Ty) (q d a : Nat) : LaneAct :=
  n.elemwise [n.count t] (groupOf t.bits) fun acc e =>
    let r := frint t (acc.env (n.l.mode q)) (decodeFloat t (n.l.rd a t.bits e))
    (acc.wr d t.bits e r.1).keep r.2

/-- The class bit of an encoding (R123). -/
def fclass (t : Ty) (a : Nat) : Nat :=
  let neg := a / signBit t % 2 == 1
  let e := a / 2 ^ fracBits t % 2 ^ expBits t
  match decodeFloat t a with
  | .nan => 2 ^ 8
  | .inf s => if s then 2 ^ 0 else 2 ^ 7
  | .fin _ m _ =>
    if m = 0 then (if neg then 2 ^ 3 else 2 ^ 4)
    else if e = 0 then (if neg then 2 ^ 2 else 2 ^ 5) else (if neg then 2 ^ 1 else 2 ^ 6)

/-- An FCLASS entry (R123). -/
def LEnv.fcls (n : LEnv) (t : Ty) (d a : Nat) : LaneAct :=
  n.elemwise [n.count t] (groupOf t.bits) fun acc e => acc.wr d t.bits e (fclass t (n.l.rd a t.bits e))

/-- The FCLASS sc form (R123). -/
def scFclass (d a : Nat) (s : State) : Res State :=
  .ok (s.putX d (BitVec.ofNat 64 (fclass .f32 ((s.me.rx a).toNat % 2 ^ 32))))

/-- An encoding with its sign bit replaced; a NaN gives the positive canonical NaN (R37, R124). -/
def withSign (t : Ty) (neg : Bool) (a : Nat) : Nat :=
  if (decodeFloat t a).isNan then canonNan t else a % signBit t + b2n neg * signBit t

/-- The sign bit of an encoding. -/
def signOf (t : Ty) (a : Nat) : Bool := decide (a / signBit t % 2 = 1)

/-- An FSGN entry: `f` gives the new sign from the signs of A[e] and B[e] (R124). -/
def LEnv.fsgn (n : LEnv) (t : Ty) (d a b : Nat) (f : Bool → Bool → Bool) : LaneAct :=
  n.elemwise [n.count t] (groupOf t.bits) fun acc e =>
    let x := n.l.rd a t.bits e
    acc.wr d t.bits e (withSign t (f (signOf t x) (signOf t (n.l.rd b t.bits e))) x)

/-- FADD_VV in the lanes (R118). -/
def laneFaddVv (d a b : Fin 32) (t : Ty) (q : Fin 4) (c : XMod) (n : LEnv) : LaneAct :=
  n.flt .add t q.val d.val a.val (.reg b.val c)
/-- FADD_VV at the slice: pushed (R24, R62). -/
def execFaddVv (d a b : Fin 32) (t : Ty) (q : Fin 4) (c : XMod) (s : State) : Host.Outcome State Fault Refusal := .next (s.pushVector (.faddVv d a b t q c) 0)

/-- FADD_VS in the lanes (R118). -/
def laneFaddVs (d a _b : Fin 32) (t : Ty) (q : Fin 4) (n : LEnv) : LaneAct :=
  n.flt .add t q.val d.val a.val .scal
/-- FADD_VS at the slice: pushed (R24, R62). -/
def execFaddVs (d a b : Fin 32) (t : Ty) (q : Fin 4) (s : State) : Host.Outcome State Fault Refusal := .next (s.pushVector (.faddVs d a b t q) (s.me.rx b.val))

/-- FADD_VI in the lanes (R118). -/
def laneFaddVi (d a : Fin 32) (i : BitVec 9) (t : Ty) (n : LEnv) : LaneAct :=
  n.flt .add t 0 d.val a.val (.imm i false)
/-- FADD_VI at the slice: pushed (R24, R62). -/
def execFaddVi (d a : Fin 32) (i : BitVec 9) (t : Ty) (s : State) : Host.Outcome State Fault Refusal := .next (s.pushVector (.faddVi d a i t) 0)

/-- FADD_SC at the slice (R118, R110). -/
def execFaddSc (d a b : Fin 32) (t : Ty) (q : Fin 4) (s : State) : Host.Outcome State Fault Refusal :=
  finish (s.scalarStep (wordOf (.faddSc d a b t q)) false false (Instr.typeTrap (.faddSc d a b t q)) (scFlt .add q.val d.val a.val b.val))

/-- FSUB_VV in the lanes (R118). -/
def laneFsubVv (d a b : Fin 32) (t : Ty) (q : Fin 4) (c : XMod) (n : LEnv) : LaneAct :=
  n.flt .sub t q.val d.val a.val (.reg b.val c)
/-- FSUB_VV at the slice: pushed (R24, R62). -/
def execFsubVv (d a b : Fin 32) (t : Ty) (q : Fin 4) (c : XMod) (s : State) : Host.Outcome State Fault Refusal := .next (s.pushVector (.fsubVv d a b t q c) 0)

/-- FSUB_VS in the lanes (R118). -/
def laneFsubVs (d a _b : Fin 32) (t : Ty) (q : Fin 4) (n : LEnv) : LaneAct :=
  n.flt .sub t q.val d.val a.val .scal
/-- FSUB_VS at the slice: pushed (R24, R62). -/
def execFsubVs (d a b : Fin 32) (t : Ty) (q : Fin 4) (s : State) : Host.Outcome State Fault Refusal := .next (s.pushVector (.fsubVs d a b t q) (s.me.rx b.val))

/-- FSUB_VI in the lanes (R118). -/
def laneFsubVi (d a : Fin 32) (i : BitVec 9) (t : Ty) (n : LEnv) : LaneAct :=
  n.flt .sub t 0 d.val a.val (.imm i false)
/-- FSUB_VI at the slice: pushed (R24, R62). -/
def execFsubVi (d a : Fin 32) (i : BitVec 9) (t : Ty) (s : State) : Host.Outcome State Fault Refusal := .next (s.pushVector (.fsubVi d a i t) 0)

/-- FSUB_SC at the slice (R118, R110). -/
def execFsubSc (d a b : Fin 32) (t : Ty) (q : Fin 4) (s : State) : Host.Outcome State Fault Refusal :=
  finish (s.scalarStep (wordOf (.fsubSc d a b t q)) false false (Instr.typeTrap (.fsubSc d a b t q)) (scFlt .sub q.val d.val a.val b.val))

/-- FMUL_VV in the lanes (R118). -/
def laneFmulVv (d a b : Fin 32) (t : Ty) (q : Fin 4) (c : XMod) (n : LEnv) : LaneAct :=
  n.flt .mul t q.val d.val a.val (.reg b.val c)
/-- FMUL_VV at the slice: pushed (R24, R62). -/
def execFmulVv (d a b : Fin 32) (t : Ty) (q : Fin 4) (c : XMod) (s : State) : Host.Outcome State Fault Refusal := .next (s.pushVector (.fmulVv d a b t q c) 0)

/-- FMUL_VS in the lanes (R118). -/
def laneFmulVs (d a _b : Fin 32) (t : Ty) (q : Fin 4) (n : LEnv) : LaneAct :=
  n.flt .mul t q.val d.val a.val .scal
/-- FMUL_VS at the slice: pushed (R24, R62). -/
def execFmulVs (d a b : Fin 32) (t : Ty) (q : Fin 4) (s : State) : Host.Outcome State Fault Refusal := .next (s.pushVector (.fmulVs d a b t q) (s.me.rx b.val))

/-- FMUL_VI in the lanes (R118). -/
def laneFmulVi (d a : Fin 32) (i : BitVec 9) (t : Ty) (n : LEnv) : LaneAct :=
  n.flt .mul t 0 d.val a.val (.imm i false)
/-- FMUL_VI at the slice: pushed (R24, R62). -/
def execFmulVi (d a : Fin 32) (i : BitVec 9) (t : Ty) (s : State) : Host.Outcome State Fault Refusal := .next (s.pushVector (.fmulVi d a i t) 0)

/-- FMUL_SC at the slice (R118, R110). -/
def execFmulSc (d a b : Fin 32) (t : Ty) (q : Fin 4) (s : State) : Host.Outcome State Fault Refusal :=
  finish (s.scalarStep (wordOf (.fmulSc d a b t q)) false false (Instr.typeTrap (.fmulSc d a b t q)) (scFlt .mul q.val d.val a.val b.val))

/-- FMA_VV in the lanes (R118). -/
def laneFmaVv (d a b : Fin 32) (t : Ty) (q : Fin 4) (c : XMod) (n : LEnv) : LaneAct :=
  n.flt .fma t q.val d.val a.val (.reg b.val c)
/-- FMA_VV at the slice: pushed (R24, R62). -/
def execFmaVv (d a b : Fin 32) (t : Ty) (q : Fin 4) (c : XMod) (s : State) : Host.Outcome State Fault Refusal := .next (s.pushVector (.fmaVv d a b t q c) 0)

/-- FMA_VS in the lanes (R118). -/
def laneFmaVs (d a _b : Fin 32) (t : Ty) (q : Fin 4) (n : LEnv) : LaneAct :=
  n.flt .fma t q.val d.val a.val .scal
/-- FMA_VS at the slice: pushed (R24, R62). -/
def execFmaVs (d a b : Fin 32) (t : Ty) (q : Fin 4) (s : State) : Host.Outcome State Fault Refusal := .next (s.pushVector (.fmaVs d a b t q) (s.me.rx b.val))

/-- FMA_VI in the lanes (R118). -/
def laneFmaVi (d a : Fin 32) (i : BitVec 9) (t : Ty) (n : LEnv) : LaneAct :=
  n.flt .fma t 0 d.val a.val (.imm i false)
/-- FMA_VI at the slice: pushed (R24, R62). -/
def execFmaVi (d a : Fin 32) (i : BitVec 9) (t : Ty) (s : State) : Host.Outcome State Fault Refusal := .next (s.pushVector (.fmaVi d a i t) 0)

/-- FMA_SC at the slice (R118, R110). -/
def execFmaSc (d a b : Fin 32) (t : Ty) (q : Fin 4) (s : State) : Host.Outcome State Fault Refusal :=
  finish (s.scalarStep (wordOf (.fmaSc d a b t q)) false false (Instr.typeTrap (.fmaSc d a b t q)) (scFlt .fma q.val d.val a.val b.val))

/-- FNMS_VV in the lanes (R118). -/
def laneFnmsVv (d a b : Fin 32) (t : Ty) (q : Fin 4) (c : XMod) (n : LEnv) : LaneAct :=
  n.flt .fnms t q.val d.val a.val (.reg b.val c)
/-- FNMS_VV at the slice: pushed (R24, R62). -/
def execFnmsVv (d a b : Fin 32) (t : Ty) (q : Fin 4) (c : XMod) (s : State) : Host.Outcome State Fault Refusal := .next (s.pushVector (.fnmsVv d a b t q c) 0)

/-- FNMS_VS in the lanes (R118). -/
def laneFnmsVs (d a _b : Fin 32) (t : Ty) (q : Fin 4) (n : LEnv) : LaneAct :=
  n.flt .fnms t q.val d.val a.val .scal
/-- FNMS_VS at the slice: pushed (R24, R62). -/
def execFnmsVs (d a b : Fin 32) (t : Ty) (q : Fin 4) (s : State) : Host.Outcome State Fault Refusal := .next (s.pushVector (.fnmsVs d a b t q) (s.me.rx b.val))

/-- FNMS_VI in the lanes (R118). -/
def laneFnmsVi (d a : Fin 32) (i : BitVec 9) (t : Ty) (n : LEnv) : LaneAct :=
  n.flt .fnms t 0 d.val a.val (.imm i false)
/-- FNMS_VI at the slice: pushed (R24, R62). -/
def execFnmsVi (d a : Fin 32) (i : BitVec 9) (t : Ty) (s : State) : Host.Outcome State Fault Refusal := .next (s.pushVector (.fnmsVi d a i t) 0)

/-- FNMS_SC at the slice (R118, R110). -/
def execFnmsSc (d a b : Fin 32) (t : Ty) (q : Fin 4) (s : State) : Host.Outcome State Fault Refusal :=
  finish (s.scalarStep (wordOf (.fnmsSc d a b t q)) false false (Instr.typeTrap (.fnmsSc d a b t q)) (scFlt .fnms q.val d.val a.val b.val))

/-- FNMA_VV in the lanes (R118). -/
def laneFnmaVv (d a b : Fin 32) (t : Ty) (q : Fin 4) (c : XMod) (n : LEnv) : LaneAct :=
  n.flt .fnma t q.val d.val a.val (.reg b.val c)
/-- FNMA_VV at the slice: pushed (R24, R62). -/
def execFnmaVv (d a b : Fin 32) (t : Ty) (q : Fin 4) (c : XMod) (s : State) : Host.Outcome State Fault Refusal := .next (s.pushVector (.fnmaVv d a b t q c) 0)

/-- FNMA_VS in the lanes (R118). -/
def laneFnmaVs (d a _b : Fin 32) (t : Ty) (q : Fin 4) (n : LEnv) : LaneAct :=
  n.flt .fnma t q.val d.val a.val .scal
/-- FNMA_VS at the slice: pushed (R24, R62). -/
def execFnmaVs (d a b : Fin 32) (t : Ty) (q : Fin 4) (s : State) : Host.Outcome State Fault Refusal := .next (s.pushVector (.fnmaVs d a b t q) (s.me.rx b.val))

/-- FNMA_VI in the lanes (R118). -/
def laneFnmaVi (d a : Fin 32) (i : BitVec 9) (t : Ty) (n : LEnv) : LaneAct :=
  n.flt .fnma t 0 d.val a.val (.imm i false)
/-- FNMA_VI at the slice: pushed (R24, R62). -/
def execFnmaVi (d a : Fin 32) (i : BitVec 9) (t : Ty) (s : State) : Host.Outcome State Fault Refusal := .next (s.pushVector (.fnmaVi d a i t) 0)

/-- FNMA_SC at the slice (R118, R110). -/
def execFnmaSc (d a b : Fin 32) (t : Ty) (q : Fin 4) (s : State) : Host.Outcome State Fault Refusal :=
  finish (s.scalarStep (wordOf (.fnmaSc d a b t q)) false false (Instr.typeTrap (.fnmaSc d a b t q)) (scFlt .fnma q.val d.val a.val b.val))

/-- FDIV_VV in the lanes (R118). -/
def laneFdivVv (d a b : Fin 32) (t : Ty) (q : Fin 4) (c : XMod) (n : LEnv) : LaneAct :=
  n.flt .div t q.val d.val a.val (.reg b.val c)
/-- FDIV_VV at the slice: pushed (R24, R62). -/
def execFdivVv (d a b : Fin 32) (t : Ty) (q : Fin 4) (c : XMod) (s : State) : Host.Outcome State Fault Refusal := .next (s.pushVector (.fdivVv d a b t q c) 0)

/-- FDIV_SC at the slice (R118, R110). -/
def execFdivSc (d a b : Fin 32) (t : Ty) (q : Fin 4) (s : State) : Host.Outcome State Fault Refusal :=
  finish (s.scalarStep (wordOf (.fdivSc d a b t q)) false false (Instr.typeTrap (.fdivSc d a b t q)) (scFlt .div q.val d.val a.val b.val))

/-- FSQRT_VV in the lanes (R118). -/
def laneFsqrtVv (d a : Fin 32) (t : Ty) (q : Fin 4) (n : LEnv) : LaneAct :=
  n.flt .sqrt t q.val d.val a.val (.reg a.val .none)
/-- FSQRT_VV at the slice: pushed (R24, R62). -/
def execFsqrtVv (d a : Fin 32) (t : Ty) (q : Fin 4) (s : State) : Host.Outcome State Fault Refusal := .next (s.pushVector (.fsqrtVv d a t q) 0)

/-- FSQRT_SC at the slice (R118, R110). -/
def execFsqrtSc (d a : Fin 32) (t : Ty) (q : Fin 4) (s : State) : Host.Outcome State Fault Refusal :=
  finish (s.scalarStep (wordOf (.fsqrtSc d a t q)) false false (Instr.typeTrap (.fsqrtSc d a t q)) (scFlt .sqrt q.val d.val a.val a.val))

/-- FRCP_VV in the lanes (R118). -/
def laneFrcpVv (d a : Fin 32) (t : Ty) (q : Fin 4) (n : LEnv) : LaneAct :=
  n.flt .rcp t q.val d.val a.val (.reg a.val .none)
/-- FRCP_VV at the slice: pushed (R24, R62). -/
def execFrcpVv (d a : Fin 32) (t : Ty) (q : Fin 4) (s : State) : Host.Outcome State Fault Refusal := .next (s.pushVector (.frcpVv d a t q) 0)

/-- FRCP_SC at the slice (R118, R110). -/
def execFrcpSc (d a : Fin 32) (t : Ty) (q : Fin 4) (s : State) : Host.Outcome State Fault Refusal :=
  finish (s.scalarStep (wordOf (.frcpSc d a t q)) false false (Instr.typeTrap (.frcpSc d a t q)) (scFlt .rcp q.val d.val a.val a.val))

/-- FRSQ_VV in the lanes (R118). -/
def laneFrsqVv (d a : Fin 32) (t : Ty) (q : Fin 4) (n : LEnv) : LaneAct :=
  n.flt .rsq t q.val d.val a.val (.reg a.val .none)
/-- FRSQ_VV at the slice: pushed (R24, R62). -/
def execFrsqVv (d a : Fin 32) (t : Ty) (q : Fin 4) (s : State) : Host.Outcome State Fault Refusal := .next (s.pushVector (.frsqVv d a t q) 0)

/-- FRSQ_SC at the slice (R118, R110). -/
def execFrsqSc (d a : Fin 32) (t : Ty) (q : Fin 4) (s : State) : Host.Outcome State Fault Refusal :=
  finish (s.scalarStep (wordOf (.frsqSc d a t q)) false false (Instr.typeTrap (.frsqSc d a t q)) (scFlt .rsq q.val d.val a.val a.val))

/-- FMIN_VV in the lanes (R119). -/
def laneFminVv (d a b : Fin 32) (t : Ty) (c : XMod) (n : LEnv) : LaneAct :=
  n.fmm false t d.val a.val (.reg b.val c)
/-- FMIN_VV at the slice: pushed (R24, R62). -/
def execFminVv (d a b : Fin 32) (t : Ty) (c : XMod) (s : State) : Host.Outcome State Fault Refusal := .next (s.pushVector (.fminVv d a b t c) 0)

/-- FMIN_VS in the lanes (R119). -/
def laneFminVs (d a _b : Fin 32) (t : Ty) (n : LEnv) : LaneAct :=
  n.fmm false t d.val a.val .scal
/-- FMIN_VS at the slice: pushed (R24, R62). -/
def execFminVs (d a b : Fin 32) (t : Ty) (s : State) : Host.Outcome State Fault Refusal := .next (s.pushVector (.fminVs d a b t) (s.me.rx b.val))

/-- FMIN_VI in the lanes (R119). -/
def laneFminVi (d a : Fin 32) (i : BitVec 9) (t : Ty) (n : LEnv) : LaneAct :=
  n.fmm false t d.val a.val (.imm i false)
/-- FMIN_VI at the slice: pushed (R24, R62). -/
def execFminVi (d a : Fin 32) (i : BitVec 9) (t : Ty) (s : State) : Host.Outcome State Fault Refusal := .next (s.pushVector (.fminVi d a i t) 0)

/-- FMIN_SC at the slice (R119, R110). -/
def execFminSc (d a b : Fin 32) (t : Ty) (s : State) : Host.Outcome State Fault Refusal :=
  finish (s.scalarStep (wordOf (.fminSc d a b t)) false false (Instr.typeTrap (.fminSc d a b t)) (scFmm false d.val a.val b.val))

/-- FMAX_VV in the lanes (R119). -/
def laneFmaxVv (d a b : Fin 32) (t : Ty) (c : XMod) (n : LEnv) : LaneAct :=
  n.fmm true t d.val a.val (.reg b.val c)
/-- FMAX_VV at the slice: pushed (R24, R62). -/
def execFmaxVv (d a b : Fin 32) (t : Ty) (c : XMod) (s : State) : Host.Outcome State Fault Refusal := .next (s.pushVector (.fmaxVv d a b t c) 0)

/-- FMAX_VS in the lanes (R119). -/
def laneFmaxVs (d a _b : Fin 32) (t : Ty) (n : LEnv) : LaneAct :=
  n.fmm true t d.val a.val .scal
/-- FMAX_VS at the slice: pushed (R24, R62). -/
def execFmaxVs (d a b : Fin 32) (t : Ty) (s : State) : Host.Outcome State Fault Refusal := .next (s.pushVector (.fmaxVs d a b t) (s.me.rx b.val))

/-- FMAX_VI in the lanes (R119). -/
def laneFmaxVi (d a : Fin 32) (i : BitVec 9) (t : Ty) (n : LEnv) : LaneAct :=
  n.fmm true t d.val a.val (.imm i false)
/-- FMAX_VI at the slice: pushed (R24, R62). -/
def execFmaxVi (d a : Fin 32) (i : BitVec 9) (t : Ty) (s : State) : Host.Outcome State Fault Refusal := .next (s.pushVector (.fmaxVi d a i t) 0)

/-- FMAX_SC at the slice (R119, R110). -/
def execFmaxSc (d a b : Fin 32) (t : Ty) (s : State) : Host.Outcome State Fault Refusal :=
  finish (s.scalarStep (wordOf (.fmaxSc d a b t)) false false (Instr.typeTrap (.fmaxSc d a b t)) (scFmm true d.val a.val b.val))

/-- FSCALE_VV in the lanes (R121). -/
def laneFscaleVv (d a b : Fin 32) (t : Ty) (q : Fin 4) (c : XMod) (n : LEnv) : LaneAct :=
  n.fsc t q.val d.val a.val (.reg b.val c)
/-- FSCALE_VV at the slice: pushed (R24, R62). -/
def execFscaleVv (d a b : Fin 32) (t : Ty) (q : Fin 4) (c : XMod) (s : State) : Host.Outcome State Fault Refusal := .next (s.pushVector (.fscaleVv d a b t q c) 0)

/-- FSCALE_VS in the lanes (R121). -/
def laneFscaleVs (d a _b : Fin 32) (t : Ty) (q : Fin 4) (n : LEnv) : LaneAct :=
  n.fsc t q.val d.val a.val .scal
/-- FSCALE_VS at the slice: pushed (R24, R62). -/
def execFscaleVs (d a b : Fin 32) (t : Ty) (q : Fin 4) (s : State) : Host.Outcome State Fault Refusal := .next (s.pushVector (.fscaleVs d a b t q) (s.me.rx b.val))

/-- FSCALE_VI in the lanes (R121). -/
def laneFscaleVi (d a : Fin 32) (i : BitVec 9) (t : Ty) (n : LEnv) : LaneAct :=
  n.fsc t 0 d.val a.val (.imm i false)
/-- FSCALE_VI at the slice: pushed (R24, R62). -/
def execFscaleVi (d a : Fin 32) (i : BitVec 9) (t : Ty) (s : State) : Host.Outcome State Fault Refusal := .next (s.pushVector (.fscaleVi d a i t) 0)

/-- FRINT_VV in the lanes (R122). -/
def laneFrintVv (d a : Fin 32) (t : Ty) (q : Fin 4) (n : LEnv) : LaneAct :=
  n.frnt t q.val d.val a.val
/-- FRINT_VV at the slice: pushed (R24, R62). -/
def execFrintVv (d a : Fin 32) (t : Ty) (q : Fin 4) (s : State) : Host.Outcome State Fault Refusal := .next (s.pushVector (.frintVv d a t q) 0)

/-- FCLASS_VV in the lanes (R123). -/
def laneFclassVv (d a : Fin 32) (t : Ty) (n : LEnv) : LaneAct :=
  n.fcls t d.val a.val
/-- FCLASS_VV at the slice: pushed (R24, R62). -/
def execFclassVv (d a : Fin 32) (t : Ty) (s : State) : Host.Outcome State Fault Refusal := .next (s.pushVector (.fclassVv d a t) 0)

/-- FCLASS_SC at the slice (R123, R110). -/
def execFclassSc (d a : Fin 32) (t : Ty) (s : State) : Host.Outcome State Fault Refusal :=
  finish (s.scalarStep (wordOf (.fclassSc d a t)) false false (Instr.typeTrap (.fclassSc d a t)) (scFclass d.val a.val))

/-- FSGN_ABS in the lanes (R124). -/
def laneFsgnAbs (d a : Fin 32) (t : Ty) (n : LEnv) : LaneAct :=
  n.fsgn t d.val a.val a.val fun _ _ => false
/-- FSGN_ABS at the slice: pushed (R24, R62). -/
def execFsgnAbs (d a : Fin 32) (t : Ty) (s : State) : Host.Outcome State Fault Refusal := .next (s.pushVector (.fsgnAbs d a t) 0)

/-- FSGN_NEG in the lanes (R124). -/
def laneFsgnNeg (d a : Fin 32) (t : Ty) (n : LEnv) : LaneAct :=
  n.fsgn t d.val a.val a.val fun x _ => !x
/-- FSGN_NEG at the slice: pushed (R24, R62). -/
def execFsgnNeg (d a : Fin 32) (t : Ty) (s : State) : Host.Outcome State Fault Refusal := .next (s.pushVector (.fsgnNeg d a t) 0)

/-- FSGN_COPY in the lanes (R124). -/
def laneFsgnCopy (d a b : Fin 32) (t : Ty) (n : LEnv) : LaneAct :=
  n.fsgn t d.val a.val b.val fun _ y => y
/-- FSGN_COPY at the slice: pushed (R24, R62). -/
def execFsgnCopy (d a b : Fin 32) (t : Ty) (s : State) : Host.Outcome State Fault Refusal := .next (s.pushVector (.fsgnCopy d a b t) 0)

end Sys2Proof.Machine
end

