-- ==== Sys2Proof/Machine/Convert.lean ====
section
/-! DEFINITION. Conversions, block scales and codebooks (R49 to R51, R125 to R130). -/

namespace Sys2Proof.Machine

/-- Rounding qualifier of a conversion: MOD[3:2], or 0 with a C4 operand (R125). -/
def cvtQ (t s : Ty) (m : Nat) : Nat := if t == .c4 || s == .c4 then 0 else m / 4
/-- .SAT of a conversion (R125). -/
def cvtSat (t s : Ty) (m : Nat) : Bool := !(t == .c4 || s == .c4) && decide (m % 2 = 1)
/-- Codebook of a conversion (R125). -/
def cvtBook (m : Nat) : Nat := m % 8

/-- An integer as an exact value. -/
def ofInt (z : Int) : FVal := .fin (decide (z < 0)) z.natAbs 0

/-- Convert an integer (R49). -/
def convInt (t : Ty) (s : Ty) (sat : Bool) (env : REnv) (x : Nat) : Nat × REnv :=
  if t.isInt then
    let r := fitInt t sat (intVal s x)
    (r.1, env.raiseSat r.2)
  else roundTo t sat env (ofInt (intVal s x)) false

/-- Convert a float value (R49). -/
def convFloat (t : Ty) (sat : Bool) (env : REnv) (v : FVal) : Nat × REnv :=
  if t.isInt then
    let r := roundToInt t env v
    (wrapTo t.bits r.1, r.2)
  else roundTo t sat env v false

/-- Write element e of register r under type t: an F8 destination gets scale 0x7F in the block (R16, R49). -/
def Lane.wrT (l : Lane) (t : Ty) (r e x : Nat) : Lane :=
  if t.isF8 then (l.setData r 8 e x).setScale t r e 0x7F else l.wr r t.bits e x

/-- Convert element e of register a; k is the codebook of a C4 source. -/
def LEnv.conv (n : LEnv) (t s : Ty) (m a e : Nat) (env : REnv) : Nat × REnv :=
  if s.isInt then convInt t s (cvtSat t s m) env (n.l.rd a s.bits e)
  else convFloat t (cvtSat t s m) env (n.l.val s (cvtBook m) a e)

/-- CVT in the lanes (R126). -/
def LEnv.cvt (n : LEnv) (t s : Ty) (m d a : Nat) : LaneAct :=
  n.elemwise [n.count t, n.count s] (groupOf (max t.bits s.bits)) fun acc e =>
    let r := n.conv t s m a e (acc.env (n.l.mode (cvtQ t s m)))
    (acc.wrT t d e r.1).keep r.2

/-- CVT at the slice: no flag; F32 in the low half (R110, R126). -/
def scCvt (t s : Ty) (m d a : Nat) (st : State) : Res State :=
  let x := (st.me.rx a).toNat
  let env := scEnv (m / 4)
  let r := if s.isInt then convInt t s (decide (m % 2 = 1)) env x
    else convFloat t (decide (m % 2 = 1)) env (decodeFloat .f32 (x % 2 ^ 32))
  .ok (st.putX d (if t.isInt then extendInt t r.1 else BitVec.ofNat 64 r.1))

/-- CVTW: one register into a register group (R127). -/
def LEnv.cvtw (n : LEnv) (t s : Ty) (m d a : Nat) : LaneAct :=
  n.elemwise [n.count s] (groupOf t.bits) fun acc e =>
    let r := n.conv t s m a e (acc.env (n.l.mode (cvtQ t s m)))
    (acc.wrT t (d + e / n.count t) (e % n.count t) r.1).keep r.2

/-- One block of CVTS and SCLD: `vals` gives each position's value when it is active. The scale is derived from the active
elements; inactive ones become the zero code (R51, R128). -/
def Lane.encodeBlock (l : Lane) (t : Ty) (book : Vector (BitVec 16) 16) (mode : RMode) (d j : Nat)
    (vals : List (Option FVal)) : Lane :=
  let act := vals.filterMap id
  if act.isEmpty then l
  else
    let sc := blockScale t book act
    let zero := act.all fun v => v.isZero
    let l := vals.zipIdx.foldl (fun (l : Lane) p =>
      match p.1 with
      | some v =>
        let r := encodeBlockElem t book sc zero (l.env mode) v
        (l.setData d t.bits (16 * j + p.2) r.1).keep r.2
      | none => l.setData d t.bits (16 * j + p.2) (if t == .c4 then nearestCode book (.fin false 0 0) else 0)) l
    l.setScale t d (16 * j) sc

/-- Encode the blocks that meet [lo, hi); `val` reads a source element (R128, R129). -/
def LEnv.encodeBlocks (n : LEnv) (t : Ty) (k : Nat) (mode : RMode) (d : Nat) (val : Nat → FVal) (lo hi : Nat) : Lane :=
  if hi ≤ lo then n.l
  else
    (List.range' (lo / 16) ((hi - 1) / 16 + 1 - lo / 16)).foldl (fun acc j =>
      acc.encodeBlock t (n.l.book k) mode d j ((List.range 16).map fun i =>
        let e := 16 * j + i
        if decide (lo ≤ e) && decide (e < hi) && n.l.gov e then some (val e) else none)) n.l

/-- CVTS: a register group into one register of a scaled type, with its block scales (R128). -/
def LEnv.cvts (n : LEnv) (t s : Ty) (m d a : Nat) : LaneAct :=
  if t == .c4 && !bookUsable (n.l.book (cvtBook m)) then .illegal
  else if n.l.vl.toNat ≤ n.count t then
    .elems (groupOf s.bits) n.l.vl.toNat
      (n.encodeBlocks t (cvtBook m) (n.l.mode (cvtQ t s m)) d fun e => decodeFloat s (n.rdG a s.bits e))
  else .illegal

/-- SCLD: scaled F8 elements re-encoded under fresh scales (R129). -/
def LEnv.scld (n : LEnv) (t s : Ty) (m d a : Nat) : LaneAct :=
  if t == .c4 && !bookUsable (n.l.book (cvtBook m)) then .illegal
  else if n.l.vl.toNat ≤ n.count t ∧ n.l.vl.toNat ≤ n.count s then
    .elems (groupOf 8) n.l.vl.toNat
      (n.encodeBlocks t (cvtBook m) (n.l.mode (cvtQ t s m)) d fun e => n.l.val s 0 a e)
  else .illegal

/-- CBLD: sixteen BF16 entries, bit for bit (R130). -/
def LEnv.cbld (n : LEnv) (k a : Nat) : LaneAct :=
  .whole { n.l with
    b := n.l.b.setIfInBounds k (Vector.ofFn fun i : Fin 16 => BitVec.ofNat 16 (n.l.rd a 16 i.val)) }

/-- CVT_VV in the lanes (R126). -/
def laneCvtVv (d a : Fin 32) (s t : Ty) (m : Fin 16) (n : LEnv) : LaneAct :=
  n.cvt t s m.val d.val a.val
/-- CVT_VV at the slice: pushed (R24, R62). -/
def execCvtVv (d a : Fin 32) (s t : Ty) (m : Fin 16) (st : State) : Host.Outcome State Fault Refusal := .next (st.pushVector (.cvtVv d a s t m) 0)

/-- CVT_SC at the slice (R126, R110). -/
def execCvtSc (d a : Fin 32) (s t : Ty) (m : Fin 16) (st : State) : Host.Outcome State Fault Refusal :=
  finish (st.scalarStep (wordOf (.cvtSc d a s t m)) false false (Instr.typeTrap (.cvtSc d a s t m)) (scCvt t s m.val d.val a.val))

/-- CVTS in the lanes (R128). -/
def laneCvts (d a : Fin 32) (s t : Ty) (m : Fin 16) (n : LEnv) : LaneAct :=
  n.cvts t s m.val d.val a.val
/-- CVTS at the slice: pushed (R24, R62). -/
def execCvts (d a : Fin 32) (s t : Ty) (m : Fin 16) (st : State) : Host.Outcome State Fault Refusal := .next (st.pushVector (.cvts d a s t m) 0)

/-- CVTW in the lanes (R127). -/
def laneCvtw (d a : Fin 32) (s t : Ty) (m : Fin 16) (n : LEnv) : LaneAct :=
  n.cvtw t s m.val d.val a.val
/-- CVTW at the slice: pushed (R24, R62). -/
def execCvtw (d a : Fin 32) (s t : Ty) (m : Fin 16) (st : State) : Host.Outcome State Fault Refusal := .next (st.pushVector (.cvtw d a s t m) 0)

/-- SCLD in the lanes (R129). -/
def laneScld (d a : Fin 32) (s t : Ty) (m : Fin 16) (n : LEnv) : LaneAct :=
  n.scld t s m.val d.val a.val
/-- SCLD at the slice: pushed (R24, R62). -/
def execScld (d a : Fin 32) (s t : Ty) (m : Fin 16) (st : State) : Host.Outcome State Fault Refusal := .next (st.pushVector (.scld d a s t m) 0)

/-- CBLD in the lanes (R130). -/
def laneCbld (k : Fin 8) (a : Fin 32) (n : LEnv) : LaneAct :=
  n.cbld k.val a.val
/-- CBLD at the slice: pushed (R24, R62). -/
def execCbld (k : Fin 8) (a : Fin 32) (s : State) : Host.Outcome State Fault Refusal := .next (s.pushVector (.cbld k a) 0)

end Sys2Proof.Machine
end

