-- ==== Sys2Proof/Machine/Tensor.lean ====
section
/-! DEFINITION. The residency descriptor and the sets it describes (R171 to R178, R183, R187): fields, boxes, membership,
addresses, ring geometry. -/

namespace Sys2Proof.Machine

def Desc.rtype (d : Desc) : Ty := Ty.ofCode (fld d.flags 29 4)
def Desc.wme (d : Desc) : Bool := bitAt d.flags 33
def Desc.gd (d : Desc) : Nat := fld d.flags 34 3
/-- Advance depth D, 1 to 4. -/
def Desc.depth (d : Desc) : Nat := fld d.flags 37 2 + 1
def Desc.rsc (d : Desc) : Nat := fld d.flags 39 3
def Desc.ksel (d : Desc) (i : Nat) : Nat := fld d.flags (42 + 3 * i) 3
def Desc.boxAt (d : Desc) (i : Nat) : X64 := vat d.box i 0
def Desc.org (d : Desc) (i : Nat) : Int := toSigned 32 (fld (d.boxAt i) 0 32)
def Desc.len (d : Desc) (i : Nat) : Nat := fld (d.boxAt i) 32 16
def Desc.c0 (d : Desc) (i : Nat) : Int := toSigned 8 (fld (d.boxAt i) 48 8)
def Desc.c1 (d : Desc) (i : Nat) : Int := toSigned 8 (fld (d.boxAt i) 56 8)
def Desc.extAt (d : Desc) (j : Nat) : Nat := (vat d.ext j 0).toNat
def Desc.strAt (d : Desc) (j : Nat) : Int := (vat d.str j 0).toInt
def Desc.perm (d : Desc) : Nat := fld d.shape 0 15
def Desc.spad (d : Desc) : Nat := fld d.shape 16 16
def Desc.fill (d : Desc) : Nat := fld d.shape 32 32

/-- Is the register indexed (R181). -/
def Desc.indexed (d : Desc) : Bool := decide (d.ixd ≠ 7)
/-- Scaled F8 or C4 in memory. -/
def Desc.scaled (d : Desc) : Bool := d.mfc == 1 || d.mfc == 2
/-- The stored type of a plain or scaled tensor (R180). -/
def Desc.stored (d : Desc) : Ty := if d.mfc = 2 then .c4 else Ty.ofCode d.marg

/-- Memory dimension of a register dimension: dimension 5 takes the one that PERM leaves (R174). -/
def Desc.memDim (d : Desc) (i : Nat) : Nat :=
  if d.perm = 0 then i
  else if i < 5 then d.perm / 2 ^ (3 * i) % 8
  else 15 - ((List.range 5).foldl (fun acc j => acc + d.perm / 2 ^ (3 * j) % 8) 0)

/-- The 128 bytes of a descriptor (R171). -/
def Desc.parse (b : List Byte) : Desc :=
  let w (o n : Nat) : Nat := ofBytes ((b.drop o).take n)
  { base := BitVec.ofNat 64 (w 0 8), flags := BitVec.ofNat 64 (w 8 8)
    ext := Vector.ofFn fun i => BitVec.ofNat 32 (w (0x10 + 4 * i.val) 4)
    str := Vector.ofFn fun i => BitVec.ofNat 32 (w (0x28 + 4 * i.val) 4)
    box := Vector.ofFn fun i => BitVec.ofNat 64 (w (0x40 + 8 * i.val) 8)
    shape := BitVec.ofNat 64 (w 0x70 8), waddr := BitVec.ofNat 64 (w 0x78 8) }

/-- The descriptor as 128 bytes (R171, R257). -/
def Desc.bytes (d : Desc) : List Byte :=
  toBytes 8 d.base.toNat ++ toBytes 8 d.flags.toNat ++ d.ext.toList.flatMap (fun x => toBytes 4 x.toNat) ++
    d.str.toList.flatMap (fun x => toBytes 4 x.toNat) ++ d.box.toList.flatMap (fun x => toBytes 8 x.toNat) ++
    toBytes 8 d.shape.toNat ++ toBytes 8 d.waddr.toNat

/-! ### Boxes and sets -/

/-- Lower bound of register dimension i (R173). -/
def Desc.lower (d : Desc) (ks : Ctrs) (i : Nat) : Int :=
  if d.rank ≤ i then 0
  else if d.ksel i = 7 then d.org i
  else
    let k1 : Int := if d.ksel i = 5 then 0 else (vat ks (d.ksel i + 1) 0).toNat
    d.org i + d.c0 i * (vat ks (d.ksel i) 0).toNat + d.c1 i * k1
/-- Upper bound of register dimension i (R173). -/
def Desc.upper (d : Desc) (ks : Ctrs) (i : Nat) : Int := if d.rank ≤ i then 0 else d.lower ks i + d.len i - 1
/-- Extent of register dimension i. -/
def Desc.extent (d : Desc) (i : Nat) : Nat := if d.rank ≤ i then 1 else d.extAt (d.memDim i)

/-- Does the box use counter j (R173). -/
def Desc.uses (d : Desc) (j : Nat) : Bool :=
  (List.range d.rank).any fun i => d.ksel i == j || (d.ksel i + 1 == j && decide (d.ksel i ≤ 4))
/-- Does a counter event that names a set of counters advance the register (R97). -/
def Desc.advancedBy (d : Desc) (named : BitVec 6) : Bool := (List.range 6).any fun j => named.getLsbD j && d.uses j

/-- Coordinate i of a list. -/
def coordAt (a : List Int) (i : Nat) : Int := a.getD i 0

/-- Is a coordinate inside its extent. -/
def Desc.within (d : Desc) (i : Nat) (a : Int) : Bool := decide (0 ≤ a) && decide (a < d.extent i)
/-- Does a coordinate vector belong to the set (R176); every register dimension at or above RANK has coordinate 0. -/
def Desc.inSet (d : Desc) (ks : Ctrs) (a : List Int) : Bool :=
  (List.range 6).all fun i =>
    decide (d.lower ks i ≤ coordAt a i) && decide (coordAt a i ≤ d.upper ks i) &&
      (d.within i (coordAt a i) || (decide (i < d.rank) && d.pad i))
/-- Is it a fill element: some coordinate lies outside its extent (R176). -/
def Desc.isFill (d : Desc) (a : List Int) : Bool := (List.range d.rank).any fun i => !d.within i (coordAt a i)

/-- The coordinates of one dimension that are fetched: the box cut to the extent. -/
def Desc.range (d : Desc) (ks : Ctrs) (i : Nat) : List Int :=
  let lo := max (d.lower ks i) 0
  let hi := min (d.upper ks i) ((d.extent i : Int) - 1)
  (List.range (hi + 1 - lo).toNat).map fun (j : Nat) => lo + (j : Int)

/-- The coordinate vectors of the dimensions from i on. -/
def Desc.coordsFrom (d : Desc) (ks : Ctrs) : Nat → Nat → List (List Int)
  | 0, _ => [[]]
  | n + 1, i => (d.range ks i).flatMap fun a => (d.coordsFrom ks n (i + 1)).map fun t => a :: t

/-- The elements of the set that are fetched, as coordinate vectors of length RANK (R176). -/
def Desc.coords (d : Desc) (ks : Ctrs) : List (List Int) := d.coordsFrom ks d.rank 0

/-- The FILL value as a pattern of RTYPE (R174). -/
def Desc.fillBits (d : Desc) : Nat :=
  match d.rtype with
  | .s64 => wrapTo 64 (toSigned 32 d.fill)
  | .n64 => wrapTo 64 (toSigned 32 d.fill)
  | .f64s => (roundExact .f64s (scEnv 0) (decodeFloat .f32 d.fill)).1
  | t => d.fill % 2 ^ t.bits

/-! ### Addresses -/

/-- The linear offset of an element, its indexed dimension omitted (R177, R181). -/
def Desc.offset (d : Desc) (a : List Int) : Int :=
  (List.range d.rank).foldl (fun acc i => if d.ixd = i then acc else acc + coordAt a i * d.strAt (d.memDim i)) 0

/-- An address from a base and a signed number of bytes, modulo 2^64. -/
def addrOf (base : X64) (off : Int) : X64 := base + BitVec.ofInt 64 off

/-- Bytes of a superblock of a scaled format, elements first (R178). -/
def superBytes (c4 : Bool) : Int := if c4 then 144 else 272
/-- The byte of the element at a linear offset of a scaled tensor (R178). -/
def scaledAddr (c4 : Bool) (base : X64) (off : Int) : X64 :=
  addrOf base (superBytes c4 * (off / 256) + (if c4 then off % 256 / 2 else off % 256))
/-- The scale byte of the element at a linear offset (R178). -/
def scaledScale (c4 : Bool) (base : X64) (off : Int) : X64 :=
  addrOf base (superBytes c4 * (off / 256) + (if c4 then 128 else 256) + off % 256 / 16)

/-! ### The ring (R187) -/

/-- RL_d. -/
def Desc.ringLen (d : Desc) (i : Nat) : Nat :=
  if d.ksel i = 7 then d.len i
  else d.len i + d.depth * min (d.len i) ((d.c0 i).natAbs + (d.c1 i).natAbs)

/-- P_1 of a ring whose dimensions are given, in bytes. -/
def Desc.pitchOf (d : Desc) (rl : Nat → Nat) : Nat := 16 * (((rl 0 + d.spad) * d.rtype.bits + 127) / 128)

/-- The bytes of a ring whose dimensions are given. Scale rows have the registers whose RTYPE is F8 or C4: those whose elements
carry a scale in the loft, plain F8 among them [DEDUCED, log 89]. -/
def Desc.ringBytesOf (d : Desc) (rl : Nat → Nat) : Nat :=
  let rows := (List.range' 1 (d.rank - 1)).foldl (fun acc i => acc * rl i) 1
  d.pitchOf rl * rows + (if d.rtype.isBlock then 16 * ((rl 0 + 255) / 256) * rows else 0)

/-- The dimensions of the register's own ring. -/
def Desc.ringLens (d : Desc) : List Nat := (List.range 6).map d.ringLen
/-- The bytes of the register's own ring. -/
def Desc.ringBytes (d : Desc) : Nat := d.ringBytesOf d.ringLen

/-- A dimension of the ring of a shared pair: it holds both boxes at the counters of the second QSET (R190; the formula is the
model's, log 21). -/
def pairLen (d e : Desc) (ks : Ctrs) (i : Nat) : Nat :=
  let len := (max (d.upper ks i) (e.upper ks i) - min (d.lower ks i) (e.lower ks i) + 1).toNat
  max (d.ringLen i) (max (e.ringLen i) (len + (d.ringLen i - d.len i)))
/-- The dimensions of the ring of a shared pair. -/
def pairLens (d e : Desc) (ks : Ctrs) : List Nat := (List.range 6).map (pairLen d e ks)
/-- The bytes of the ring of a shared pair. -/
def pairRingBytes (d e : Desc) (ks : Ctrs) : Nat := d.ringBytesOf (pairLen d e ks)

/-- Do two coordinate vectors share a slot of a ring: equal modulo RL in every dimension (R187). -/
def Desc.sameSlot (d : Desc) (lens : List Nat) (a b : List Int) : Bool :=
  (List.range d.rank).all fun i => decide ((coordAt a i - coordAt b i) % (lens.getD i 1 : Int) = 0)

/-- The place of an element in a ring, in half bytes: Σ_d (a_d mod RL_d) × P_d (R187). -/
def Desc.slotNibble (d : Desc) (lens : List Nat) (a : List Int) : Nat :=
  let rl (i : Nat) : Nat := lens.getD i 1
  let at_ (i : Nat) : Nat := (coordAt a i % (rl i : Int)).toNat
  ((List.range' 1 (d.rank - 1)).foldl (fun (acc : Nat × Nat) i => (acc.1 + at_ i * acc.2, acc.2 * rl i))
    (at_ 0 * (d.rtype.bits / 4), 2 * d.pitchOf rl)).1

/-- The words of the loft that the runs of 64 bytes of a ring row touch that hold some element (R349): four words from a row
offset that is a multiple of 64, up to the end of the row. `base` is the ring's place in the loft. -/
def Desc.runWords (d : Desc) (lens : List Nat) (base : Nat) (a : List Int) : List Nat :=
  let pitch := d.pitchOf fun i => lens.getD i 1
  let x := d.slotNibble lens a / 2
  let run := x - x % pitch % 64
  (List.range (min 64 (pitch - run % pitch) / 16)).map fun i => (base + run) / 16 + i

/-- Does R188 rule out a bank conflict: the words lie in one aligned block of 256 words at a stride of 2^j words, j from 0 to
6. -/
def loftFree (ws : List Nat) : Bool :=
  let u := ws.foldl insertId []
  u.all (fun w => decide (w / 256 = u.headD 0 / 256)) &&
    (List.range 7).any fun j => (u.zip u.tail).all fun p => p.2 == p.1 + 2 ^ j

/-! ### Packed offsets (R205) -/

/-- Offset i of a packed word, signed. -/
def packedOff (w : X64) (i : Nat) : Int := if i < 4 then toSigned 16 (fld w (16 * i) 16) else 0
/-- Pack four offsets, each modulo 2^16. -/
def packOffs (o : List Int) : X64 :=
  BitVec.ofNat 64 ((List.range 4).foldl (fun acc i => acc + wrapTo 16 (coordAt o i) * 2 ^ (16 * i)) 0)

/-! ### Checks of R175 -/

/-- Does a PERM map register dimensions as R175 allows. -/
def Desc.permOk (d : Desc) : Bool :=
  d.perm == 0 ||
    ((List.range 5).all (fun i => (List.range 5).all fun j => i == j || d.memDim i != d.memDim j) &&
      (List.range 5).all (fun i => decide (d.memDim i < 6)) &&
      (List.range 6).all (fun i => decide (i < d.rank) || d.memDim i == i) && (!d.scaled || d.memDim 0 == 0))

/-- Do the memory format, its argument and the register type form a pair of R180; a writable set uses no conversion. -/
def Desc.formatOk (d : Desc) : Bool :=
  let t := d.rtype
  (match d.mfc with
    | 0 => decide (d.marg ≤ 12 ∨ d.marg = 14) && (t == d.stored || t.isUnscaled)
    | 1 => decide (d.marg = 11 ∨ d.marg = 12) && (t == d.stored || t.isFloat3)
    | 2 => decide (d.marg ≤ 7) && (t == .c4 || t == .bf16 || t == .f32)
    | _ => decide (d.marg = 0) && t.isFloat3) &&
    (!d.accW || (t == d.stored && decide (d.mfc ≠ 3)))

/-- May q(IXQ) serve as the index register (R175). -/
def ResReg.indexOk (r : ResReg) : Bool :=
  r.st == .live && decide (r.desc.rank = 1) && r.desc.accR && !r.desc.accW && decide (r.desc.mfc = 0) && r.desc.rtype.is64 &&
    decide (r.desc.marg ≤ 7) && !r.desc.indexed

/-- The counter rule of R173 for one dimension. -/
def Desc.kselOk (d : Desc) (i : Nat) : Bool :=
  decide (d.ksel i ≠ 6) && (decide (d.ksel i ≠ 7) || (decide (d.c0 i = 0) && decide (d.c1 i = 0))) &&
    (decide (d.ksel i ≠ 5) || decide (d.c1 i = 0))

/-- Byte size that BASE is aligned to (R175). -/
def Desc.baseAlign (d : Desc) : Nat := if d.mfc = 3 then 8 else if d.scaled then 16 else d.stored.bits / 8

/-- The first failing check of R175 on the 128 bytes, as the offset of the offending field. -/
def Desc.check (d : Desc) (q : Nat) (ix : ResReg) : Option Nat :=
  let r := d.rank
  if !(decide (1 ≤ r) && decide (r ≤ 6) && (d.accR || d.accW) && (List.range r).all d.kselOk) then some 0x08
  else if !d.formatOk then some 0x08
  else if d.indexed && !(decide (d.ixd < r) && ix.indexOk) then some 0x08
  else if d.wme && !decide (d.gd < r) then some 0x08
  else if d.shv && d.shq == q then some 0x08
  else if d.base.toNat % d.baseAlign ≠ 0 then some 0x00
  else
    match (List.range r).find? fun j => d.extAt j == 0 with
    | some j => some (0x10 + 4 * j)
    | none =>
      match (List.range r).find? fun i => d.len i == 0 with
      | some i => some (0x40 + 8 * i)
      | none =>
        let scaledFault : Option Nat :=
          if !d.scaled then none
          else if d.strAt 0 ≠ 1 then some 0x28
          else
            match (List.range' 1 (r - 1)).find? fun j => decide (d.strAt j % 16 ≠ 0) with
            | some j => some (0x28 + 4 * j)
            | none =>
              if d.extAt 0 % 16 ≠ 0 then some 0x10
              else if d.org 0 % 16 ≠ 0 ∨ d.len 0 % 16 ≠ 0 ∨ d.c0 0 % 16 ≠ 0 ∨ d.c1 0 % 16 ≠ 0 then some 0x40
              else none
        match scaledFault with
        | some o => some o
        | none =>
          if !d.permOk then some 0x70
          else if d.wme && decide (d.waddr.toNat % 8 ≠ 0) then some 0x78
          else none

/-! ### Overlap (R189, R190) -/

/-- Extent of memory dimension j: those at or above RANK count as 1 (R173). -/
def Desc.memExtent (d : Desc) (j : Nat) : Nat := if d.rank ≤ j then 1 else d.extAt j

/-- Are two registers on the same tensor (R189). A memory dimension at or above RANK has extent 1 and no stride of its own
[DEDUCED, log 90]. -/
def sameTensor (d e : Desc) : Bool :=
  d.base == e.base && d.mfc == e.mfc && d.marg == e.marg &&
    (List.range 6).all fun j =>
      d.memExtent j == e.memExtent j && (decide (d.rank ≤ j) || decide (e.rank ≤ j) || d.strAt j == e.strAt j)

/-- The reach of a register in dimension i (R189). -/
def Desc.reach (d : Desc) (ks : Ctrs) (i : Nat) : Int × Int :=
  if d.rank ≤ i then (0, 0)
  else if d.ksel i = 7 then (d.lower ks i, d.upper ks i) else (0, (d.extent i : Int) - 1)

/-- Do the reaches of two registers meet in every dimension (R189). -/
def overlaps (d e : Desc) (ks : Ctrs) : Bool :=
  (List.range (max d.rank e.rank)).all fun i =>
    decide ((d.reach ks i).1 ≤ (e.reach ks i).2) && decide ((e.reach ks i).1 ≤ (d.reach ks i).2)

/-- FLAGS without ACC, SHV and SHQ. -/
def Desc.plainFlags (d : Desc) : X64 := setFld d.flags 9 7 0

/-- Do two descriptors make a shared pair of registers q and j: they name each other and agree everywhere except in ACC and
the box terms (R190). -/
def makesPair (q j : Nat) (d e : Desc) : Bool :=
  d.shv && e.shv && d.shq == j && e.shq == q && d.plainFlags == e.plainFlags && d.base == e.base && d.ext == e.ext &&
    d.str == e.str && d.shape == e.shape && d.waddr == e.waddr

end Sys2Proof.Machine
end

