-- ==== Sys2Proof/Machine/Fill.lean ====
section
/-! DEFINITION. How the sequencer reads an element from memory (R177 to R181, R186) and how it writes one back (R184). -/

namespace Sys2Proof.Machine

/-- Go on with the result of an access; a fault or a wait ends the sequence. -/
def thenA {α β : Type} (r : Res (State × Got α)) (f : State → α → Res (State × Got β)) : Res (State × Got β) :=
  match r with
  | .error e => .error e
  | .ok (s, .ok v) => f s v
  | .ok (s, .trap c a) => .ok (s, .trap c a)
  | .ok (s, .wait) => .ok (s, .wait)

/-- Translate an access of slot k and rewrite its stale copies when it follows a mark (R240, R243, R244): the place and the
final address. -/
def State.accessAt (s : State) (k : Nat) (g : Agent) (acc : Acc) (align : Nat) (va : X64) (xa : Option Nat) :
    Res (State × Got (Target × X64)) :=
  match s.translate g.core g.pt g.priv acc align va with
  | .error e => .error e
  | .ok (s, .fail code a) => .ok (s, .trap code a)
  | .ok (s, .ok t fva delta page) => .ok (s.rebase k page delta xa (g.owner == 4 * k + 1), .ok (t, fva))

/-- Read n bytes at a virtual address for slot k. -/
def State.loadBytes (s : State) (k : Nat) (g : Agent) (scalar : Bool) (n align : Nat) (va : X64) : Res (State × Got (List Byte)) :=
  thenA (s.accessAt k g .read align va none) fun s p => s.readAt g scalar p.1 n p.2

/-- Store bytes at a virtual address for slot k. -/
def State.storeBytes (s : State) (k : Nat) (g : Agent) (scalar : Bool) (b : List Byte) (align : Nat) (va : X64) :
    Res (State × Got Unit) :=
  thenA (s.accessAt k g .write align va none) fun s p => s.writeAt g scalar p.1 b p.2

/-- Read a little-endian number of n bytes. -/
def State.loadNat (s : State) (k : Nat) (g : Agent) (scalar : Bool) (n align : Nat) (va : X64) : Res (State × Got Nat) :=
  thenA (s.loadBytes k g scalar n align va) fun s b => .ok (s, .ok (ofBytes b))

/-- Read bytes one by one, so that they may cross a page. -/
def State.loadEach (s : State) (k : Nat) (g : Agent) (scalar : Bool) : Nat → X64 → Res (State × Got (List Byte))
  | 0, _ => .ok (s, .ok [])
  | n + 1, va =>
    thenA (s.loadBytes k g scalar 1 1 va) fun s b =>
      thenA (s.loadEach k g scalar n (va + 1)) fun s t => .ok (s, .ok (b ++ t))

/-- The scalar agent's reads of a compressed header and its code table, which have performed (R240, R264). -/
def State.touchHeader (s : State) (k : Nat) (g : Agent) (base : X64) : State :=
  let s' := s.touchRange k g true false base 48
  match s.loadEach k g true 8 (base + 0x10) with
  | .ok (_, .ok b) => s'.touchRange k g true false (BitVec.ofNat 64 (ofBytes b)) 16
  | _ => s'

/-! ### Compressed tensors (R179) -/

/-- Are code lengths legal: at most 15, and a complete prefix code (R179). -/
def lensOk (lens : List Nat) : Bool :=
  lens.all (fun l => decide (l ≤ 15)) &&
    decide ((lens.foldl (fun acc l => if l = 0 then acc else acc + 2 ^ (15 - l)) 0) = 2 ^ 15)

/-- The canonical code: each present code with its length and its word (R179). -/
def canonical (lens : List Nat) : List (Nat × Nat × Nat) :=
  let order := (List.range' 1 15).flatMap fun l => (List.range 16).filterMap fun c => if lens.getD c 0 = l then some (c, l) else none
  (order.foldl (fun (acc : List (Nat × Nat × Nat) × Option (Nat × Nat)) p =>
    let w := match acc.2 with
      | none => 0
      | some (pw, pl) => (pw + 1) * 2 ^ (p.2 - pl)
    (acc.1 ++ [(p.1, p.2, w)], some (w, p.2))) ([], none)).1

/-- Read a compressed header and its code table at an address (R179); none when the code table fails R175. -/
def State.loadHeader (s : State) (k : Nat) (g : Agent) (scalar : Bool) (base : X64) : Res (State × Got (Option CompHeader)) :=
  let word (s : State) (o : Nat) : Res (State × Got Nat) :=
    let va := base + BitVec.ofNat 64 o
    if base.toNat % 8 = 0 then s.loadNat k g scalar 8 8 va
    else thenA (s.loadEach k g scalar 8 va) fun s b => .ok (s, .ok (ofBytes b))
  thenA (word s 0x00) fun s frames => thenA (word s 0x08) fun s data => thenA (word s 0x10) fun s table =>
  thenA (word s 0x18) fun s outl => thenA (word s 0x20) fun s outn => thenA (word s 0x28) fun s count =>
  thenA (s.loadEach k g scalar 16 (BitVec.ofNat 64 table)) fun s b =>
    let lens := b.map fun x => x.toNat
    .ok (s, .ok (if lensOk lens then
      some { frames := BitVec.ofNat 64 frames, data := BitVec.ofNat 64 data, lens := lens
             outliers := BitVec.ofNat 64 outl, outCount := outn, count := count }
      else none))

/-- Bit i of a frame's stream, least significant bit of a byte first (R179). -/
def State.frameBit (s : State) (k : Nat) (g : Agent) (start : X64) (i : Nat) : Res (State × Got Nat) :=
  thenA (s.loadBytes k g false 1 1 (start + BitVec.ofNat 64 (i / 8))) fun s b => .ok (s, .ok (ofBytes b / 2 ^ (i % 8) % 2))

/-- A scale: eight bits, bit 0 first. -/
def State.frameScale (s : State) (k : Nat) (g : Agent) (start : X64) : Nat → Nat → Res (State × Got Nat)
  | 0, _ => .ok (s, .ok 0)
  | n + 1, i =>
    thenA (s.frameBit k g start i) fun s b =>
      thenA (s.frameScale k g start n (i + 1)) fun s t => .ok (s, .ok (b + 2 * t))

/-- A code word, most significant bit first: the code and the next bit's index; none when no present code matches. -/
def State.frameCode (s : State) (k : Nat) (g : Agent) (start : X64) (tab : List (Nat × Nat × Nat)) :
    Nat → Nat → Nat → Nat → Res (State × Got (Option (Nat × Nat)))
  | 0, _, _, _ => .ok (s, .ok none)
  | n + 1, i, len, v =>
    thenA (s.frameBit k g start i) fun s b =>
      match tab.find? fun e => e.2.1 == len + 1 && e.2.2 == 2 * v + b with
      | some e => .ok (s, .ok (some (e.1, i + 1)))
      | none => s.frameCode k g start tab n (i + 1) (len + 1) (2 * v + b)

/-- The codes of one block and the next bit's index. -/
def State.frameCodes (s : State) (k : Nat) (g : Agent) (start : X64) (tab : List (Nat × Nat × Nat)) :
    Nat → Nat → Res (State × Got (Option (List Nat × Nat)))
  | 0, i => .ok (s, .ok (some ([], i)))
  | n + 1, i =>
    thenA (s.frameCode k g start tab 15 i 0 0) fun s c =>
      match c with
      | none => .ok (s, .ok none)
      | some (code, i) =>
        thenA (s.frameCodes k g start tab n i) fun s t => .ok (s, .ok (t.map fun p => (code :: p.1, p.2)))

/-- Decode a frame's blocks; the scale and codes of block `want` are kept. None when the frame does not decode: a code word
matches no code, or the blocks run past `limit` bits (R179). -/
def State.frameBlocks (s : State) (k : Nat) (g : Agent) (start : X64) (tab : List (Nat × Nat × Nat)) (limit : Option Nat) :
    Nat → Nat → Nat → Option (Nat × List Nat) → Res (State × Got (Option (Nat × List Nat)))
  | 0, _, _, kept => .ok (s, .ok kept)
  | n + 1, i, want, kept =>
    thenA (s.frameScale k g start 8 i) fun s sc =>
    thenA (s.frameCodes k g start tab 16 (i + 8)) fun s c =>
      match c with
      | none => .ok (s, .ok none)
      | some (codes, j) =>
        if (match limit with | some l => decide (l < j) | none => false) then .ok (s, .ok none)
        else
          match want with
          | 0 => s.frameBlocks k g start tab limit n j n (some (sc, codes))
          | w + 1 => s.frameBlocks k g start tab limit n j w kept

/-- The BF16 value of the outlier at an offset, if the list has one: entries stand in ascending order (R179). -/
def State.outlierAt (s : State) (k : Nat) (g : Agent) (list : X64) : Nat → Nat → Nat → Res (State × Got (Option Nat))
  | 0, _, _ => .ok (s, .ok none)
  | n + 1, i, off =>
    thenA (s.loadNat k g false 8 8 (list + BitVec.ofNat 64 (8 * i))) fun s e =>
      if e % 2 ^ 48 = off then .ok (s, .ok (some (e / 2 ^ 48)))
      else if off < e % 2 ^ 48 then .ok (s, .ok none)
      else s.outlierAt k g list n (i + 1) off

/-- The value of a compressed element, or none when its frame does not decode (R179). -/
def State.compValue (s : State) (k : Nat) (g : Agent) (h : CompHeader) (off : Nat) : Res (State × Got (Option FVal)) :=
  let f := off / 16384
  let frameAddr (s : State) (i : Nat) := s.loadNat k g false 8 8 (h.frames + BitVec.ofNat 64 (8 * i))
  thenA (frameAddr s f) fun s a =>
  thenA (if (f + 1) * 16384 < h.count then thenA (frameAddr s (f + 1)) fun s b => .ok (s, .ok (some (8 * (b % 2 ^ 48 - a % 2 ^ 48))))
    else .ok (s, .ok none)) fun s limit =>
    let blocks := min 1024 ((h.count - f * 16384 + 15) / 16)
    thenA (s.frameBlocks k g (h.data + BitVec.ofNat 64 (a % 2 ^ 48)) (canonical h.lens) limit blocks 0 (off % 16384 / 16) none)
      fun s blk =>
        match blk with
        | none => .ok (s, .ok none)
        | some (sc, codes) =>
          thenA (s.outlierAt k g h.outliers h.outCount 0 off) fun s o =>
            .ok (s, .ok (some (match o with
              | some b => decodeFloat .bf16 b
              | none => decodeC4 fp4Book sc (codes.getD (off % 16) 0))))

/-! ### One element -/

/-- What reading an element gives: its bits and scale, or why it is failed (R186). -/
inductive Fetched where
  | val (v scale : Nat)
  | bad (f : FillFail)
  deriving DecidableEq, Repr

/-- A fill error of the compressed or index kind: its fault names packed offsets (R186). -/
def fillError : Fetched := .bad { code := .fillError, addr := none }

/-- The failed state that a fault of a fill's access leaves: poison names packed offsets, the others the address (R186,
R253). -/
def failOf (code : TrapCode) (a : X64) : FillFail := { code := code, addr := if code = .poison then none else some a }

/-- A float value as a pattern of RTYPE under RNE, without flags (R180). -/
def fillFloat (t : Ty) (v : FVal) : Nat := (convFloat t false (scEnv 1) v).1

/-- The stored bits of a plain element as a pattern of RTYPE (R180). -/
def fillPlain (t src : Ty) (x : Nat) : Nat :=
  if t == src then x
  else if src.isInt then (convInt t src false (scEnv 1) x).1
  else fillFloat t (decodeFloat src x)

/-- Read the element at coordinates a through a base (R177 to R180). -/
def State.fetchAt (s : State) (k : Nat) (g : Agent) (r : ResReg) (base : X64) (hdr : Option CompHeader) (a : List Int) :
    Res (State × Got Fetched) :=
  let d := r.desc
  let off := d.offset a
  match d.mfc with
  | 0 =>
    let n := d.stored.bits / 8
    thenA (s.loadNat k g false n n (addrOf base (off * n))) fun s x => .ok (s, .ok (.val (fillPlain d.rtype d.stored x) 0x7F))
  | 3 =>
    match hdr with
    | none => .ok (s, .ok fillError)
    | some h =>
      if off < 0 ∨ (h.count : Int) ≤ off then .ok (s, .ok fillError)
      else thenA (s.compValue k g h off.toNat) fun s v =>
        .ok (s, .ok (match v with | none => fillError | some v => .val (fillFloat d.rtype v) 0x7F))
  | m =>
    let c4 := m == 2
    thenA (s.loadNat k g false 1 1 (scaledAddr c4 base off)) fun s b =>
    thenA (s.loadNat k g false 1 1 (scaledScale c4 base off)) fun s sc =>
      let x := if c4 then b / 16 ^ (off % 2).toNat % 16 else b
      .ok (s, .ok (if d.rtype == d.stored then .val x sc
        else .val (fillFloat d.rtype
          (if c4 then decodeC4 r.book sc x else applyScale sc (decodeFloat d.stored x))) 0x7F))

/-- Read the segment whose first element has coordinates a, together with its scale byte (R178): over a link both packets travel
before either is awaited. A fault of either fails the segment's sixteen elements. -/
def State.fetchSeg (s : State) (k : Nat) (g : Agent) (r : ResReg) (base : X64) (a : List Int) : Res (State × Got (List Fetched)) :=
  let d := r.desc
  let c4 := d.mfc == 2
  let off := d.offset a
  match s.loadBytes k g false (if c4 then 8 else 16) 1 (scaledAddr c4 base off) with
  | .error e => .error e
  | .ok (s, .trap code va) =>
    .ok (s, .ok ((List.range 16).map fun i => .bad (failOf code (va + BitVec.ofNat 64 (if c4 then i / 2 else i)))))
  | .ok (s, x) =>
    match s.loadBytes k g false 1 1 (scaledScale c4 base off) with
    | .error e => .error e
    | .ok (s, .trap code va) => .ok (s, .ok (List.replicate 16 (.bad (failOf code va))))
    | .ok (s, y) =>
      match x, y with
      | .ok b, .ok z =>
        .ok (s, .ok ((List.range 16).map fun i =>
          let sc := ofBytes z
          let v := if c4 then ofBytes b / 16 ^ i % 16 else ofBytes b / 256 ^ i % 256
          if d.rtype == d.stored then .val v sc
          else .val (fillFloat d.rtype (if c4 then decodeC4 r.book sc v else applyScale sc (decodeFloat d.stored v))) 0x7F))
      | _, _ => .ok (s, .wait)

/-- Which register of a shared pair holds the elements: the lower one (R190). -/
def Slot.cellsAt (sl : Slot) (q : Nat) : Nat :=
  let r := vat sl.q q ResReg.reset
  if r.paired then min q r.desc.shq else q

/-- The elements that a register can see. -/
def Slot.cellsOf (sl : Slot) (q : Nat) : List Cell := (vat sl.q (sl.cellsAt q) ResReg.reset).cells
/-- Replace the elements that a register can see. -/
def Slot.setCells (sl : Slot) (q : Nat) (c : List Cell) : Slot :=
  let i := sl.cellsAt q
  { sl with q := sl.q.setIfInBounds i { vat sl.q i ResReg.reset with cells := c } }

/-- The pointer of an indexed coordinate under the counters of a delivery: a value, or the failed state it gives (R181,
R186). -/
def Slot.indexPtr (sl : Slot) (d : Desc) (ks : Ctrs) (a : List Int) : Except FillFail X64 :=
  let ix := vat sl.q d.ixq ResReg.reset
  let c := [coordAt a d.ixd]
  if !ix.desc.inSet ks c then .error { code := .residencyMiss, addr := none }
  else
    let check (p : X64) : Except FillFail X64 :=
      if p.toNat % 65536 ≠ 0 then .error { code := .fillError, addr := none } else .ok p
    if ix.desc.isFill c then check (BitVec.ofNat 64 ix.desc.fillBits)
    else
      match (sl.cellsOf d.ixq).find? fun x => x.co == c with
      | none => .error { code := .residencyMiss, addr := none }
      | some x => match x.fail with
        | some f => .error f
        | none => check x.val

/-- Does a tensor move in whole segments: scaled, with sixteen elements of one base in each (R178). -/
def Desc.bySegment (d : Desc) : Bool := d.scaled && decide (d.ixd ≠ 0)

/-- The coordinates of the elements that move with the one at a: its segment, when a begins one (R178). -/
def Desc.unitOf (d : Desc) (a : List Int) : List (List Int) :=
  if d.bySegment then (List.range 16).map fun (i : Nat) => (coordAt a 0 + (i : Int)) :: a.tail else [a]
/-- The elements that begin what moves together, among some elements. -/
def Desc.unitHeads (d : Desc) (as : List (List Int)) : List (List Int) :=
  if d.bySegment then as.filter fun a => decide (coordAt a 0 % 16 = 0) else as

/-- Fetch the element at coordinates a, or the segment that begins there, for a delivery: the cells that enter the loft, failed
where the fill meets an error (R178, R181, R186). -/
def State.fetchUnit (s : State) (k : Nat) (g : Agent) (q : Nat) (ks : Ctrs) (a : List Int) : Res (State × Got (List Cell)) :=
  let r := vat (s.slot k).q q ResReg.reset
  let cell (base : X64) (a : List Int) (f : Fetched) : Cell :=
    match f with
    | .val v sc => { co := a, val := BitVec.ofNat 64 v, scale := BitVec.ofNat 8 sc, base := base, dirty := false, fail := none }
    | .bad f => { co := a, val := 0, scale := 0, base := base, dirty := false, fail := some f }
  let unit := r.desc.unitOf a
  let settle (base : X64) (x : Res (State × Got Fetched)) : Res (State × Got (List Cell)) :=
    match x with
    | .error e => .error e
    | .ok (s, .ok f) => .ok (s, .ok (unit.map fun a => cell base a f))
    | .ok (s, .trap code va) => .ok (s, .ok (unit.map fun a => cell base a (.bad (failOf code va))))
    | .ok (s, .wait) => .ok (s, .wait)
  let fetch (s : State) (base : X64) (hdr : Option CompHeader) : Res (State × Got (List Cell)) :=
    if r.desc.bySegment then
      thenA (s.fetchSeg k g r base a) fun s fs => .ok (s, .ok ((unit.zip fs).map fun p => cell base p.1 p.2))
    else settle base (s.fetchAt k g r base hdr a)
  if !r.desc.indexed then fetch s r.desc.base r.hdr
  else
    match (s.slot k).indexPtr r.desc ks a with
    | .error f => .ok (s, .ok (unit.map fun a => cell 0 a (.bad f)))
    | .ok p =>
      if r.desc.mfc = 3 then
        settle p (thenA (s.loadHeader k g false p) fun s h =>
          match h with
          | none => .ok (s, .ok fillError)
          | some h => s.fetchAt k g r p (some h) a)
      else fetch s p none

/-- Fetch a list of elements and segments, in order. -/
def State.fetchCells (s : State) (k : Nat) (g : Agent) (q : Nat) (ks : Ctrs) : List (List Int) → Res (State × Got (List Cell))
  | [] => .ok (s, .ok [])
  | a :: t =>
    thenA (s.fetchUnit k g q ks a) fun s c =>
      thenA (s.fetchCells k g q ks t) fun s cs => .ok (s, .ok (c ++ cs))

/-- The bytes of memory that an element is fetched from through a base: addresses and lengths (R177, R178). -/
def Desc.bytesOf (d : Desc) (base : X64) (a : List Int) : List (Nat × Nat) :=
  let off := d.offset a
  match d.mfc with
  | 0 => [((addrOf base (off * (d.stored.bits / 8 : Nat))).toNat, d.stored.bits / 8)]
  | 3 => []
  | m => [((scaledAddr (m == 2) base off).toNat, 1), ((scaledScale (m == 2) base off).toNat, 1)]

/-- Does the thread still owe memory a writeback of some of n bytes (R184). -/
def Slot.owes (sl : Slot) (va n : Nat) : Bool :=
  sl.q.toList.any fun r => r.wbs.any fun w => (w.lost ++ w.elems).any fun u => u.any fun p =>
    decide (p.1 < va + n) && decide (va < p.1 + p.2.length)

/-! ### Writing back (R184) -/

/-- The first element of the segment of an element of a scaled tensor, and the element itself elsewhere (R178). A segment of a
set that is indexed in dimension 0 goes where its first element came from [DESIGN CHOICE, log 91]. -/
def Desc.headOf (d : Desc) (a : List Int) : List Int :=
  if d.scaled then (coordAt a 0 - coordAt a 0 % 16) :: a.tail else a

/-- The writes that return the element with head coordinates h, or the whole segment that begins there with its scale, to memory
(R178, R184). -/
def Desc.writes (d : Desc) (cells : List Cell) (c : Cell) : List (Nat × List Byte) :=
  let h := d.headOf c.co
  let at_ (i : Nat) : Option Cell := cells.find? fun x => x.co == (coordAt h 0 + (i : Int)) :: h.tail
  let first := (at_ 0).getD c
  let base := if d.indexed then first.base else d.base
  let off := d.offset h
  match d.mfc with
  | 0 => [((addrOf base (off * (d.stored.bits / 8 : Nat))).toNat, toBytes (d.stored.bits / 8) c.val.toNat)]
  | m =>
    let codes := (List.range 16).map fun i => match at_ i with | some x => x.val.toNat | none => 0
    let data := if m = 2 then (List.range 8).map fun i => BitVec.ofNat 8 (codes.getD (2 * i) 0 % 16 + 16 * codes.getD (2 * i + 1) 0)
      else codes.map fun v => BitVec.ofNat 8 v
    [((scaledAddr (m == 2) base off).toNat, data), ((scaledScale (m == 2) base off).toNat, [c.scale])]

/-- One cell for each element or segment that holds a dirty element, failed ones apart (R184, R186). -/
def Desc.dirtyUnits (d : Desc) (cells : List Cell) : List Cell :=
  (cells.filter fun c => c.dirty && c.fail.isNone).foldl (fun acc c =>
    if acc.any fun x => d.headOf x.co == d.headOf c.co then acc else acc ++ [c]) []

/-- The writes of all dirty elements among some cells, each element or segment apart. Of two copies of one memory element one
remains, and which one is a free value (R184; log 6). -/
def State.gatherWrites (s : State) (d : Desc) (cells : List Cell) : State × List (List (Nat × List Byte)) :=
  ((d.dirtyUnits cells).map fun c => d.writes cells c).foldl (fun (acc : State × List (List (Nat × List Byte))) u =>
    if acc.2.any fun v => v.head?.map (·.1) == u.head?.map (·.1) then
      let s := acc.1.tick
      if Config.freeOrder acc.1.free then (s, acc.2)
      else (s, acc.2.map fun v => if v.head?.map (·.1) == u.head?.map (·.1) then u else v)
    else (acc.1, acc.2 ++ [u])) (s, [])

/-- Translate the writes of one element or segment, up to the first that may not perform. -/
def State.planWrites (s : State) (k : Nat) (g : Agent) :
    List (Nat × List Byte) → Res (State × Got (List (Target × X64 × List Byte)))
  | [] => .ok (s, .ok [])
  | w :: t =>
    thenA (s.accessAt k g .write 1 (BitVec.ofNat 64 w.1) none) fun s p =>
      match s.admits g false p.1 w.2.length p.2 with
      | .error e => .error e
      | .ok (.trap code a) => .ok (s, .trap code a)
      | .ok .wait => .ok (s, .wait)
      | .ok (.ok _) => thenA (s.planWrites k g t) fun s r => .ok (s, .ok ((p.1, p.2, w.2) :: r))

/-- Perform translated writes: each takes its turn whatever comes of the others, so that all packets travel together. -/
def State.writeEach (s : State) (g : Agent) : List (Target × X64 × List Byte) → Res (State × Got Unit)
  | [] => .ok (s, .ok ())
  | (t, va, b) :: rest =>
    match s.writeAt g false t b va with
    | .error e => .error e
    | .ok (s, r) =>
      match s.writeEach g rest with
      | .error e => .error e
      | .ok (s, r') => .ok (s, match r, r' with | .wait, _ => .wait | .ok _, x => x | .trap _ _, .wait => .wait | x, _ => x)

/-- Perform the writes of one element or segment together: the packets first, the local bytes once they are answered (R178,
R186). -/
def State.writeUnit (s : State) (k : Nat) (g : Agent) (u : List (Nat × List Byte)) : Res (State × Got Unit) :=
  thenA (s.planWrites k g u) fun s ps =>
    let far (p : Target × X64 × List Byte) : Bool := match p.1 with | .far .. => true | _ => false
    thenA (s.writeEach g (ps.filter far)) fun s _ =>
      match s.writeEach g (ps.filter fun p => !far p) with
      | .error e => .error e
      | .ok (t, r) => .ok (State.keepDirty s t, r)

/-- Perform the writes of elements and segments one after another; those left when one must wait or faults come back with the
outcome, that one whole. -/
def State.performWrites (s : State) (k : Nat) (g : Agent) :
    List (List (Nat × List Byte)) → Res (State × Got Unit × List (List (Nat × List Byte)))
  | [] => .ok (s, .ok (), [])
  | u :: t =>
    match s.writeUnit k g u with
    | .error e => .error e
    | .ok (s, .ok _) => (s.dropReqs g.owner).performWrites k g t
    | .ok (s, .trap code a) => .ok (s.dropReqs g.owner, .trap code a, u :: t)
    | .ok (s', .wait) => .ok (s'.unfollow s k, .wait, u :: t)

end Sys2Proof.Machine
end

