-- ==== Sys2Proof/Machine/Residency.lean ====
section
/-! DEFINITION. The residency registers (R171 to R202): QSET to FFRDY at the slice, counter events and deliveries, releases,
writebacks, the gate, and the sequencer's own steps. -/

namespace Sys2Proof.Machine

/-- AGRP, QCNT and LOFTT of the launch that a slot runs (R276, R278). A slot that no launch bound has every group, every
register and the whole loft (log 22). -/
def State.limits (s : State) (k : Nat) : Nat × Nat × Nat :=
  match s.ctxOf (s.slot k).ctx with
  | some c => (c.agrp, c.qcnt, c.loftt)
  | none => (32, 16, 33554432)

/-- Change residency register q. -/
def Slot.modReg (sl : Slot) (q : Nat) (f : ResReg → ResReg) : Slot := { sl with q := sl.q.setIfInBounds q (f (sl.reg q)) }

/-! ### Deliveries -/

/-- The number the next delivery takes (R197). -/
def ResReg.next (r : ResReg) : Nat :=
  match r.gens.getLast? with
  | some g => g.n + 1
  | none => r.created

/-- Deliveries that have not landed (R185). -/
def ResReg.unlanded (r : ResReg) : Nat := (r.gens.filter fun g => !g.landed).length
/-- Deliveries created and not landed (R197). -/
def ResReg.outstanding (r : ResReg) : Nat := (r.gens.filter fun g => !g.landed && decide (g.n < r.created)).length

/-- LANDED with bit 4q + (n mod 4) set or cleared (R182). -/
def landedBit (x : X64) (q n : Nat) (v : Bool) : X64 := setFld x (4 * q + n % 4) 1 (b2n v)

/-- The coordinates of a set in register dimension i, low and high: the whole box under PAD, else the box cut to the extent
(R176). -/
def Desc.side (d : Desc) (ks : Ctrs) (i : Nat) : Int × Int :=
  if d.pad i then (d.lower ks i, d.upper ks i) else (max (d.lower ks i) 0, min (d.upper ks i) ((d.extent i : Int) - 1))
/-- Has a set no element. -/
def Desc.emptySet (d : Desc) (ks : Ctrs) : Bool := (List.range d.rank).any fun i => decide ((d.side ks i).2 < (d.side ks i).1)

/-- hi of R191: the largest coordinate of the set in dimension GD below its extent, when there is one. -/
def Desc.gateHi (d : Desc) (ks : Ctrs) : Option Int :=
  let hi := min (d.side ks d.gd).2 ((d.extent d.gd : Int) - 1)
  if (d.side ks d.gd).1 ≤ hi ∧ d.emptySet ks = false then some hi else none

/-- Slabs of the part of one set outside another (R183): slab i needs the dimensions below i to overlap and dimension i to stick
out; after a KSET a set that meets the other nowhere is one slab. -/
def Desc.slabsOf (d : Desc) (kset : Bool) (a : Ctrs) (b : Option Ctrs) : Nat :=
  if d.emptySet a then 0
  else
    match b with
    | none => 1
    | some b =>
      let meets (i : Nat) : Bool := decide (max (d.side a i).1 (d.side b i).1 ≤ min (d.side a i).2 (d.side b i).2)
      if kset && !(List.range d.rank).all meets then 1
      else
        ((List.range d.rank).filter fun i =>
          (List.range i).all meets &&
            (decide ((d.side a i).1 < (d.side b i).1) || decide ((d.side b i).2 < (d.side a i).2))).length

/-- Is nothing fetched under old counters outside the set of new ones: then there is nothing to release (R183, R184). -/
def Desc.keepsAll (d : Desc) (old : Ctrs) (new : Ctrs) : Bool := (d.coords old).all fun a => d.inSet new a

/-- The next delivery of register q under counters ks, caused at pc (R182): created at once while the depth allows it
(R185, R200). `kset` says that the event is a KSET's (R183). -/
def Slot.createGen (sl : Slot) (q : Nat) (kset : Bool) (ks : Ctrs) (pc : X64) : Slot :=
  let r := sl.reg q
  let d := r.desc
  let n := r.next
  let old := r.gens.getLast?.map (·.ks)
  let g : Gen :=
    { n := n, ks := ks, old := old, ix := (sl.reg d.ixq).next - 1, gate := !d.wme || (d.gateHi ks).isNone, gateFail := none
      released := match old with | none => true | some o => d.keepsAll o ks
      landed := false, causePc := pc }
  let now := decide (r.created = n) && decide (r.outstanding < d.depth)
  let slabs := d.slabsOf kset ks old + match old with | none => 0 | some o => d.slabsOf kset o (some ks)
  let sl := sl.modReg q fun r => { r with gens := r.gens ++ [g], created := if now then n + 1 else r.created, slabs := slabs }
  if now then { sl with landed := landedBit sl.landed q n false } else sl

/-- Create the next delivery of a saved queue once an earlier one has landed (R200). -/
def Slot.createPending (sl : Slot) (q : Nat) : Slot :=
  let r := sl.reg q
  if r.outstanding < r.desc.depth ∧ r.created < r.next then
    { sl.modReg q fun r => { r with created := r.created + 1 } with landed := landedBit sl.landed q r.created false }
  else sl

/-! ### Counter events (R96, R97, R102) -/

/-- Must the slice stall before it emits a counter event: a register would hold more unlanded deliveries than its depth
(R185). -/
def Slot.depthReached (sl : Slot) (named : BitVec 6) : Bool :=
  (List.range 16).any fun q =>
    let r := sl.reg q
    r.st == .live && r.desc.advancedBy named && decide (r.desc.depth ≤ r.unlanded)

/-- Emit one counter event: the entry with its kind and value (R257), the new counters, and a delivery of every live register
that uses a named counter (R97, R182). Index registers advance before the registers that use them (R181). -/
def Slot.emit (sl : Slot) (named : BitVec 6) (kind value : Nat) (ks : Ctrs) (pc : X64) : Slot :=
  if !sl.tr.vu then { sl with k := ks }
  else
    let e : Entry :=
      { kind := .counter, ins := none, word := 0, scalar := BitVec.ofNat 64 (kind * 2 ^ 32 + value), pc := pc
        stages := sl.predicates, named := named, vl := sl.svl, p := true, cvHead := pc, cvPos := 0, leave := 0 }
    let live := (List.range 16).filter fun q => (sl.reg q).st == .live && (sl.reg q).desc.advancedBy named
    let order := (live.filter fun q => !(sl.reg q).desc.indexed) ++ live.filter fun q => (sl.reg q).desc.indexed
    order.foldl (fun sl q => sl.createGen q (decide (kind = 2)) ks pc) { sl.push e with k := ks }

/-- Before an event: ILLEGAL-OPERAND while the queue is frozen (R256), a stall on depth (R185) or on a full queue (R24); then
`go`. -/
def State.withEvent (s : State) (named : BitVec 6) (pc : X64) (go : Slot → Slot) : State :=
  let sl := s.me
  if sl.tr.vu && sl.tr.froz then s.trapOperand
  else if sl.tr.vu && sl.depthReached named then s.setMe { sl.stall 5 with phase := .depth named }
  else if sl.tr.vu && decide (64 ≤ sl.queue.length) then s.setMe (sl.stall 1)
  else if !sl.tr.vu then s.setMe (go sl)
  else (s.setMe (go sl)).trace s.cur 3 pc (BitVec.ofNat 64 named.toNat)
    (BitVec.ofNat 64 ((vat (go sl).k 0 0).toNat + (vat (go sl).k 1 0).toNat * 2 ^ 32))

/-- The counters after a saved counter event (R257). -/
def applyEvent (ks : Ctrs) (e : Entry) : Ctrs :=
  let v : BitVec 32 := BitVec.ofNat 32 (fld e.scalar 0 32)
  let top := (List.range 6).foldl (fun t j => if e.named.getLsbD j then j else t) 0
  Vector.ofFn fun j : Fin 6 =>
    let x := vat ks j.val 0
    if !e.named.getLsbD j.val then x
    else
      match fld e.scalar 32 2 with
      | 0 => if j.val = top then x + 1 else 0
      | 1 => x + 1
      | 2 => v
      | _ => 0

/-! ### What holds a delivery -/

/-- Residency register that a Format Q word names. -/
def qOfWord (w : Word) : Nat := w.toNat / 2097152 % 16

/-- Does an entry hold the fills of deliveries created after it: an acquiring far load, or a FENCE.VV or FENCE.ALL marker
(R230, R231). -/
def Entry.holdsFills (e : Entry) : Bool :=
  (e.kind == .marker && opOf e.word == 0x66 && decide (2 ≤ e.word.toNat % 8)) ||
    (e.p && match e.ins with
      | some (.ldf _ _ _ _ _ ord _ _) => ord
      | some (.ldfx _ _ _ _ _ ord _ _) => ord
      | _ => false)

/-- Does the marker of the QSET of q stand in a queue. -/
def setQueued (es : List Entry) (q : Nat) : Bool := es.any fun e => e.kind == .qMarker && opOf e.word == 0x68 && qOfWord e.word == q

/-- Does a holding entry of a queue stand before the entry that creates the delivery that is `n` events later than the QSET of q, whose
marker is the last of q in the queue, or `seen`. -/
def heldIn (q : Nat) (d : Desc) : List Entry → Bool → Nat → Bool
  | [], _, _ => false
  | e :: t, seen, n =>
    if seen && n == 0 then false
    else if e.holdsFills then true
    else if !seen then heldIn q d t (e.kind == .qMarker && opOf e.word == 0x68 && qOfWord e.word == q && !setQueued t q) n
    else heldIn q d t true (if e.kind == .counter && d.advancedBy e.named then n - 1 else n)

/-- Is an element in some set of a register's generations. -/
def ResReg.holds (r : ResReg) (a : List Int) : Bool := r.gens.any fun g => r.desc.inSet g.ks a
/-- Is an element held through the partner of a shared pair (R190). -/
def Slot.partnerHolds (sl : Slot) (q : Nat) (a : List Int) : Bool :=
  let r := sl.reg q
  r.paired && (sl.reg r.desc.shq).holds a

/-- The elements that a delivery fills: those of its set that were not in the one before, and that do not lie in the ring yet, as one
that a partner has brought in or has just left does (R183, R190). -/
def Slot.freshOf (sl : Slot) (q : Nat) (g : Gen) : List (List Int) :=
  let d := (sl.reg q).desc
  let cells := sl.cellsOf q
  (d.coords g.ks).filter fun a =>
    (match g.old with | none => true | some o => !d.inSet o a) && !(cells.any fun c => c.co == a)

/-- Is something still owed to memory by the writebacks and releases that the lanes had passed before their n-th FENCE.VV (R231). -/
def Slot.owedBefore (sl : Slot) (n : Nat) : Bool :=
  sl.q.toList.any fun r => (r.wbs.any fun w => decide (w.epoch < n) && !(sl.tr.inh && w.done)) ||
    (r.gens.take (r.past + 1)).any fun g => !g.released && decide (g.epoch < n)

/-- How many FENCE.VV the lanes had passed before the event of the generation at position i (R231). -/
def Slot.epochOf (sl : Slot) (q i : Nat) (g : Gen) : Nat := if i ≤ (sl.reg q).past then g.epoch else sl.fences

/-- Is a writeback of an element that a delivery fills still owed (R184). -/
def Slot.owesFor (sl : Slot) (q : Nat) (ks : Ctrs) (a : List Int) : Bool :=
  let d := (sl.reg q).desc
  let base := if d.indexed then (match sl.indexPtr d ks a with | .ok p => some p | .error _ => none) else some d.base
  match base with
  | some b => (d.bytesOf b a).any fun p => sl.owes p.1 p.2
  | none => false

/-- May the delivery at position i of the generations land now: it is created, passed its gate and released what leaves;
every earlier writeback of what it fills has performed; no fence or acquire holds it; its index elements have landed; a
codebook delivered wide has been copied; and its slots are free (R181, R182, R184, R187, R191, R231). -/
def Slot.mayLand (sl : Slot) (q i : Nat) (g : Gen) : Bool :=
  let r := sl.reg q
  let d := r.desc
  let fresh := sl.freshOf q g
  let cells := sl.cellsOf q
  decide (g.n < r.created) && g.gate && g.released && !(fresh.any fun a => sl.owesFor q g.ks a) &&
    !heldIn q d sl.queue (!setQueued sl.queue q) (i - r.past) && !sl.owedBefore (sl.epochOf q i g) &&
    (!d.indexed || !(sl.reg d.ixq).gens.any fun x => decide (x.n ≤ g.ix) && !x.landed) &&
    (!(d.mfc == 2 && d.rtype != .c4) || r.lanesSee) &&
    !cells.any fun c => fresh.any fun a => d.sameSlot r.lens a c.co

/-- Generations that the lanes have passed and that are done with leave the list; how many others they have passed comes first. -/
def pruneGens : Nat → List Gen → Nat × List Gen
  | n + 1, g :: t => if g.landed && g.released then pruneGens n t else (n + 1, g :: t)
  | n, l => (n, l)
/-- Forget the generations that the lanes have passed and that are done with. -/
def ResReg.prune (r : ResReg) : ResReg :=
  let p := pruneGens r.past r.gens
  { r with past := p.1, gens := p.2 }

/-- The generation that the entry at the head of the queue sees. -/
def ResReg.seen (r : ResReg) : Option Gen := r.gens[r.past]?

/-- The first generation that has not landed, with its position. -/
def ResReg.firstUnlanded (r : ResReg) : Option (Gen × Nat) := r.gens.zipIdx.find? fun p => !p.1.landed

/-- The element groups of a resident access or the runs of a fill, as the loft words of each, wait for banks: where R188 rules
out every conflict BANKSTALL stays, elsewhere the cycles are a free value (R188) [log 4]. -/
def State.bankWait (s : State) (k : Nat) (groups : List (List Nat)) : State :=
  if groups.all loftFree then s
  else (s.modSlot k fun sl => { sl with bankstall := sl.bankstall + Config.freeCount s.free }).tick

/-- The loft words of each run that fills some elements; of scale rows the spec gives no place, so nothing is ruled out of a scaled
register's fill (R187, R188, R349). -/
def Slot.fillWords (sl : Slot) (q : Nat) (as : List (List Int)) : List (List Nat) :=
  let r := sl.reg q
  if r.desc.rtype.isBlock && !as.isEmpty then [[0, 256]] else as.map fun a => r.desc.runWords r.lens (sl.loft + r.ringBase) a

/-- Does a halt keep the sequencer of slot k from issuing fills and reading watermarks: while the slot is stopped and neither drains
its convoy nor is stepped [DEDUCED, log 101] (R322 to R324). -/
def State.haltsFills (s : State) (k : Nat) : Bool := s.halted && (s.slot k).st == .stop && !(s.slot k).stopping

/-- Was a fill issued and waits for READs over a link: the fill of local memory is issued as it lands (R322). -/
def State.fillOpen (s : State) (k q : Nat) (ks : Ctrs) (heads : List (List Int)) : Bool :=
  let g := s.seqAgent k
  s.reqs.any (fun r => r.owner == g.owner) &&
    match (s.dropReqs g.owner).fetchCells k g q ks heads with
    | .ok (_, .wait) => true
    | _ => false

/-- DELIVERY_LANDS: the oldest unlanded delivery fills its elements, from memory as it then stands, and lands (R182, R183,
R186). None when it may not; in a halted slot only a fill that was issued before lands (R322). -/
def State.landDelivery (s : State) (k q : Nat) : Option (Res State) :=
  let sl := s.slot k
  let r := sl.reg q
  if sl.cst = .faulted ∨ r.st = .retired then none
  else
    match r.firstUnlanded with
    | none => none
    | some (g, i) =>
      if !sl.mayLand q i g then none
      else
        let g' := s.seqAgent k
        let fresh := sl.freshOf q g
        let land (s : State) (cells : List Cell) : State :=
          let s := s.modSlot k fun sl =>
            let sl := sl.setCells q (sl.cellsOf q ++ cells)
            let sl := sl.modReg q fun r =>
              { r with gens := r.gens.map fun (x : Gen) => if x.n = g.n then { x with landed := true } else x }
            let sl := { sl with
              landed := landedBit sl.landed q g.n true
              qdone := sl.qdone.setIfInBounds q (BitVec.ofNat 64 (g.n + 1)) }
            (sl.createPending q).modReg q ResReg.prune
          ((s.dropReqs g'.owner).bankWait k (sl.fillWords q fresh)).trace k 4 r.qsetPc (BitVec.ofNat 64 q) (BitVec.ofNat 64 g.n)
        let heads := r.desc.unitHeads fresh
        if s.haltsFills k && !s.fillOpen k q g.ks heads then none
        else match g.gateFail with
        | some f =>
          some (.ok (land s (fresh.map fun a => { co := a, val := 0, scale := 0, base := 0, dirty := false, fail := some f })))
        | none =>
          match s.fetchCells k g' q g.ks heads with
          | .error e => some (.error e)
          | .ok (s', .ok cells) => some (.ok (land s' cells))
          | .ok (_, .trap _ _) => none
          | .ok (s', .wait) => if s'.reqs = s.reqs then none else some (.ok (s'.unfollow s k))

/-- WATERMARK_REREAD: the oldest unlanded delivery reads its watermark and passes the gate when hi < W, or with failed
elements when the read faults (R191). The sequencer's read finds dirty bytes of the data L1s, as the scalar agents' accesses do, so
that a plain store of the word can be seen [DEDUCED, log 92]. None when no delivery waits at a gate, and in a halted slot (R322). -/
def State.rereadMark (s : State) (k q : Nat) : Option (Res State) :=
  let r := (s.slot k).reg q
  match r.firstUnlanded with
  | none => none
  | some (g, _) =>
    if s.haltsFills k = true ∨ r.st = .retired ∨ g.gate = true ∨ r.created ≤ g.n ∨ (s.slot k).cst = .faulted then none
    else
      let ag := s.seqAgent k
      let pass (s : State) (f : Option FillFail) : State :=
        (s.dropReqs ag.owner).modSlot k fun sl => sl.modReg q fun r =>
          { r with gens := r.gens.map fun (x : Gen) => if x.n = g.n then { x with gate := true, gateFail := f } else x }
      match s.loadNat k ag true 8 8 r.desc.waddr with
      | .error e => some (.error e)
      | .ok (s', .ok w) =>
        match r.desc.gateHi g.ks with
        | none => some (.ok (pass s' none))
        | some hi =>
          let t := s'.dropReqs ag.owner
          if hi < (w : Int) then some (.ok (pass s' none))
          else if t.reqs = s.reqs ∧ t.slot k = s.slot k ∧ (t.coreAt (coreOf k)).rlate = (s.coreAt (coreOf k)).rlate then none
          else some (.ok t)
      | .ok (s', .trap code _) => some (.ok (pass s' (some { code := code, addr := some r.desc.waddr })))
      | .ok (s', .wait) => if s'.reqs = s.reqs then none else some (.ok (s'.unfollow s k))

/-! ### Releases and writebacks -/

/-- Does a register that uses q as its index still need elements of q's generation `n` and before (R181). -/
def Slot.indexNeeded (sl : Slot) (q n : Nat) : Bool :=
  sl.q.toList.any fun r => r.st != .retired && r.desc.indexed && r.desc.ixq == q && r.gens.any fun g => !g.landed && decide (g.ix < n)

/-- Do two writes begin at one place. -/
def sameStart (u v : List (Nat × List Byte)) : Bool := u.head?.map (·.1) == v.head?.map (·.1)

/-- Add a writeback to a register. An element that an earlier one lost is not sent again when this one writes it [DEDUCED, log 107]. -/
def ResReg.addWb (r : ResReg) (w : List (List (Nat × List Byte))) (pc : X64) (epoch : Nat) : ResReg :=
  if w.isEmpty then r
  else
    { r with
      wbs := r.wbs.map (fun x => { x with lost := x.lost.filter fun u => !w.any (sameStart u) }) ++
        [{ elems := w, causePc := pc, fail := none, raised := false, epoch := epoch }] }

/-- ELEMENT_RELEASE: once the lanes have passed a delivery's counter event and the deliveries before it have landed, what leaves at it
is released: dirty elements are written back, clean ones dropped (R182, R184). None when nothing is to release, and in a halted slot,
where no new writeback is issued (R322). -/
def State.releaseElems (s : State) (k q : Nat) : Option State :=
  let sl := s.slot k
  let r := sl.reg q
  if r.st = .retired ∨ sl.cst = .faulted ∨ r.lanesSee = false ∨ s.haltsFills k = true then none
  else
    match (r.gens.take (r.past + 1)).dropWhile fun g => g.released && g.landed with
    | [] => none
    | g :: _ =>
      if g.released || sl.indexNeeded q g.n then none
      else
        let gone (c : Cell) : Bool :=
          (match g.old with | none => false | some o => r.desc.inSet o c.co) && !r.desc.inSet g.ks c.co &&
            !sl.partnerHolds q c.co
        let w := s.gatherWrites r.desc ((sl.cellsOf q).filter gone)
        some (w.1.modSlot k fun sl =>
          let sl := sl.setCells q ((sl.cellsOf q).filter fun c => !gone c)
          sl.modReg q fun r =>
            ({ r with gens := r.gens.map fun (x : Gen) => if x.n = g.n then { x with released := true } else x }).addWb w.2 g.causePc g.epoch)

/-- Change the writeback at position i of register q of slot k, or take it away. -/
def State.modWb (s : State) (k q i : Nat) (f : Writeback → Option Writeback) : State :=
  s.modSlot k fun sl => sl.modReg q fun r =>
    { r with wbs := r.wbs.zipIdx.filterMap fun p => if p.2 = i then f p.1 else some p.1 }

/-- The lane fault of a failed writeback of register q, at the lanes' next element-group boundary once no handler runs: what the head
entry has issued is settled first (R186, R215, R254, R309). None while it must wait. -/
def State.raiseWb (s : State) (k q i : Nat) (w : Writeback) (f : FillFail) : Option State :=
  if (s.slot k).takesLaneTrap && s.laneFree k && !s.storesOpen k then
    some ((s.modWb k q i fun w => some { w with raised := true }).laneTrap k f.code 1 w.causePc (f.addr.getD 0))
  else none

/-- What a writeback sends again, after the ERET of the handler that its fault went to (R186). -/
def Writeback.again (w : Writeback) : Writeback :=
  { w with elems := w.lost ++ w.elems, lost := [], hard := false, fail := none, raised := false }

/-- A writeback of which the elements `left` remain, the first of them failed. -/
def Writeback.loses (w : Writeback) (left : List (List (Nat × List Byte))) (f : FillFail) : Writeback :=
  { w with
    elems := left.drop 1, lost := w.lost ++ left.take 1, hard := w.hard || decide (f.code ≠ .linkIncomplete)
    fail := some (w.fail.getD f) }

/-- The oldest writeback of a register with something to do: a fault to raise, elements to send, or all of it acknowledged; and one
whose handler has returned, to send again. -/
def ResReg.dueWb (r : ResReg) (handled : Bool) : Option (Writeback × Nat) :=
  r.wbs.zipIdx.find? fun p =>
    !p.1.elems.isEmpty || (p.1.fail.isSome && !p.1.raised) || p.1.lost.isEmpty || (p.1.raised && handled)

/-- WRITEBACK_ACK: a writeback of a register performs, each element whole; those that meet a fault wait, and the fault is a lane fault of
the entry that caused the release, taken when no handler runs; after its ERET what was not acknowledged is sent again (R184, R186). -/
def State.ackWriteback (s : State) (k q : Nat) : Option (Res State) :=
  let sl := s.slot k
  let handled := !sl.tr.inh && sl.pend.isNone
  if sl.cst = .faulted then none
  else
    match (sl.reg q).dueWb handled with
    | none => none
    | some (w, i) =>
      let raised : Option State := match w.fail with | some f => if w.raised then none else s.raiseWb k q i w f | none => none
      match raised with
      | some s' => some (.ok s')
      | none =>
        if w.raised && handled then some (.ok (s.modWb k q i fun w => some w.again))
        else if w.elems.isEmpty then
          if w.lost.isEmpty && (w.fail.isNone || w.raised) then some (.ok (s.modWb k q i fun _ => none)) else none
        else
          match s.performWrites k (s.seqAgent k) w.elems with
          | .error e => some (.error e)
          | .ok (s', .ok _, _) =>
            some (.ok (s'.modWb k q i fun w => if w.lost.isEmpty && w.fail.isNone then none else some { w with elems := [] }))
          | .ok (s', .wait, left) =>
            if s'.reqs = s.reqs ∧ left = w.elems then none else some (.ok (s'.modWb k q i fun w => some { w with elems := left }))
          | .ok (s', .trap code va, left) =>
            let f : FillFail := { code := code, addr := some va }
            let s' := s'.modWb k q i fun w => some (w.loses left f)
            some (.ok ((s'.raiseWb k q i w (w.fail.getD f)).getD s'))

/-- The lanes pass the marker of a QDROP: dirty elements are written back, the set is released, and a partner keeps what it
holds, with the ring of the pair as it is: its size and place [DESIGN CHOICE, log 93] (R190, R195). -/
def State.dropAtLanes (s : State) (k q : Nat) : State :=
  let sl := s.slot k
  let r := sl.reg q
  if r.st ≠ .dropping ∨ r.lanesSee = false then s
  else
    let stay (c : Cell) : Bool := sl.partnerHolds q c.co
    let w := s.gatherWrites r.desc ((sl.cellsOf q).filter fun c => !stay c)
    w.1.modSlot k fun sl =>
      let left := (sl.cellsOf q).filter stay
      let sl := sl.setCells q []
      let sl := if r.paired then sl.modReg r.desc.shq fun p => { p with paired := false, cells := left } else sl
      sl.modReg q fun r =>
        ({ r with
          lanesSee := false, paired := false, gens := [], past := 0, cells := []
          ringBytes := if r.paired then 0 else r.ringBytes }).addWb w.2 r.dropPc sl.fences

/-- Does the marker of a QDROP of q stand in the queue. -/
def Slot.dropQueued (sl : Slot) (q : Nat) : Bool :=
  sl.queue.any fun e => e.p && e.kind == .qMarker && opOf e.word == 0x69 && qOfWord e.word == q

/-- QDROP_COMPLETE: every earlier entry retired and every writeback acknowledged (R193). -/
def State.completeDrop (s : State) (k q : Nat) : Option State :=
  let r := (s.slot k).reg q
  if r.st = .dropping ∧ r.lanesSee = false ∧ r.wbs.isEmpty = true ∧ (s.slot k).dropQueued q = false then
    some (s.modSlot k fun sl =>
      { sl.modReg q fun r => { ResReg.reset with created := r.created } with landed := setFld sl.landed (4 * q) 4 0 })
  else none

/-- The lanes pass the marker of a QSET: later entries see q LIVE, and a codebook delivered wide is copied (R180, R194). -/
def State.setAtLanes (s : State) (k q : Nat) : State :=
  s.modSlot k fun sl =>
    let r := sl.reg q
    if r.st = .retired ∨ r.lanesSee = true then sl
    else sl.modReg q fun r =>
      { r with
        lanesSee := true, gens := r.gens.map fun (g : Gen) => { g with epoch := sl.fences }
        book := if r.desc.mfc = 2 ∧ r.desc.rtype ≠ .c4 then vat sl.lane.b r.desc.marg (Vector.replicate 16 0) else r.book }

/-- A QSET or QDROP marker retires; a restored one has no effect (R261). -/
def State.passQMarker (s : State) (k : Nat) (e : Entry) : State :=
  if !e.p then s
  else if opOf e.word = 0x68 then s.setAtLanes k (qOfWord e.word) else s.dropAtLanes k (qOfWord e.word)

/-- The lanes see the next generation, after n FENCE.VV (R97, R231). -/
def ResReg.advance (r : ResReg) (n : Nat) : ResReg :=
  if r.past + 1 < r.gens.length then
    { r with past := r.past + 1, gens := r.gens.modify (r.past + 1) fun g => { g with epoch := n } }
  else r

/-- A counter event reaches the lanes: later entries see the next generation of every register that uses a named counter
(R97), but for one whose QSET's marker still stands in the queue, as it does in a restored one (R261). The generation before stays
until it has landed (R182). It waits for a delivery that a saved queue has not created yet (R200). -/
def State.passCounter (s : State) (k : Nat) (e : Entry) : Option State :=
  let sl := s.slot k
  let advances (q : Nat) : Bool :=
    (sl.reg q).st != .retired && (sl.reg q).lanesSee && (sl.reg q).desc.advancedBy e.named && !setQueued sl.queue q
  let ready (r : ResReg) : Bool :=
    match r.gens[r.past + 1]? with
    | some h => decide (h.n < r.created)
    | none => true
  if (List.range 16).all fun q => !advances q || ready (sl.reg q) then
    some (s.setSlot k { sl with
      q := Vector.ofFn fun q : Fin 16 =>
        let r := sl.reg q.val
        if advances q.val then (r.advance sl.fences).prune else r })
  else none

/-! ### Rings -/

/-- Rings that the live and dropping registers hold, a pair's once (R187, R190): a ring that a partner keeps has left its
register. -/
def Slot.rings (sl : Slot) (except : Option Nat) : List (Nat × Nat) :=
  (List.range 16).filterMap fun q =>
    let r := sl.reg q
    if r.st = .retired ∨ some q = except ∨ r.ringBytes = 0 ∨ (r.paired = true ∧ r.desc.shq < q) then none else some (r.ringBase, r.ringBytes)

/-- The lowest place of the share that holds a ring of n bytes between the others (R349). -/
def placeRing (rings : List (Nat × Nat)) (share n : Nat) : Option Nat :=
  let fits (o : Nat) : Bool := decide (o + n ≤ share) && rings.all fun r => decide (o + n ≤ r.1) || decide (r.1 + r.2 ≤ o)
  ((0 :: rings.map fun r => r.1 + r.2).filter fits).min?

/-! ### The instructions -/

/-- A decode trap for a word that would enter the control queue: VECTOR-UNAVAILABLE without vector state (R258),
ILLEGAL-OPERAND while it is frozen (R256), a stall while it is full (R24); otherwise the rest. -/
def State.entering (s : State) (w : Word) (go : State → Res State) : Res State :=
  let sl := s.me
  if !sl.tr.vu then .ok (s.trapWord .vectorUnavailable w)
  else if sl.tr.froz then .ok s.trapOperand
  else if 64 ≤ sl.queue.length then .ok (s.setMe (sl.stall 1))
  else go s

/-- The marker entry of a word at the slice's PC. -/
def Slot.markerOf (sl : Slot) (kind : EntryKind) (w : Word) : Entry :=
  { kind := kind, ins := none, word := w, scalar := 0, pc := sl.pc, stages := sl.predicates, named := 0, vl := sl.svl
    p := true, cvHead := sl.pc, cvPos := 0, leave := 0 }

/-- Set a register up: delivery 0 under the slice's counters, LANDED and QDONE cleared (R182, R194). -/
def Slot.setUp (sl : Slot) (q : Nat) (d : Desc) (hdr : Option CompHeader) (acq : Scope) (base bytes : Nat) (lens : List Nat)
    (pair : Option Nat) : Slot :=
  let cells := match pair with | some j => (sl.reg j).cells | none => []
  let sl := match pair with
    | some j => sl.modReg j fun r => { r with paired := true, ringBase := base, ringBytes := bytes, lens := lens, cells := if j < q then cells else [] }
    | none => sl
  let sl := sl.modReg q fun _ =>
    { ResReg.reset with
      st := .live, desc := d, hdr := hdr, acq := acq, qsetPc := sl.pc, ringBase := base, ringBytes := bytes, lens := lens
      paired := pair.isSome
      cells := match pair with | some j => if q < j then cells else [] | none => [] }
  let sl := { sl with landed := setFld sl.landed (4 * q) 4 0, qdone := sl.qdone.setIfInBounds q 0 }
  sl.createGen q false sl.k sl.pc

/-- QSET at the slice (R194): the descriptor is read by the scalar agent. Of several registers that overlap, TVAL names the one with
the lowest number [DESIGN CHOICE, log 94]. -/
def State.qset (s : State) (w : Word) (q a : Nat) (acq : Scope) : Res State :=
  s.entering w fun s =>
    let sl := s.me
    let lim := s.limits s.cur
    let va := sl.rx a
    if lim.2.1 ≤ q then .ok s.trapOperand
    else if (sl.reg q).st = .dropping then .ok (s.setMe (sl.stall 3))
    else if (sl.reg q).st = .live then .ok s.trapOperand
    else if va.toNat % 128 ≠ 0 then .ok s.trapOperand
    else
      let g := s.sliceAgent s.cur
      let fault (r : Res (State × Got Unit)) : Res State :=
        match r with
        | .error e => .error e
        | .ok (s, .ok _) => .ok s
        | .ok (s, .trap code addr) => .ok ((s.dropReqs g.owner).trapHere code 0 addr)
        | .ok (s', .wait) => let u := s'.unfollow s s.cur; .ok (u.setMe (u.me.stall 3))
      match s.loadBytes s.cur g true 128 1 va with
      | .error e => .error e
      | .ok (s1, .trap code addr) => fault (.ok (s1, .trap code addr))
      | .ok (s1, .wait) => fault (.ok (s1, .wait))
      | .ok (s1, .ok b) =>
        let d := Desc.parse b
        let seen (t : State) : State :=
          let t := t.touchRange s.cur g true false va 128
          if d.mfc = 3 then t.touchHeader s.cur g d.base else t
        let go (s : State) : Res (State × Got Unit) :=
          thenA (if d.mfc = 3 then thenA (s.loadHeader s.cur g true d.base) fun s h => .ok (s, .ok h) else .ok (s, .ok none)) fun s hdr =>
            let s := s.dropReqs g.owner
            let sl := s.me
            match d.check q (sl.reg d.ixq) with
            | some o => .ok (s.trapHere .descriptor 0 (BitVec.ofNat 64 o), .ok ())
            | none =>
              if d.mfc = 3 ∧ hdr = none then .ok (s.trapHere .descriptor 0 0x110, .ok ())
              else
                let others := (List.range 16).filter fun j => j != q && (sl.reg j).st != .retired
                let pair := others.find? fun j => (sl.reg j).st == .live && makesPair q j d (sl.reg j).desc
                let rings := sl.rings pair
                let lens := match pair with | some j => pairLens d (sl.reg j).desc sl.k | none => d.ringLens
                let n := match pair with | some j => pairRingBytes d (sl.reg j).desc sl.k | none => d.ringBytes
                let total := rings.foldl (fun acc r => acc + r.2) n
                match (if lim.2.2 < total then none else placeRing rings lim.2.2 n) with
                | none => .ok (s.trapHere .capacity 0 (BitVec.ofNat 64 total), .ok ())
                | some base =>
                  match others.find? fun j =>
                    some j != pair && sameTensor d (sl.reg j).desc && overlaps d (sl.reg j).desc sl.k &&
                      (d.accW || (sl.reg j).desc.accW) with
                  | some j => .ok (s.trapHere .overlap 0 (BitVec.ofNat 64 j), .ok ())
                  | none =>
                    let e := sl.markerOf .qMarker w
                    .ok (s.setMe ((sl.setUp q d hdr acq base n lens pair).push e).adv, .ok ())
        match go s1 with
        | .ok (t, .wait) => fault (.ok (t, .wait))
        | r => (fault r).map seen

/-- QSET (R194). -/
def execQset (q : Fin 16) (a : Fin 32) (sc : Scope) (s : State) : Host.Outcome State Fault Refusal :=
  let w := packQ 0x68 q.val a.val 0 sc.code.val
  finish (s.queueStep w false fun s => s.qset w q.val a.val sc)

/-- QDROP at the slice: a LIVE register turns DROPPING and a marker is pushed (R195); at a RETIRED one nothing happens (R193), and
nothing at a DROPPING one either [DESIGN CHOICE, log 95]. -/
def State.qdrop (s : State) (w : Word) (q : Nat) : Res State :=
  s.entering w fun s =>
    let sl := s.me
    if (s.limits s.cur).2.1 ≤ q then .ok s.trapOperand
    else if (sl.reg q).st ≠ .live then .ok (s.setMe sl.adv)
    else if sl.q.toList.any fun r => r.st == .live && r.desc.indexed && r.desc.ixq == q then .ok s.trapOperand
    else .ok (s.setMe (((sl.modReg q fun r => { r with st := .dropping, dropPc := sl.pc }).push (sl.markerOf .qMarker w)).adv))

/-- QDROP (R195). -/
def execQdrop (q : Fin 16) (s : State) : Host.Outcome State Fault Refusal :=
  let w := packQ 0x69 q.val 0 0 0
  finish (s.queueStep w false fun s => s.qdrop w q.val)

/-- Does a QWAIT for n deliveries of a register pass, and is it illegal (R196). -/
def Slot.qwaitOk (sl : Slot) (q : Nat) (n : X64) : Bool := decide (n ≤ vat sl.qdone q 0)
def Slot.qwaitBad (sl : Slot) (q : Nat) (n : X64) : Bool :=
  let r := sl.reg q
  if r.st = .retired then decide (vat sl.qdone q 0 < n) else decide (r.next < n.toNat)

/-- QWAIT (R196). -/
def execQwait (q : Fin 16) (a : Fin 32) (s : State) : Host.Outcome State Fault Refusal :=
  finish (s.scalarStep (packQ 0x6A q.val a.val 0 0) false false none fun s =>
    let n := s.me.rx a.val
    if (s.limits s.cur).2.1 ≤ q.val then .ok s.trapOperand
    else if s.me.qwaitBad q.val n then .ok s.trapOperand
    else if s.me.qwaitOk q.val n then .ok (s.setMe s.me.adv)
    else .ok (s.setMe { s.me.stall 3 with phase := .qwait q.val n }))

/-- STATUS of QSTAT (R197). -/
def Slot.qstatus (sl : Slot) (q : Nat) : X64 :=
  let r := sl.reg q
  match r.st with
  | .retired => 0
  | st =>
    let wmw := match r.firstUnlanded with | some (g, _) => !g.gate | none => false
    BitVec.ofNat 64 (r.slabs % 256 * 65536 + r.outstanding % 16 * 256 + b2n wmw * 32 + b2n r.paired * 16 +
      (r.desc.depth - 1) * 4 + (if st = .live then 1 else 2))

/-- The value of QSTAT (R197). -/
def Slot.qstat (sl : Slot) (q sel : Nat) : X64 :=
  let r := sl.reg q
  if sel = 0 then sl.qstatus q
  else if r.st = .retired then 0
  else
    match sel with
    | 1 => BitVec.ofNat 64 r.next
    | 2 => BitVec.ofNat 64 r.ringBytes
    | _ => r.desc.base

/-- QSTAT: at the slice, no back-flow (R197). -/
def execQstat (q : Fin 16) (d : Fin 32) (u : Fin 4) (s : State) : Host.Outcome State Fault Refusal :=
  finish (s.scalarStep (packQ 0x6B q.val 0 d.val u.val) false false none fun s =>
    if (s.limits s.cur).2.1 ≤ q.val then .ok s.trapOperand else .ok (s.putX d.val (s.me.qstat q.val u.val)))

/-- Does a WAIT pass (R198). -/
def Slot.waitOk (sl : Slot) (all : Bool) (m : X64) : Bool :=
  if all then sl.landed &&& m == m else m == 0 || sl.landed &&& m != 0

/-- A WAIT at the slice (R198). -/
def State.waitOn (s : State) (all : Bool) (a : Nat) : Res State :=
  let m := s.me.rx a
  if s.me.waitOk all m then .ok (s.setMe s.me.adv) else .ok (s.setMe { s.me.stall 4 with phase := .bits all m })

/-- WAIT_ANY (R198). -/
def execWaitAny (a : Fin 32) (s : State) : Host.Outcome State Fault Refusal :=
  finish (s.scalarStep (packQ 0x6C 0 a.val 0 0) false false none fun s => s.waitOn false a.val)
/-- WAIT_ALL (R198). -/
def execWaitAll (a : Fin 32) (s : State) : Host.Outcome State Fault Refusal :=
  finish (s.scalarStep (packQ 0x6C 0 a.val 0 1) false false none fun s => s.waitOn true a.val)

/-- FFRDY: the lowest set bit of LANDED and x[a], or 64 (R199). -/
def execFfrdy (a d : Fin 32) (s : State) : Host.Outcome State Fault Refusal :=
  finish (s.scalarStep (packQ 0x6D 0 a.val d.val 0) false false none fun s =>
    let m := s.me.landed &&& s.me.rx a.val
    .ok (s.putX d.val (BitVec.ofNat 64 (((List.range 64).find? fun i => bitAt m i).getD 64))))

/-! ### The sequencer's own steps -/

/-- A step that may have nothing to do. -/
def orSame (s : State) (r : Option (Res State)) : Host.Outcome State Fault Refusal := finish (r.getD (.ok s))

/-- DELIVERY_LANDS (R182). -/
def execDeliveryLands (k : Fin 1024) (q : Fin 16) (s : State) : Host.Outcome State Fault Refusal :=
  orSame s (s.landDelivery k.val q.val)
/-- WATERMARK_REREAD (R191). -/
def execWatermarkReread (k : Fin 1024) (q : Fin 16) (s : State) : Host.Outcome State Fault Refusal :=
  orSame s (s.rereadMark k.val q.val)
/-- ELEMENT_RELEASE (R184). -/
def execElementRelease (k : Fin 1024) (q : Fin 16) (s : State) : Host.Outcome State Fault Refusal :=
  orSame s ((s.releaseElems k.val q.val).map .ok)
/-- WRITEBACK_ACK (R186). -/
def execWritebackAck (k : Fin 1024) (q : Fin 16) (s : State) : Host.Outcome State Fault Refusal :=
  orSame s (s.ackWriteback k.val q.val)
/-- QDROP_COMPLETE (R193). -/
def execQdropComplete (k : Fin 1024) (q : Fin 16) (s : State) : Host.Outcome State Fault Refusal :=
  orSame s ((s.completeDrop k.val q.val).map .ok)

end Sys2Proof.Machine
end

