-- ==== Sys2Proof/Machine/Control.lean ====
section
/-! DEFINITION. Control flow of the slice: branches and jumps (R92 to R94), immediates (R72), loop nests and counters (R95 to
R102) and the grant of SETVL (R87, R88). -/

namespace Sys2Proof.Machine

/-! ### Branches and jumps -/

/-- PC + 4 × the sign-extended offset (R71, R93). -/
def branchTarget (pc : X64) (o : BitVec 20) : X64 := pc + 4 * o.signExtend 64

/-- Is an address in the body of the nest. -/
def Nest.contains (n : Nest) (a : X64) : Bool := decide ((a - n.nbody).toNat < 4 * n.len)

/-- Go on at a jump's target: reaching the end of a live body so is no fall through it (R96). -/
def Slot.jump (sl : Slot) (target : X64) : Slot := { sl.goto target with jumped := sl.live && target == sl.nest.stop }

/-- Take a branch: from the body of a live nest to a target outside it ends the nest (R100). -/
def Slot.branchTo (sl : Slot) (target : X64) : Slot :=
  let sl := if sl.inBody && !sl.nest.contains target then sl.endNest else sl
  sl.jump target

/-- A taken branch, with its trace record (R326). -/
def State.takeBranch (s : State) (target : X64) : State :=
  (s.setMe (s.me.branchTo target)).trace s.cur 2 s.me.pc target 0

/-- BR (R93). -/
def execBr (o : BitVec 20) (s : State) : Host.Outcome State Fault Refusal :=
  finish (s.scalarStep (packB 0x74 0 0 o.toNat) false false none fun s => .ok (s.takeBranch (branchTarget s.me.pc o)))

/-- BC and BC.CLR: taken when the condition bit equals `want` (R71, R93). -/
def State.branchIf (s : State) (c : Nat) (want : Bool) (o : BitVec 20) : State :=
  if vat s.me.c c false = want then s.takeBranch (branchTarget s.me.pc o) else s.setMe s.me.adv

/-- BC (R93). -/
def execBc (c : Fin 16) (o : BitVec 20) (s : State) : Host.Outcome State Fault Refusal :=
  finish (s.scalarStep (packB 0x75 c.val 1 o.toNat) false false none fun s => .ok (s.branchIf c.val true o))
/-- BC.CLR (R93). -/
def execBcClr (c : Fin 16) (o : BitVec 20) (s : State) : Host.Outcome State Fault Refusal :=
  finish (s.scalarStep (packB 0x75 c.val 0 o.toNat) false false none fun s => .ok (s.branchIf c.val false o))

/-- CALL: x31 := PC + 4 (R93); forbidden in a live nest (R100). -/
def execCall (o : BitVec 20) (s : State) : Host.Outcome State Fault Refusal :=
  finish (s.scalarStep (packB 0x76 0 0 o.toNat) true false none fun s =>
    let t := branchTarget s.me.pc o
    .ok ((s.setMe (s.me.wx 31 (s.me.pc + 4))).takeBranch t))

/-- JMP: a target that is not word-aligned raises the instruction-alignment trap (R94). -/
def State.jumpTo (s : State) (target : X64) : State :=
  if target.toNat % 4 ≠ 0 then s.trapHere .instructionAlignment 0 target else s.setMe (s.me.jump target)

/-- JMP.RET (R94). -/
def execJmpRet (s : State) : Host.Outcome State Fault Refusal :=
  finish (s.scalarStep (packU 0x77 0 0 0) true false none fun s => .ok (s.jumpTo (s.me.rx 31)))
/-- JMP.JR (R94). -/
def execJmpJr (d : Fin 32) (s : State) : Host.Outcome State Fault Refusal :=
  finish (s.scalarStep (packU 0x77 1 d.val 0) true false none fun s => .ok (s.jumpTo (s.me.rx d.val)))

/-- LI.LO (R72). -/
def execLiLo (d : Fin 32) (i : BitVec 19) (s : State) : Host.Outcome State Fault Refusal :=
  finish (s.scalarStep (packU 0x79 0 d.val i.toNat) false false none fun s => .ok (s.putX d.val (i.signExtend 64)))
/-- LI.HI (R72). -/
def execLiHi (d : Fin 32) (i : BitVec 19) (s : State) : Host.Outcome State Fault Refusal :=
  finish (s.scalarStep (packU 0x79 1 d.val i.toNat) false false none fun s =>
    .ok (s.putX d.val (s.me.rx d.val <<< 19 ||| i.setWidth 64)))

/-! ### Loop nests -/

/-- A set of counters as a mask. -/
def countersOf (p : Nat → Bool) : BitVec 6 :=
  BitVec.ofNat 6 ((List.range 6).foldl (fun acc j => acc + b2n (p j) * 2 ^ j) 0)

/-- Trip counts of a LOOP: none when some register is too large (R95). -/
def Slot.trips (sl : Slot) (n x : Nat) : Option (List Nat) :=
  (List.range n).mapM fun i =>
    let v := (sl.rx (x + i)).toNat
    if v < 2 ^ 32 then some v else none

/-- Open the nest of a LOOP at the slice's PC, its counters at zero already (R95). -/
def Slot.openNest (sl : Slot) (n l st : Nat) (ts : List Nat) : Slot :=
  let start := sl.pc + 4
  if ts.foldl (· * ·) 1 = 0 then sl.jump (start + BitVec.ofNat 64 (4 * (l + 1)))
  else
    let nest : Nest :=
      { act := true, own := sl.tr.inh, n := BitVec.ofNat 3 n, sm1 := BitVec.ofNat 2 st, lenm1 := BitVec.ofNat 6 l
        nbody := start, npass := 0, trip := Vector.ofFn fun i => BitVec.ofNat 32 (ts.getD i.val 0) }
    { (sl.goto start) with nest := nest }.startPass

/-- LOOP (R95); forbidden in a live nest (R100). -/
def execLoop (n : Fin 8) (x : Fin 32) (l : Fin 64) (u : Fin 4) (s : State) : Host.Outcome State Fault Refusal :=
  finish (s.scalarStep (packL 0x70 n.val x.val l.val u.val 0) true false none fun s =>
    let sl := s.me
    match sl.trips n.val x.val with
    | none => .ok s.trapOperand
    | some ts =>
      if 2 ^ 47 < ts.foldl (· * ·) 1 then .ok s.trapOperand
      else
        let named := countersOf fun j => decide (j < n.val) && vat sl.k j 0 != 0
        let zeroed : Ctrs := Vector.ofFn fun j => if j.val < n.val then 0 else vat sl.k j.val 0
        if named = 0 then .ok (s.setMe (sl.openNest n.val l.val u.val ts))
        else .ok (s.withEvent named sl.pc fun sl => (sl.emit named 3 0 zeroed sl.pc).openNest n.val l.val u.val ts))

/-- The counters after one more pass, with the highest counter that changed (R96). -/
def carryFrom (trip : Vector (BitVec 32) 6) (n : Nat) : Nat → Nat → Ctrs → Ctrs × Nat
  | 0, i, ks => (ks, i)
  | fuel + 1, i, ks =>
    let v := vat ks i 0 + 1
    if v = vat trip i 0 ∧ i + 1 < n then carryFrom trip n fuel (i + 1) (ks.setIfInBounds i 0)
    else (ks.setIfInBounds i v, i)

/-- The slice falls through the end of a live body (R96). -/
def State.passEnd (s : State) : State :=
  let sl := s.me
  let nest := sl.nest
  let p := nest.npass.toNat
  let t := nest.total
  let again (x : Slot) : Slot :=
    if p + 1 < t + nest.stages - 1 then
      { (x.goto nest.nbody) with nest := { x.nest with npass := BitVec.ofNat 48 (p + 1) } }.startPass
    else x.endNest.goto nest.stop
  if p + 1 < t then
    let c := carryFrom nest.trip nest.n.toNat 6 0 sl.k
    let named := countersOf fun j => decide (j ≤ c.2)
    s.withEvent named (nest.nbody - 4) fun x => again (x.emit named 0 0 c.1 (nest.nbody - 4))
  else s.setMe (again sl)

/-- Has the slice fallen through the end of its live body: a jump from outside to the address after it ends no pass (R96). -/
def Slot.atPassEnd (sl : Slot) : Bool := sl.live && sl.pc == sl.nest.stop && !sl.jumped

/-- PASS_END (R96). -/
def execPassEnd (k : Fin 1024) (s : State) : Host.Outcome State Fault Refusal :=
  if (s.slot k.val).st = .run ∧ (s.slot k.val).atPassEnd = true then .next { s with cur := k.val }.passEnd else .next s

/-- KADV (R102); forbidden in a live nest (R100). -/
def execKadv (k : Fin 6) (s : State) : Host.Outcome State Fault Refusal :=
  finish (s.scalarStep (packL 0x71 k.val 0 0 0 0) true false none fun s =>
    let named := countersOf fun j => j == k.val
    .ok (s.withEvent named s.me.pc fun sl =>
      (sl.emit named 1 0 (sl.k.setIfInBounds k.val (vat sl.k k.val 0 + 1)) sl.pc).adv))

/-- KRD: at the slice, no back-flow (R102). -/
def execKrd (k : Fin 6) (d : Fin 32) (s : State) : Host.Outcome State Fault Refusal :=
  finish (s.scalarStep (packL 0x72 k.val d.val 0 0 0) false false none fun s =>
    .ok (s.putX d.val ((vat s.me.k k.val 0).setWidth 64)))

/-- KSET (R102); forbidden in a live nest (R100). -/
def execKset (k : Fin 6) (a : Fin 32) (s : State) : Host.Outcome State Fault Refusal :=
  finish (s.scalarStep (packL 0x73 k.val a.val 0 0 0) true false none fun s =>
    let named := countersOf fun j => j == k.val
    let v : BitVec 32 := (s.me.rx a.val).setWidth 32
    .ok (s.withEvent named s.me.pc fun sl =>
      (sl.emit named 2 v.toNat (sl.k.setIfInBounds k.val v) sl.pc).adv))

/-- The head entry retires (R24). When it ends its convoy a CONVOY record is written (R326). -/
def State.retireHead (s : State) (k : Nat) : State :=
  let sl := s.slot k
  match sl.queue with
  | [] => s
  | e :: t =>
    let ends := match t with | [] => true | f :: _ => f.cvPos == 0
    let vl := if e.cvPos = 0 then sl.lane.vl else sl.cvVl
    let s := s.setSlot k { sl with queue := t, lastCv := if t.isEmpty then none else sl.lastCv, cvVl := vl }
    let s := if ends then
        s.trace k 1 e.cvHead (BitVec.ofNat 64 (e.cvPos + 1)) (vl.setWidth 64)
      else s
    if sl.st = .stop ∧ sl.stopping = true ∧ s.drained k = true then s.setSlot k (s.slot k).endDrain else s

/-! ### SETVL -/

/-- The largest power of two at or below y, or 0 (R87). -/
def floorPow2 (y : Nat) : Nat := if y = 0 then 0 else 2 ^ Nat.log2 y

/-- Slots of a core that are not VACANT (R87). -/
def State.boundOn (s : State) (c : Nat) : Nat := (s.slots.filter fun p => coreOf p.1 == c && p.2.st != .vacant).length

/-- S, the thread's share at the moment of a SETVL (R87). -/
def State.shareOf (s : State) (k : Nat) : Nat :=
  max 1 (floorPow2 ((s.coreAt (coreOf k)).plim / max 1 (s.boundOn (coreOf k))))

/-- The grant of a request at width w (R88). -/
def grantOf (request cap share w : Nat) : Nat := min request (min (512 * 2 ^ cap / w) (2048 * share / w))

/-- SETVL: the grant is returned at the slice and takes effect in queue order (R26, R88); in a dead stage it does nothing
(R99). -/
def execSetvl (d a : Fin 32) (t : Ty) (s : State) : Host.Outcome State Fault Refusal :=
  let i := Instr.setvl d a t
  let w := wordOf i
  match i.typeTrap with
  | some e => .next (s.trapWord (decodeTrapCode e) w)
  | none =>
    if !s.me.stageLive then .next (s.enqueue w (fun sl => sl.entryOf (some i) w 0) Slot.adv)
    else
      let sh := s.shareOf s.cur
      let vl := grantOf (s.me.rx a.val).toNat s.me.cap.toNat sh t.setvlBits
      .next (s.enqueue w (fun sl => { sl.entryOf (some i) w 0 with vl := BitVec.ofNat 13 vl }) fun sl =>
        { (sl.wx d.val (BitVec.ofNat 64 vl)) with svl := BitVec.ofNat 13 vl, swidth := some t, share := sh }.adv)

end Sys2Proof.Machine
end

