-- ==== Sys2Proof/Machine/Sched.lean ====
section
/-! DEFINITION. The scheduler (R250, R272 to R274, R278 to R286): launches, groups, placement, binding, pre-emption, and the end
of threads, groups and launches. -/

namespace Sys2Proof.Machine

/-! ### Memory of agents that are no thread -/

/-- The scheduler or the drover acting in an address space (R269): privileged, with no TLB of a core. -/
def schedAgent (pt : X64) (owner : Nat) : Agent := { core := 64, owner := owner, pt := pt, priv := true, urg := false }

/-- Read n bytes at a virtual address for an agent, rewriting nothing. -/
def State.peek (s : State) (g : Agent) (scalar : Bool) (n align : Nat) (va : X64) : Res (State × Got (List Byte)) :=
  match s.translate g.core g.pt g.priv .read align va with
  | .error e => .error e
  | .ok (s, .fail code a) => .ok (s, .trap code a)
  | .ok (s, .ok t fva _ _) => s.readAt g scalar t n fva

/-- Store bytes at a virtual address for an agent, rewriting nothing. -/
def State.poke (s : State) (g : Agent) (scalar : Bool) (b : List Byte) (align : Nat) (va : X64) : Res (State × Got Unit) :=
  match s.translate g.core g.pt g.priv .write align va with
  | .error e => .error e
  | .ok (s, .fail code a) => .ok (s, .trap code a)
  | .ok (s, .ok t fva _ _) => s.writeAt g scalar t b fva

/-- Store bytes and wait for nothing: over a link they travel as a WRITE, and a drained stack holds them. The second part is what
denies the store. -/
def State.post (s : State) (g : Agent) (b : List Byte) (va : X64) : Res (State × Option TrapCode) :=
  match s.unheld.translate g.core g.pt g.priv .write 8 va with
  | .error e => .error e
  | .ok (u, .fail code _) => .ok (u.reheld s, some code)
  | .ok (u, .ok (.far port part addr rcls) _ _ _) =>
    .ok ((u.reheld s).sendReq g port part addr rcls 1 b.length .none b, none)
  | .ok (u, .ok t fva _ _) =>
    match t, t.place with
    | .loc pa, some .hbm => .ok ((u.reheld s).sysStore pa b, none)
    | _, _ =>
      match u.writeAt g false t b fva with
      | .error e => .error e
      | .ok (u, .trap code _) => .ok (u.reheld s, some code)
      | .ok (u, _) => .ok (u.reheld s, none)

/-- Read m pieces of n bytes one after another. -/
def State.peekRange (s : State) (g : Agent) (scalar : Bool) (n : Nat) : Nat → X64 → Res (State × Got (List Byte))
  | 0, _ => .ok (s, .ok [])
  | m + 1, va =>
    thenA (s.peek g scalar n 1 va) fun s b =>
      thenA (s.peekRange g scalar n m (va + BitVec.ofNat 64 n)) fun s t => .ok (s, .ok (b ++ t))

/-- Store a list of pieces, each at its address. -/
def State.pokeAll (s : State) (g : Agent) (scalar : Bool) : List (X64 × List Byte) → Res (State × Got Unit)
  | [] => .ok (s, .ok ())
  | (va, b) :: t => thenA (s.poke g scalar b 1 va) fun s _ => s.pokeAll g scalar t

/-- Cut bytes that begin at an address into m pieces of n bytes. -/
def cutPieces (n : Nat) : Nat → X64 → List Byte → List (X64 × List Byte)
  | 0, _, _ => []
  | m + 1, va, b => (va, b.take n) :: cutPieces n m (va + BitVec.ofNat 64 n) (b.drop n)

/-! ### Launch numbers -/

/-- n0, the threads of a group (R29). -/
def Ctx.n0 (c : Ctx) : Nat := c.counts.getD 0 1
/-- The groups of a launch. -/
def Ctx.total (c : Ctx) : Nat := (c.counts.drop 1).foldl (· * ·) 1
/-- The loft share of a group (R278). -/
def Ctx.share (c : Ctx) : Nat := c.n0 * c.loftt + c.loftg
/-- Threads of the launch that a core takes (R278). -/
def Ctx.coreLimit (c : Ctx) : Nat := min 16 (32 / c.lgwish)

/-- Fields f1 to f5 of group number G (R284). -/
def fieldsOf : List Nat → Nat → List Nat
  | [], _ => []
  | n :: t, g => g % n :: fieldsOf t (g / n)

/-- The work identifier of fields with widths, f0 lowest (R29). -/
def workIdOf : List Nat → List Nat → Nat
  | w :: ws, f :: fs => f + 2 ^ w * workIdOf ws fs
  | _, _ => 0

/-- Field i of a work identifier (R29, R287). -/
def workField (widths : List Nat) (id i : Nat) : Nat :=
  id / 2 ^ ((widths.take i).foldl (· + ·) 0) % 2 ^ widths.getD i 0

/-- Where the images of group G begin (R286). -/
def Ctx.groupImage (c : Ctx) (g : Nat) : X64 :=
  c.cimg + BitVec.ofNat 64 (g * (c.n0 * 786432 + 262144 * ((c.loftg + 262143) / 262144)))
/-- The image of thread f0 of group G (R286). -/
def Ctx.threadImage (c : Ctx) (g f0 : Nat) : X64 := c.groupImage g + BitVec.ofNat 64 (f0 * 786432)
/-- Where the group area image of group G begins (R286). -/
def Ctx.areaImage (c : Ctx) (g : Nat) : X64 := c.threadImage g c.n0

/-! ### The group area (R284, R292) -/

/-- The 16 bytes of a barrier (R292). -/
def Barrier.bytes (b : Barrier) : List Byte := toBytes 4 b.count.toNat ++ toBytes 4 b.expect.toNat ++ toBytes 8 (b2n b.phase)
/-- A barrier from its 16 bytes. -/
def Barrier.ofBytes (b : List Byte) : Barrier :=
  { count := BitVec.ofNat 32 (Machine.ofBytes (b.take 4)), expect := BitVec.ofNat 32 (Machine.ofBytes ((b.drop 4).take 4))
    phase := decide (Machine.ofBytes ((b.drop 8).take 1) % 2 = 1) }
/-- A barrier that nothing has initialised (R285, R292). -/
def Barrier.reset : Barrier := { count := 0, expect := 0, phase := false }

/-- The group area as pieces of 128 bytes at its image. -/
def Group.areaPieces (g : Group) (loftg : Nat) (va : X64) : List (X64 × List Byte) :=
  cutPieces 128 (loftg / 128) va
    ((List.range (loftg / 16)).flatMap fun i => (alookup Barrier.reset g.bars (16 * i)).bytes)

/-- The barriers of a group area's bytes. -/
def barsOf (b : List Byte) : List (Nat × Barrier) :=
  (List.range (b.length / 16)).filterMap fun i =>
    let x := Barrier.ofBytes ((b.drop (16 * i)).take 16)
    if x = Barrier.reset then none else some (16 * i, x)

/-! ### Groups -/

/-- Change a group of a context. -/
def State.modGroup (s : State) (n g : Nat) (f : Group → Group) : State :=
  s.modCtxOf (some n) fun c => { c with groups := c.groups.map fun (x : Nat × Group) => if x.1 = g then (g, f x.2) else x }

/-- A group of a context. -/
def State.groupAt (s : State) (n g : Nat) : Option Group :=
  match s.ctxOf (some n) with
  | some c => (c.groups.find? fun x => x.1 == g).map (·.2)
  | none => none

/-- A slot that holds no context any more (R85). -/
def Slot.vacate (sl : Slot) : Slot :=
  { sl with
    st := .vacant, cause := 0, ctx := none, cst := .free, pend := none, preempt := false, phase := .fresh, stopping := false
    queue := [], lastCv := none, q := Vector.replicate 16 ResReg.reset, landed := 0 }

/-- Free slot k: what it still asked of a link or of the current bucket is forgotten, and its lane groups return. -/
def State.vacateSlot (s : State) (k : Nat) : State :=
  ((((((s.unwait k).modCore (coreOf k) fun c => c.returnLanes (k % 16)).dropReqs (4 * k)).dropReqs (4 * k + 1)).dropReqs (4 * k + 2)).dropReqs (4 * k + 3)).modSlot k Slot.vacate

/-- The thread of slot k. -/
def State.threadOf (s : State) (k : Nat) : ThreadId :=
  let sl := s.slot k
  { ctx := sl.ctx, group := if sl.ctx = none then k else sl.group, f0 := sl.f0 }

/-- The requests of the instruction that a pre-emption stops: a READ is forgotten, and a WRITE or an ATOMIC, which may have performed, is
kept for its thread (R255, R309) [DEDUCED, log 106]. -/
def State.parkReqs (s : State) (k : Nat) : State :=
  { s with reqs := s.reqs.filterMap fun (r : LinkReq) =>
      if r.owner ≠ 4 * k then some r
      else if r.kind = 2 then none
      else some { r with owner := queueOwner 64, parked := some (s.threadOf k) } }
/-- The stalled instruction of slot k's thread finds its request again when its handler returns (R255) [DEDUCED, log 106]. -/
def State.unparkReqs (s : State) (k : Nat) : State :=
  { s with reqs := s.reqs.map fun (r : LinkReq) =>
      if r.parked = some (s.threadOf k) then { r with owner := 4 * k, parked := none } else r }

/-- Send the pre-emption request of R255 to every bound slot of a group but one (R274, R285). -/
def State.preemptGroup (s : State) (n g : Nat) (but : Option Nat) : State :=
  (s.slotsOf n).foldl (fun s p =>
    if p.2.group = g ∧ some p.1 ≠ but then s.modSlot p.1 fun sl => { sl with preempt := true } else s)
    (s.modGroup n g fun x => if x.st = .bound then { x with st := .saving } else x)

/-- Does a group hold its shares of its cluster: while slots of it are bound (R278, R284, R285). -/
def Group.onCluster (g : Group) : Bool :=
  g.st == .bound || g.st == .saving || (g.st == .faulted && g.slots.any Option.isSome)

/-- A group that was to be pre-empted is bound as before once none of its threads has a request or a handler of one, and none has left
(R250, R274). -/
def State.keepGroup (s : State) (n g : Nat) : State :=
  let slots := (s.slotsOf n).filter fun p => p.2.group == g
  if slots.any fun p => p.2.preempt || p.2.cst == .preempting then s
  else s.modGroup n g fun x =>
    if x.st = .saving ∧ (x.slots.zip x.ended).all (fun p => p.1.isSome || p.2) = true then { x with st := .bound } else x

/-- A context faults outside any slot: while its group area is copied (R286). -/
def State.faultGroup (s : State) (n g : Nat) (code : TrapCode) : State :=
  let s := s.modGroup n g fun x => { x with st := .faulted }
  let s := s.modCtxOf (some n) fun c => { c with faultCode := if c.st = .faulted then c.faultCode else code.num }
  (s.setCtxSt n .faulted).addRecord 7 0 0 (causeWord code 0 false)

/-! ### The end of a launch (R279, R280) -/

/-- OR the flags of slot k into its launch (R280). -/
def State.handFlags (s : State) (k : Nat) : State :=
  let sl := s.slot k
  s.modCtxOf sl.ctx fun c => { c with flags := c.flags.or sl.lane.flags }

/-- The function that owns queue n: 0 the physical one, f virtual function f (R333). -/
def Service.owner (v : Service) (n : Nat) : Nat :=
  let o := vat v.qown n 0
  if o.getLsbD 7 then o.toNat % 64 + 1 else 0

/-- Signal the vector of queue n over MSI-X, among those of the function that owns the queue [DEDUCED, log 102] (R266, R332). -/
def State.signal (s : State) (n : Nat) : State :=
  { s with svc := { s.svc with msi := s.svc.msi ++ [(s.svc.owner n, (s.hqAt n).vec.toNat)] } }

/-- The completion word (R280). -/
def Ctx.wordValue (c : Ctx) (flt : Bool) : Nat := 2 ^ 63 + (if flt then 2 ^ 62 + c.faultCode * 2 ^ 32 else 0) + c.flags.bits

/-- A launch whose word is written, or never will be, completes: OPEN − 1, the interrupt that its packet asked for, and ENDED, or
with FLT its record is FREE and gone (R250, R269, R279). -/
def State.endLaunch (s : State) (n : Nat) (flt : Bool) : State :=
  match s.ctxOf (some n) with
  | none => s
  | some c =>
    let s := s.modHq c.hq fun q => { q with opn := q.opn - 1 }
    let s := if c.irq then s.signal c.hq else s
    let s := (s.modCtxOf (some n) fun c => { c with word := none }).setCtxSt n (if flt then .free else .ended)
    if flt then { s with ctxs := s.ctxs.filter fun p => p.1 != n } else s

/-- A word that is not written leaves a record, and the launch still completes (R280, R339). -/
def State.wordFailed (s : State) (c : Ctx) (code : TrapCode) : State := s.addRecord 9 c.hq 0 (BitVec.ofNat 64 code.num)

/-- Launch n completes once its word waits for no acknowledgement and no drained stack (R268, R280, R337). -/
def State.settleWord (s : State) (n : Nat) : State :=
  match s.ctxOf (some n) with
  | none => s
  | some c =>
    match c.word, s.reqs.find? fun r => r.owner == wordOwner n with
    | none, _ => s
    | some flt, none =>
      let held (m : Move) : Bool := match m with | .store pa _ => some pa.toNat == c.wordAt | _ => false
      if (s.held ++ s.agenda).any held then s else s.endLaunch n flt
    | some flt, some r =>
      match r.outcome with
      | .waiting => s
      | .ok _ => (s.dropReqs (wordOwner n)).endLaunch n flt
      | _ => ((s.dropReqs (wordOwner n)).wordFailed c .linkIncomplete).endLaunch n flt

/-- Every launch whose word a drained stack may have held completes when it has performed (R337). -/
def State.settleWords (s : State) : State :=
  s.ctxs.foldl (fun s p => if p.2.word.isSome && p.2.wordAt.isSome then s.settleWord p.1 else s) s

/-- The end of launch n: the scheduler writes the completion word (R279, R280). A REMOTE word travels as a WRITE, and the launch
completes at its acknowledgement; one that a drained stack holds performs later (R337). -/
def State.finishLaunch (s : State) (n : Nat) (flt : Bool) : Res State :=
  match s.ctxOf (some n) with
  | none => .ok s
  | some c =>
    let held := s.held.length
    match s.post (schedAgent c.hqroot (wordOwner n)) (toBytes 8 (c.wordValue flt)) c.cwaddr with
    | .error e => .error e
    | .ok (s, denied) =>
      let s := match denied with | some code => s.wordFailed c code | none => s
      let at_ := match s.held.getLast? with | some (.store pa _) => if held < s.held.length then some pa.toNat else none | _ => none
      .ok ((s.modCtxOf (some n) fun c => { c with word := some flt, wordAt := at_ }).settleWord n)

/-- Copy the group area out when slot k is the last bound slot of a group that does not end with it (R285, R286). -/
def State.areaOut (s : State) (k : Nat) (ends : Bool) : Res (State × Got Unit) :=
  let sl := s.slot k
  match sl.ctx with
  | none => .ok (s, .ok ())
  | some n =>
    match s.ctxOf (some n), s.groupAt n sl.group with
    | some c, some g =>
      let others := (s.slotsOf n).any fun p => p.2.group == sl.group && p.1 != k
      let last := ends && (g.ended.set sl.f0 true).all id
      if s.flushHeld (coreOf k) then .ok (s, .wait)
      else if others || last || g.st == .faulted then .ok (s, .ok ())
      else s.pokeAll { s.sliceAgent k with priv := true } false (g.areaPieces c.loftg (c.areaImage sl.group))
    | _, _ => .ok (s, .ok ())

/-- Slot k leaves its group (R285): it is VACANT, and the group is SAVED or ENDED once no slot of it is bound. -/
def State.leaveGroup (s : State) (k : Nat) (ends : Bool) : State :=
  let sl := s.slot k
  let s := s.vacateSlot k
  match sl.ctx with
  | none => s
  | some n =>
    let others := (s.slotsOf n).any fun p => p.2.group == sl.group
    s.modGroup n sl.group fun g =>
      let ended := if ends then g.ended.set sl.f0 true else g.ended
      { g with
        ended := ended, slots := g.slots.set sl.f0 none
        st := if g.st = .faulted then .faulted else if ended.all id then .ended else if others then g.st else .saved }

/-- ENDK completes on slot k (R281, R285): FLAGS to the scheduler, the slot VACANT, and the end of its group and launch when it
is the last. -/
def State.endThread (s : State) (k : Nat) : Res (State × Got Unit) :=
  thenA (s.areaOut k true) fun s _ =>
    let sl := s.slot k
    let s := ((s.handFlags k).flushCore (coreOf k)).leaveGroup k true
    match sl.ctx with
    | none => .ok (s, .ok ())
    | some n =>
      let last : Bool := match s.groupAt n sl.group with | some g => g.st == .ended | none => false
      let s := if last then s.modCtxOf (some n) fun c => { c with endedGroups := c.endedGroups + 1 } else s
      match s.ctxOf (some n) with
      | some c =>
        if last && decide (c.endedGroups = c.total) then
          match s.finishLaunch n false with
          | .error e => .error e
          | .ok s => .ok (s, .ok ())
        else .ok (s.syncCtx n, .ok ())
      | none => .ok (s, .ok ())

/-- IDLE on slot k (R262, R285, R286): a switch point, then the slot is VACANT; outside a pre-emption the rest of the group is
pre-empted. -/
def State.idleSlot (s : State) (k : Nat) : Res (State × Got Unit) :=
  thenA (s.areaOut k false) fun s _ =>
    let sl := s.slot k
    let s := ((s.flushCore (coreOf k)).switchPoint k).leaveGroup k false
    match sl.ctx with
    | none => .ok (s, .ok ())
    | some n =>
      let s := match s.groupAt n sl.group with
        | some g => if g.st = GroupState.bound then s.preemptGroup n sl.group (some k) else s
        | none => s
      .ok (s.syncCtx n, .ok ())

/-! ### Placement (R273, R274) -/

/-- Slots of a core that are held, those of the groups in `gone` and the places in `taken` counted as asked. -/
def State.heldOn (s : State) (gone : List (Nat × Nat)) (taken : List Nat) (core : Nat) : Nat :=
  (s.slots.filter fun p =>
    coreOf p.1 == core && p.2.st != .vacant && !gone.any fun g => p.2.ctx == some g.1 && p.2.group == g.2).length +
    (taken.filter fun k => coreOf k == core).length

/-- Threads of a launch that a core has room for (R273, R278). -/
def State.coreRoom (s : State) (gone : List (Nat × Nat)) (taken : List Nat) (c : Ctx) (core : Nat) : Nat :=
  min 16 c.coreLimit - s.heldOn gone taken core

/-- Loft bytes that the groups of a cluster hold (R278, R284). -/
def State.loftHeld (s : State) (gone : List (Nat × Nat)) (cl : Nat) : Nat :=
  s.ctxs.foldl (fun acc c => c.2.groups.foldl (fun acc g =>
    if g.2.cluster = cl ∧ g.2.onCluster = true ∧ gone.contains (c.1, g.1) = false then
      acc + c.2.share else acc) acc) 0

/-- Would a cluster take m threads of a launch (R273): none while its microcode is drained (R337). -/
def State.fits (s : State) (gone : List (Nat × Nat)) (c : Ctx) (m cl : Nat) : Bool :=
  !s.partOff 1 cl && decide (m ≤ (List.range 4).foldl (fun acc i => acc + s.coreRoom gone [] c (4 * cl + i)) 0) &&
    decide (s.loftHeld gone cl + c.share ≤ 33554432)

/-- The first of some numbers with the fewest, or the most, VACANT slots (R273). -/
def pickBy (pack : Bool) (vacant : Nat → Nat) : List Nat → Option Nat
  | [] => none
  | i :: t =>
    match pickBy pack vacant t with
    | none => some i
    | some j => if (if pack then vacant j < vacant i else vacant i < vacant j) then some j else some i

/-- The slots that m threads of a launch take on a cluster, one after another (R273). -/
def State.seats (s : State) (c : Ctx) (cl : Nat) : Nat → List Nat → List Nat
  | 0, taken => taken
  | m + 1, taken =>
    let cores := (List.range' (4 * cl) 4).filter fun i => decide (0 < s.coreRoom [] taken c i)
    match pickBy c.pack (fun i => 16 - s.heldOn [] taken i) cores with
    | none => taken
    | some i =>
      match (List.range' (16 * i) 16).find? fun k => decide ((s.slot k).st = .vacant) && !taken.contains k with
      | none => taken
      | some k => s.seats c cl m (taken ++ [k])

/-- The slot of a thread that starts (R250, R271, R278). LGRANT.SHARE reads 0 until the next SETVL, after a resume too, since the save image
holds no S [DESIGN CHOICE, log 112]. -/
def Ctx.freshSlot (c : Ctx) (n g f0 : Nat) (energy : X64) (old : Slot) : Slot :=
  { Slot.reset with
    st := .run, cst := .running, ctx := some n, group := g, f0 := f0, lc := old.lc
    pc := c.code + BitVec.ofNat 64 c.entry, ptroot := c.ptroot, ctxid := c.ctxid, elast := energy
    workId := BitVec.ofNat 64 (workIdOf c.widths (f0 :: fieldsOf (c.counts.drop 1) g))
    tr := { TrapRegs.reset with tvec := c.tvec &&& ~~~3#64, cimg := c.threadImage g f0 } }

/-- Bind one thread: it starts, or resumes in the handler with CAUSE RESUME (R250, R254, R356). Where its LOFTT bytes lie, at a
multiple of 256, is a free value (R349) [log 96]. -/
def State.bindSlot (s : State) (c : Ctx) (n g f0 k : Nat) (saved : Bool) : State :=
  let at_ := (Config.freeBits s.free).toNat % ((33554432 - c.loftt) / 256 + 1) * 256
  let sl := { c.freshSlot n g f0 (s.clusterAt (clusterOf k)).energy (s.slot k) with loft := at_ }
  let sl := if saved then { sl with pc := 0, tr := { sl.tr with vu := false } } else sl
  let s := (s.tick.setSlot k sl).modGroup n g fun x => { x with slots := x.slots.set f0 (some k) }
  if saved then s.enterTrap k { code := .resume, kind := 0, lane := false, epc := 0, tval := sl.tr.cimg, rpc := 0 } else s

/-- A group to place: its launch, its number and whether it is SAVED. -/
structure Cand where
  n : Nat
  c : Ctx
  g : Nat
  saved : Bool

/-- Does candidate a come before b (R273). -/
def Cand.before (a b : Cand) : Bool :=
  if a.c.prio ≠ b.c.prio then decide (b.c.prio < a.c.prio)
  else if a.saved != b.saved then a.saved
  else if a.c.age ≠ b.c.age then decide (a.c.age < b.c.age)
  else if a.c.hq ≠ b.c.hq then decide (a.c.hq < b.c.hq)
  else decide (a.g < b.g)

/-- The candidates in their order (R273). -/
def State.cands (s : State) : List Cand :=
  let all := s.ctxs.flatMap fun p =>
    let c := p.2
    if c.st = .faulted ∨ c.st = .ended ∨ c.st = .free ∨ c.st = .loading then []
    else
      ((c.groups.filter fun g => g.2.st == .saved).map fun g => { n := p.1, c := c, g := g.1, saved := true }) ++
        (if c.nextGroup < c.total then [{ n := p.1, c := c, g := c.nextGroup, saved := false }] else [])
  all.mergeSort fun a b => !b.before a

/-- Threads of a candidate that still run: every one of an unplaced group, those that have not ended of a SAVED one (R285). -/
def State.threadsOf (s : State) (x : Cand) : List Nat :=
  match if x.saved then s.groupAt x.n x.g else none with
  | some g => (List.range x.c.n0).filter fun i => !g.ended.getD i false
  | none => List.range x.c.n0

/-- The clusters that take a candidate, the ones in `kept` apart, those of a preferred die alone when there are any (R273). -/
def State.clustersFor (s : State) (x : Cand) (m : Nat) (kept : List Nat) : List Nat :=
  let ok := (List.range 16).filter fun cl => s.fits [] x.c m cl && !kept.contains cl
  let n1 := max 1 (x.c.counts.getD 1 1)
  let dies := x.c.groups.filterMap fun g =>
    if g.1 < x.g ∧ g.1 / n1 = x.g / n1 ∧ (g.2.st = .bound ∨ g.2.st = .saving) then some (g.2.cluster / 4) else none
  let near := ok.filter fun cl => dies.contains (cl / 4)
  if near.isEmpty then ok else near

/-- Every group that runs: once they end, what they hold is free (R273). -/
def State.running (s : State) : List (Nat × Nat) :=
  s.ctxs.flatMap fun p => (p.2.groups.filter fun g => g.2.st == .bound || g.2.st == .saving).map fun g => (p.1, g.1)

/-- Running groups of lower priority on clusters that would then do: lowest priority first, then most recently bound (R274). -/
def State.victims (s : State) (x : Cand) (cls : List Nat) : List (Nat × Nat) :=
  let all := s.ctxs.flatMap fun p =>
    (p.2.groups.filter fun g => g.2.st == .bound && decide (p.2.prio < x.c.prio) && cls.contains g.2.cluster).map fun g =>
      (p.2.prio, g.2.boundAt, p.1, g.1)
  (all.mergeSort fun a b => decide (a.1 < b.1) || (decide (a.1 = b.1) && decide (b.2.1 ≤ a.2.1))).map fun v => (v.2.2.1, v.2.2.2)

/-- Groups that are leaving already. -/
def State.leaving (s : State) : List (Nat × Nat) :=
  s.ctxs.flatMap fun p => (p.2.groups.filter fun g => g.2.st == .saving).map fun g => (p.1, g.1)

/-- Pre-empt one victim after another until some cluster can take the candidate (R274). -/
def State.preemptFor (s : State) (x : Cand) (m : Nat) (cls : List Nat) (gone : List (Nat × Nat)) : List (Nat × Nat) → State
  | [] => s
  | v :: t =>
    if cls.any fun cl => s.fits gone x.c m cl then s
    else (s.preemptGroup v.1 v.2 none).preemptFor x m cls (v :: gone) t

/-- No cluster takes the first candidate: pre-empt groups of lower priority when that can help (R274). -/
def State.makeRoom (s : State) (x : Cand) (m : Nat) : Option State :=
  let low := s.ctxs.flatMap fun p =>
    (p.2.groups.filter fun g => g.2.st == .bound && decide (p.2.prio < x.c.prio)).map fun g => (p.1, g.1)
  let leaving := s.leaving
  let cls := (List.range 16).filter fun cl => s.fits (low ++ leaving) x.c m cl
  if cls.isEmpty || cls.any fun cl => s.fits leaving x.c m cl then none
  else some (s.preemptFor x m cls leaving (s.victims x cls))

/-- One more than every binding so far. -/
def State.nextBind (s : State) : Nat :=
  s.ctxs.foldl (fun acc c => c.2.groups.foldl (fun acc g => max acc (g.2.boundAt + 1)) acc) 0

/-- Bind a candidate on a cluster in one step, its group area copied in first (R273, R285). Where its LOFTG bytes lie, at a multiple of
256, is a free value (R349) [log 96]. -/
def State.bindGroup (s : State) (x : Cand) (cl : Nat) (bars : List (Nat × Barrier)) : State :=
  let fs := s.threadsOf x
  let ks := s.seats x.c cl fs.length []
  let blank : Group :=
    { st := .bound, cluster := cl, slots := List.replicate x.c.n0 none, ended := List.replicate x.c.n0 false, bars := []
      badBars := [], boundAt := s.nextBind, area := 0 }
  let s := s.modCtxOf (some x.n) fun c =>
    if x.saved then c else { c with groups := c.groups ++ [(x.g, blank)], nextGroup := c.nextGroup + 1 }
  let s := s.modCtxOf (some x.n) fun c => { c with waits := none }
  let area := (Config.freeBits s.free).toNat % ((33554432 - x.c.loftg) / 256 + 1) * 256
  let s := s.tick.modGroup x.n x.g fun g =>
    { g with st := .bound, cluster := cl, boundAt := blank.boundAt, bars := bars, badBars := [], area := area }
  let s := (fs.zip ks).foldl (fun s p => s.bindSlot x.c x.n x.g p.1 p.2 x.saved) s
  s.syncCtx x.n

/-- The bind of a candidate waits for its cluster to wake (R318). -/
def State.waitFor (s : State) (x : Cand) (cl : Nat) : State :=
  (s.wakeCluster cl).modCtxOf (some x.n) fun c => { c with waits := some (x.g, cl) }

/-- Place a candidate on one of some clusters (R273). None while the cluster wakes or an image is awaited. -/
def State.placeOn (s : State) (x : Cand) (cls : List Nat) : Option (Res State) :=
  match pickBy x.c.pack (fun cl => (List.range 4).foldl (fun acc i => acc + (16 - s.heldOn [] [] (4 * cl + i))) 0) cls with
  | none => none
  | some cl =>
    match (s.clusterAt cl).st with
    | .waking => none
    | .running =>
      if !x.saved || x.c.loftg = 0 then some (.ok (s.bindGroup x cl []))
      else
        let g := schedAgent x.c.ptroot (placeOwner x.n)
        match s.peekRange g false 128 (x.c.loftg / 128) (x.c.areaImage x.g) with
        | .error e => some (.error e)
        | .ok (s', .ok b) => some (.ok ((s'.dropReqs g.owner).bindGroup x cl (barsOf b)))
        | .ok (s', .trap code _) => some (.ok ((s'.dropReqs g.owner).faultGroup x.n x.g code))
        | .ok (s', .wait) => if s'.reqs = s.reqs then none else some (.ok s')
    | _ => some (.ok (s.waitFor x cl))

/-- Place the first candidate that fits (R273): a candidate that fits nowhere keeps the clusters that it could use once their
running groups end, and the first candidate may make room (R274). None when nothing is to do. -/
def State.placeCands (s : State) : List Cand → List Nat → Option (Res State)
  | [], _ => none
  | x :: t, kept =>
    let m := (s.threadsOf x).length
    let cls := match x.c.waits with
      | some (g, cl) => if g = x.g ∧ s.fits [] x.c m cl = true then [cl] else s.clustersFor x m kept
      | none => s.clustersFor x m kept
    if !cls.isEmpty then s.placeOn x cls
    else
      match (if kept.isEmpty then s.makeRoom x m else none) with
      | some s => some (.ok s)
      | none =>
        let gone := s.running
        s.placeCands t (kept ++ (List.range 16).filter fun cl => s.fits gone x.c m cl)

/-- Code images are loaded: contexts turn from LOADING to READY (R250). -/
def State.loadReady (s : State) : State :=
  s.ctxs.foldl (fun s p =>
    if p.2.st = .loading then (s.modCtxOf (some p.1) fun c => { c with codeMem := s.mem }).setCtxSt p.1 .ready else s) s

/-- GROUP_PLACE: loaded contexts become READY, and the first candidate is placed (R273). -/
def State.groupPlace (s : State) : Option (Res State) :=
  if s.halted || s.schedOff then none
  else
    let s' := s.loadReady
    match s'.placeCands s'.cands [] with
    | some r => some r
    | none => if s.ctxs.any fun p => p.2.st == .loading then some (.ok s') else none

/-- GROUP_PLACE (R273). -/
def execGroupPlace (s : State) : Host.Outcome State Fault Refusal := orSame s s.groupPlace

/-- MGMT_RELEASE_RECORD (R250, R279, R285): a FAULTED context is gone, its slots and shares freed and its launch completed with
FLT; an ENDED one is FREE. -/
def State.releaseRecord (s : State) (crec : X64) : Res State :=
  match s.ctxs.find? fun p => p.2.crec == crec && (p.2.st == .faulted || p.2.st == .ended) && p.2.word.isNone with
  | none => .ok s
  | some (n, c) =>
    if c.st = .ended then
      let s := s.setCtxSt n .free
      .ok { s with ctxs := s.ctxs.filter fun p => p.1 != n }
    else
      let s := { s with reqs := s.reqs.filter fun (r : LinkReq) => !r.parked.any fun (t : ThreadId) => t.ctx == some n }
      ((s.slotsOf n).foldl (fun s p => (if p.2.cst = .faulted then s.handFlags p.1 else s).vacateSlot p.1) s).finishLaunch n true

/-- MGMT_RELEASE_RECORD (R250). -/
def execMgmtReleaseRecord (crec : BitVec 64) (s : State) : Host.Outcome State Fault Refusal := finish (s.releaseRecord crec)

end Sys2Proof.Machine
end

