-- ==== Sys2Proof/Machine/Context.lean ====
section
/-! DEFINITION. The context (R250 to R265): control registers (R17 to R23, R79, R86, R91, R188, R258, R327), traps and their
return, pre-emption, the save image, VSAVE, VREST and IDLE. -/

namespace Sys2Proof.Machine

/-! ### Control registers -/

/-- CSR numbers of the lane state (R17, R258, R265). -/
def csrLane (c : Nat) : Bool := [0x000, 0x001, 0x002, 0x003, 0x004, 0x006, 0x020, 0x021, 0x022, 0x024, 0x128].contains c
/-- CSR numbers that exist (R17, R79, R86, R91, R101, R188, R234, R247, R251, R252, R263, R327). -/
def csrKnown (c : Nat) : Bool :=
  csrLane c || c == 0x005 || (decide (0x010 ≤ c) && decide (c < 0x020)) || c == 0x023 || (decide (0x030 ≤ c) && decide (c < 0x033)) ||
    (decide (0x038 ≤ c) && decide (c < 0x03E)) || c == 0x040 || c == 0x041 || (decide (0x050 ≤ c) && decide (c < 0x055)) ||
    c == 0x100 || c == 0x101 || c == 0x111 || (decide (0x120 ≤ c) && decide (c < 0x12C)) || (decide (0x180 ≤ c) && decide (c < 0x184))
/-- CSR numbers whose register holds a PRW or PRO field (R5). -/
def csrPriv (c : Nat) : Bool :=
  c == 0x020 || c == 0x021 || c == 0x024 || (decide (0x030 ≤ c) && decide (c < 0x033)) || (decide (0x038 ≤ c) && decide (c < 0x03E)) ||
    c == 0x040 || (decide (0x050 ≤ c) && decide (c < 0x055)) || c == 0x100 || c == 0x101 || c == 0x111 ||
    (decide (0x120 ≤ c) && decide (c < 0x12C) && c != 0x128)

/-- VTYPE as a read returns it (R20). -/
def Lane.vtype (l : Lane) : X64 := BitVec.ofNat 64 (b2n l.sre * 256 + l.slices.toNat * 16 + l.rm.code)

/-- A lane-state register as the lanes hold it (R17). -/
def Lane.csr (l : Lane) (c : Nat) : X64 :=
  match c with
  | 0x000 => l.msel.setWidth 64
  | 0x001 => l.vl.setWidth 64
  | 0x002 => l.vstride
  | 0x003 => l.vtype
  | 0x004 => l.vstart.setWidth 64
  | 0x006 => l.srseed
  | 0x020 => l.vdirty.setWidth 64
  | 0x021 => l.adirty.setWidth 64
  | 0x022 => l.femask.setWidth 64
  | 0x024 => l.vext.setWidth 64
  | 0x128 => BitVec.ofNat 64 l.flags.bits
  | _ => 0

/-- Write a lane-state register; VL and FLAGS are read-only (R19, R48). -/
def Lane.setCsr (l : Lane) (c : Nat) (v : X64) : Lane :=
  match c with
  | 0x000 => { l with msel := v.setWidth 3 }
  | 0x002 => { l with vstride := v }
  | 0x003 => { l with sre := bitAt v 8, slices := BitVec.ofNat 4 (fld v 4 4), rm := RMode.ofCode (fld v 0 3) }
  | 0x004 => { l with vstart := v.setWidth 12 }
  | 0x006 => { l with srseed := v }
  | 0x020 => { l with vdirty := v.setWidth 32 }
  | 0x021 => { l with adirty := v.setWidth 32 }
  | 0x022 => { l with femask := v.setWidth 32 }
  | 0x024 => { l with vext := v.setWidth 6 }
  | _ => l

/-- Does a value place something unsupported in a field (R18, R20). -/
def csrUnsupported (c : Nat) (v : X64) : Bool := c == 0x003 && (decide (fld v 4 4 < 3) || decide (8 < fld v 4 4) || decide (4 < fld v 0 3))

/-- TSR as a read returns it (R251). -/
def TrapRegs.tsr (t : TrapRegs) : X64 :=
  BitVec.ofNat 64 (b2n t.froz * 128 + b2n t.vu * 64 + b2n t.inh * 4 + b2n t.ppriv * 2 + b2n t.priv)
/-- NEST as a read returns it (R101). -/
def Nest.word (n : Nest) : X64 :=
  BitVec.ofNat 64 (b2n n.act * 2 ^ 31 + b2n n.own * 2 ^ 30 + n.n.toNat * 65536 + n.sm1.toNat * 4096 + n.lenm1.toNat)

/-- A register of the slice or the sequencer as slot k reads it. Counts of cycles are free values above what was written
(log 4). -/
def State.sliceCsr (s : State) (k c : Nat) : State × X64 :=
  let sl := s.slot k
  if 0x010 ≤ c ∧ c < 0x020 then (s, vat sl.qdone (c - 0x010) 0)
  else if 0x038 ≤ c ∧ c < 0x03E then (s, (vat sl.nest.trip (c - 0x038) 0).setWidth 64)
  else if 0x050 ≤ c ∧ c < 0x055 then (s.tick, vat sl.lc (c - 0x050) 0 + Config.freeCount s.free)
  else
    match c with
    | 0x005 => (s, sl.landed)
    | 0x023 => (s, sl.bankstall)
    | 0x030 => (s, sl.nest.word)
    | 0x031 => (s, sl.nest.nbody)
    | 0x032 => (s, sl.nest.npass.setWidth 64)
    | 0x040 => (s, 1)
    | 0x041 =>
      let c := s.coreAt (coreOf k)
      (s, BitVec.ofNat 64 (c.plim * 65536 + sl.share * 256 + c.held (k % 16)))
    | 0x100 => (s, sl.cap.setWidth 64)
    | 0x101 => (s, maskTo sl.ptroot [(52, 12), (16, 36), (0, 1)])
    | 0x111 => (s, (s.coreAt (coreOf k)).rlate)
    | 0x120 => (s, sl.tr.tsr)
    | 0x121 => (s, sl.tr.cause)
    | 0x122 => (s, sl.tr.epc)
    | 0x123 => (s, sl.tr.tval)
    | 0x124 => (s, sl.tr.rpc)
    | 0x125 => (s, sl.tr.tvec)
    | 0x126 => (s, sl.tr.tscr0)
    | 0x127 => (s, sl.tr.tscr1)
    | 0x129 => (s, sl.tr.acct)
    | 0x12A => (s, sl.ctxid)
    | 0x12B => (s, sl.tr.cimg)
    | 0x181 => (s, BitVec.ofNat 64 (16 * 2 ^ 20 + 64 * 2 ^ 12 + 32 * 16 + 5))
    | _ => (s, 0)

/-- vlmax at a cap and the width of the last SETVL, 8 without one (R90). -/
def vlmaxOf (cap : Nat) (w : Option Ty) : Nat := 512 * 2 ^ cap / (match w with | some t => t.setvlBits | none => 8)

/-- VLCAP := v once the queue is empty (R21, R90). -/
def Slot.setCap (sl : Slot) (v : X64) : Slot :=
  let cap := min (fld v 0 4) 5
  let sl' := { sl with cap := BitVec.ofNat 4 cap }
  if cap < sl.cap.toNat then
    let m := vlmaxOf cap sl.swidth
    { sl' with
      svl := BitVec.ofNat 13 (min sl.svl.toNat m)
      lane := { sl.lane with vl := BitVec.ofNat 13 (min sl.lane.vl.toNat m) } }
  else sl'

/-- Is a NEST value with ACT = 1 illegal beside the other nest registers (R101). -/
def Nest.bad (n : Nest) : Bool :=
  n.act &&
    (decide (n.n.toNat = 0) || decide (n.n.toNat = 7) || decide (n.len % n.stages ≠ 0) || decide (n.total = 0) ||
      decide (2 ^ 47 < n.total) || decide (n.total + n.stages - 1 ≤ n.npass.toNat))

/-- NEST := v (R101, R357): none when it is illegal. -/
def Slot.setNest (sl : Slot) (v : X64) : Option Slot :=
  let n : Nest := { sl.nest with
    act := bitAt v 31, own := bitAt v 30, n := BitVec.ofNat 3 (fld v 16 3), sm1 := BitVec.ofNat 2 (fld v 12 2)
    lenm1 := BitVec.ofNat 6 (fld v 0 6) }
  if n.bad then none
  else
    let sl := { sl with nest := n }
    some (if n.act then sl.startPass else sl.setStages [])

/-- CTXID := v (R263): none when SHARE is 0; a changed ID is a switch point. -/
def State.setCtxid (s : State) (k : Nat) (v : X64) : Option State :=
  if fld v 40 8 = 0 then none
  else
    let s := if fld v 0 32 ≠ fld (s.slot k).ctxid 0 32 then s.switchPoint k else s
    some (s.modSlot k fun sl => { sl with ctxid := maskTo v [(40, 8), (32, 1), (0, 32)] })

/-- Write a register of the slice or the sequencer of slot k, VLCAP apart: none when the value is illegal. Read-only registers
keep their values (R5). -/
def State.setSliceCsr (s : State) (k c : Nat) (v : X64) : Option State :=
  let up (f : Slot → Slot) : Option State := some (s.modSlot k f)
  let tr (f : TrapRegs → TrapRegs) : Option State := up fun sl => { sl with tr := f sl.tr }
  if 0x038 ≤ c ∧ c < 0x03E then
    up fun sl => { sl with nest := { sl.nest with trip := sl.nest.trip.setIfInBounds (c - 0x038) (v.setWidth 32) } }
  else if 0x050 ≤ c ∧ c < 0x055 then up fun sl => { sl with lc := sl.lc.setIfInBounds (c - 0x050) v }
  else
    match c with
    | 0x023 => up fun sl => { sl with bankstall := v }
    | 0x030 => ((s.slot k).setNest v).map fun sl => s.setSlot k sl
    | 0x031 => up fun sl => { sl with nest := { sl.nest with nbody := v &&& ~~~3#64 } }
    | 0x032 => up fun sl => { sl with nest := { sl.nest with npass := v.setWidth 48 } }
    | 0x111 => some (s.modCore (coreOf k) fun x => { x with rlate := v })
    | 0x120 => tr fun t => { t with vu := bitAt v 6, ppriv := bitAt v 1 }
    | 0x121 => tr fun t => { t with cause := maskTo v [(62, 2), (0, 10)] }
    | 0x122 => tr fun t => { t with epc := v }
    | 0x123 => tr fun t => { t with tval := v }
    | 0x124 => tr fun t => { t with rpc := v &&& ~~~3#64 }
    | 0x125 => tr fun t => { t with tvec := v &&& ~~~3#64 }
    | 0x126 => tr fun t => { t with tscr0 := v }
    | 0x127 => tr fun t => { t with tscr1 := v }
    | 0x129 => tr fun t => { t with acct := v }
    | 0x12A => s.setCtxid k v
    | 0x12B => tr fun t => { t with cimg := v &&& ~~~255#64 }
    | _ => some s

/-- The word of a CSRW of CSR c from x register a. -/
def csrwWord (a c : Nat) : Word := packS 0x7F 4 0 a c

/-- CSRW at the slice: a lane-state register enters the queue, where the lanes judge its value, or at a frozen queue is written
at once (R18, R77, R256); VLCAP waits for an empty queue; the others take effect in program order. -/
def State.csrw (s : State) (w : Word) (c : Nat) (v : X64) : Res State :=
  let sl := s.me
  if csrLane c then
    if !sl.tr.vu then .ok (s.trapWord .vectorUnavailable w)
    else if sl.tr.froz then
      .ok (if csrUnsupported c v then s.trapOperand else s.setMe { sl with lane := sl.lane.setCsr c v }.adv)
    else .ok (s.enqueue w (fun sl => sl.entryOf none w v) Slot.adv)
  else if c = 0x100 then
    if sl.queue.isEmpty then .ok (s.setMe (sl.setCap v).adv) else .ok (s.setMe (sl.stall 7))
  else
    match s.setSliceCsr s.cur c v with
    | none => .ok s.trapOperand
    | some s => .ok (s.setMe s.me.adv)

/-- A CSRW with its checks (R5, R77). -/
def State.csrwStep (s : State) (a c : Nat) : Res State :=
  let w := csrwWord a c
  if !csrKnown c then .ok (s.trapWord .undefinedInstruction w)
  else if csrLane c then s.queueStep w (csrPriv c) fun s => s.csrw w c (s.me.rx a)
  else s.scalarStep w false (csrPriv c) none fun s => s.csrw w c (s.me.rx a)

/-- CSRW (R265). -/
def execCsrw (a : Fin 32) (c : BitVec 11) (s : State) : Host.Outcome State Fault Refusal := finish (s.csrwStep a.val c.toNat)
/-- VLCAP_WRITE: CSRW of VLCAP (R90). -/
def execVlcapWrite (a : Fin 32) (s : State) : Host.Outcome State Fault Refusal := finish (s.csrwStep a.val 0x100)
/-- NEST_WRITE: CSRW of NEST (R357). -/
def execNestWrite (a : Fin 32) (s : State) : Host.Outcome State Fault Refusal := finish (s.csrwStep a.val 0x030)
/-- FEMASK_WRITE: CSRW of FEMASK, in queue order (R288). -/
def execFemaskWrite (a : Fin 32) (s : State) : Host.Outcome State Fault Refusal := finish (s.csrwStep a.val 0x022)
/-- CTXID_WRITE: CSRW of CTXID (R263). -/
def execCtxidWrite (a : Fin 32) (s : State) : Host.Outcome State Fault Refusal := finish (s.csrwStep a.val 0x12A)

/-- CSRR at the slice: a lane-state register is a back-flow, except at a frozen queue (R18, R27, R256). -/
def State.csrr (s : State) (w : Word) (d c : Nat) : Res State :=
  let sl := s.me
  if csrLane c then
    if !sl.tr.vu then .ok (s.trapWord .vectorUnavailable w)
    else if sl.tr.froz || sl.queue.isEmpty then .ok (s.putX d (sl.lane.csr c))
    else .ok (s.setMe (sl.stall 2))
  else
    let r := s.sliceCsr s.cur c
    .ok (r.1.putX d r.2)

/-- CSRR (R265). -/
def execCsrr (d : Fin 32) (c : BitVec 11) (s : State) : Host.Outcome State Fault Refusal :=
  let w := packS 0x7F 3 d.val 0 c.toNat
  if !csrKnown c.toNat then .next (s.trapWord .undefinedInstruction w)
  else if csrLane c.toNat then finish (s.queueStep w (csrPriv c.toNat) fun s => s.csrr w d.val c.toNat)
  else finish (s.scalarStep w false (csrPriv c.toNat) none fun s => s.csrr w d.val c.toNat)

/-- THREAD_STATE_WRITE: a register of a stopped thread, as a CSRW or an x write (R330). -/
def execThreadStateWrite (k : Fin 1024) (reg : ThreadReg) (v : BitVec 64) (s : State) : Host.Outcome State Fault Refusal :=
  let sl := s.slot k.val
  if sl.st ≠ .stop then .next s
  else
    match reg with
    | .x i => .next (s.setSlot k.val (sl.wx i.val v))
    | .csr n =>
      let c := n.toNat
      if csrLane c then
        .next (if csrUnsupported c v then s else s.setSlot k.val { sl with lane := sl.lane.setCsr c v })
      else if c = 0x100 then .next (if sl.queue.isEmpty then s.setSlot k.val (sl.setCap v) else s)
      else .next ((s.setSliceCsr k.val c v).getD s)

/-! ### Traps -/

/-- TRAP (R265): RPC is the next word. -/
def execTrap (i : BitVec 11) (s : State) : Host.Outcome State Fault Refusal :=
  finish (s.scalarStep (packS 0x7F 0 0 0 i.toNat) false false none fun s =>
    .ok (s.sliceTrap { code := .trap, kind := 0, lane := false, epc := s.me.pc, tval := i.setWidth 64, rpc := s.me.pc + 4 }))
/-- SVC (R265): RPC is the next word. -/
def execSvc (i : BitVec 11) (s : State) : Host.Outcome State Fault Refusal :=
  finish (s.scalarStep (packS 0x7F 1 0 0 i.toNat) false false none fun s =>
    .ok (s.sliceTrap { code := .svc, kind := 0, lane := false, epc := s.me.pc, tval := i.setWidth 64, rpc := s.me.pc + 4 }))
/-- ERET (R265): a context that was PREEMPTING runs again, and so does its group (R250); a stalled instruction finds the requests that
it had sent (R255). -/
def execEret (s : State) : Host.Outcome State Fault Refusal :=
  finish (s.scalarStep (packS 0x7F 2 0 0 0) false true none fun s =>
    let sl := s.me.leaveTrap
    let s := (s.setMe { sl with cst := if sl.cst = .preempting then .running else sl.cst }).unparkReqs s.cur
    .ok (match sl.ctx with | some n => (s.keepGroup n sl.group).syncCtx n | none => s))

/-- TRAP_ENTRY: a decided trap enters; a slice trap once every earlier entry has retired (R77, R85, R254). None when none is
due. -/
def State.trapEntry (s : State) (k : Nat) : Option State :=
  let sl := s.slot k
  match sl.pend with
  | none => none
  | some p => if sl.st = .drain ∧ (p.lane = true ∨ sl.queue.isEmpty = true) then some (s.enterTrap k p) else none

/-- TRAP_ENTRY (R254). -/
def execTrapEntry (k : Fin 1024) (s : State) : Host.Outcome State Fault Refusal := .next ((s.trapEntry k.val).getD s)

/-! ### Pre-emption (R255) -/

/-- PREEMPT_REQUEST: a request arrives at a bound slot (R255). -/
def execPreemptRequest (k : Fin 1024) (s : State) : Host.Outcome State Fault Refusal :=
  let sl := s.slot k.val
  .next (if sl.st = .vacant then s else s.setSlot k.val { sl with preempt := true })

/-- May the pre-emption request of slot k be taken: INH = 0, at an instruction boundary of the slice, with no lane fault decided
(R255). The copy of a LAUNCH that is on its way to a REMOTE ring and its TAIL are one step (R283) [DEDUCED, log 106]. -/
def State.preemptDue (s : State) (k : Nat) : Bool :=
  let sl := s.slot k
  sl.preempt && !sl.tr.inh && sl.st != .vacant && (sl.st != .stop || (sl.closing && !s.halted && sl.cst != .faulted)) &&
    !sl.pend.any (·.lane) && !s.reqs.any fun (r : LinkReq) => r.owner == 4 * k && r.kind == 1 && r.len == 64

/-- A pre-emption stop (R85, R326). -/
def State.preemptStop (s : State) (k : Nat) : State :=
  (s.modSlot k fun sl => { sl with st := .stop, prev := sl.st, closing := true }).stopRecord k

/-- PREEMPT_TAKEN: at an instruction boundary with INH = 0 the queue freezes and the handler runs with CAUSE PREEMPT (R255); an
instruction whose trap still waits for earlier entries is stopped before it and executes after the resume (R358). The slot passes
through STOP, where it stays while the accesses that a far store has issued are settled (R85, R215).
None while the request cannot be taken. -/
def State.preemptTaken (s : State) (k : Nat) : Option State :=
  if !s.preemptDue k then none
  else if s.storesOpen k then (if s.halted || (s.slot k).st == .stop then none else some (s.preemptStop k))
  else
    let s := if (s.slot k).st = .stop then s else s.preemptStop k
    let s := ((s.parkReqs k).unwait k).dropReqs (4 * k + 1)
    let sl := (s.slot k).recall.settle
    let sl := { sl with
      preempt := false, pend := none, cst := .preempting, closing := false
      queue := match sl.queue with | e :: t => { e with leave := 0 } :: t | [] => [] }
    let s := (s.setSlot k sl).enterTrap k
      { code := .preempt, kind := 0, lane := false, epc := sl.pc, tval := sl.tr.cimg, rpc := sl.pc }
    some (match sl.ctx with | some n => s.syncCtx n | none => s)

/-- PREEMPT_TAKEN (R255). -/
def execPreemptTaken (k : Fin 1024) (s : State) : Host.Outcome State Fault Refusal := .next ((s.preemptTaken k.val).getD s)

/-! ### The save image (R257) -/

/-- Kind code of a queue record (R257). -/
def EntryKind.code : EntryKind → Nat
  | .instr => 0 | .counter => 1 | .qMarker => 2 | .marker => 3
/-- The kind of a code. -/
def EntryKind.ofCode : Nat → EntryKind
  | 0 => .instr | 1 => .counter | 2 => .qMarker | _ => .marker

/-- A queue entry record (R257): counter events and markers hold P = 1. -/
def Entry.record (e : Entry) (vstart : Nat) : List Byte :=
  toBytes 8 (e.word.toNat + e.stages.toNat * 2 ^ 32 + e.kind.code * 2 ^ 36 + e.named.toNat * 2 ^ 38 + e.vl.toNat * 2 ^ 44 +
    b2n (e.p || e.kind != .instr) * 2 ^ 57) ++ toBytes 8 e.pc.toNat ++ toBytes 8 e.scalar.toNat ++ toBytes 8 vstart

/-- A queue whose entries carry the VL that applies to them: the lanes' VL up to the first SETVL, and from there the slice's copies
(R26, R257). -/
def vlsOf (vl : BitVec 13) : List Entry → List Entry
  | [] => []
  | e :: t =>
    match e.p, e.ins with
    | true, some (.setvl ..) => e :: t
    | _, _ => { e with vl := vl } :: vlsOf vl t

/-- The instruction of a restored entry: only the lanes' own words have one. -/
def restoredIns (w : Word) : Option Instr :=
  if opOf w = 0x64 ∨ opOf w = 0x65 then none
  else match decodeVec w with | .ok i => some i | .error _ => none

/-- An entry from its record (R257, R261). A restored entry begins a convoy of its own; a restored QSET or QDROP marker has no effect,
which its `p` says. -/
def Entry.ofRecord (b : List Byte) : Entry :=
  let w (o : Nat) : X64 := BitVec.ofNat 64 (ofBytes ((b.drop o).take 8))
  let h := w 0
  let word : Word := BitVec.ofNat 32 (fld h 0 32)
  let kind := EntryKind.ofCode (fld h 36 2)
  { kind := kind, ins := if kind = .instr then restoredIns word else none, word := word, scalar := w 16, pc := w 8
    stages := BitVec.ofNat 4 (fld h 32 4), named := BitVec.ofNat 6 (fld h 38 6), vl := BitVec.ofNat 13 (fld h 44 13)
    p := bitAt h 57 && kind != .qMarker, cvHead := w 8, cvPos := 0, leave := 0 }

/-- The residency record of a live register (R200, R257). -/
def Slot.resRecord (sl : Slot) (q : Nat) : List Byte :=
  let r := sl.reg q
  let g := r.seen
  let h := match g with | some g => g.n | none => 0
  let ks : Ctrs := match g with | some g => g.ks | none => sl.k
  let book := if r.lanesSee || r.desc.mfc != 2 || r.desc.rtype == .c4 then r.book else vat sl.lane.b r.desc.marg (Vector.replicate 16 0)
  r.desc.bytes ++ toBytes 8 1 ++ toBytes 8 h ++ ks.toList.flatMap (fun x => toBytes 4 x.toNat) ++
    book.toList.flatMap (fun x => toBytes 2 x.toNat) ++ List.replicate 56 0

/-- Width code of SVL: T of the last SETVL (R88, R257). -/
def Slot.widthCode (sl : Slot) : Nat := match sl.swidth with | some t => t.code.val | none => 0

/-- The header of an image up to LIVEQ, with the HOLD word that it had (R257, R260). -/
def Slot.imageHeader (sl : Slot) (hold : Nat) : List Byte :=
  let l := sl.lane
  let live := (List.range 16).foldl (fun acc q => acc + b2n ((sl.reg q).st == .live) * 2 ^ q) 0
  let hold' := (hold % 2 ^ 32 ||| l.vdirty.toNat) + (hold / 2 ^ 32 % 2 ^ 32 ||| l.adirty.toNat) * 2 ^ 32
  [1 + sl.cap.toNat * 65536, hold', l.vl.toNat, l.vtype.toNat, l.vstart.toNat, l.msel.toNat, l.vstride.toNat, l.srseed.toNat,
    l.femask.toNat, l.flags.bits, sl.svl.toNat + sl.widthCode * 65536, sl.queue.length, live].flatMap (toBytes 8)

/-- Everything VSAVE writes into an image at an address (R257, R260). -/
def Slot.image (sl : Slot) (va : X64) (hold : Nat) : List (X64 × List Byte) :=
  let l := sl.lane
  let at_ (o : Nat) : X64 := va + BitVec.ofNat 64 o
  let e := l.vext.toNat
  let bits (v n : Nat) : List Byte := toBytes n v
  [(at_ 0, sl.imageHeader hold)] ++
    cutPieces 128 2 (at_ 0x100) (l.b.toList.flatMap fun b => b.toList.flatMap fun x => toBytes 2 x.toNat) ++
    cutPieces 128 32 (at_ 0x200) (l.m.toList.flatMap fun m => bits m.toNat 512) ++
    ((List.range 16).filter fun q => (sl.reg q).st == .live).flatMap (fun q =>
      cutPieces 128 2 (at_ (0x1200 + 256 * q)) (sl.resRecord q)) ++
    (vlsOf l.vl sl.queue).zipIdx.map (fun p => (at_ (0x2200 + 32 * p.2), p.1.record (if p.2 = 0 then l.vstart.toNat else 0))) ++
    ((List.range 32).filter fun i => l.vdirty.getLsbD i).flatMap (fun i =>
      let v := vat l.v i VReg.reset
      cutPieces 64 e (at_ (0x3000 + 2304 * i)) (bits v.data.toNat (64 * e)) ++
        [(at_ (0x3000 + 2304 * i + 2048), bits v.side.toNat (8 * e))]) ++
    ((List.range 32).filter fun g => l.adirty.getLsbD g).flatMap (fun g =>
      (List.range 8).flatMap fun j =>
        cutPieces 64 e (at_ (0x15000 + 16384 * g + 2048 * j)) (bits (vat l.a (8 * g + j) 0).toNat (64 * e)))

/-! ### VSAVE -/

/-- Every write that the registers of slot k still owe memory: unacknowledged writebacks, then dirty elements; of two writes of
one place the later remains. -/
def State.owedWrites (s : State) (k : Nat) : State × List (List (Nat × List Byte)) :=
  (s.slot k).q.toList.foldl (fun (acc : State × List (List (Nat × List Byte))) r =>
    let w := acc.1.gatherWrites r.desc r.cells
    let new := r.wbs.flatMap (fun w => w.lost ++ w.elems) ++ w.2
    (w.1, new.foldl (fun l x => l.filter (fun y => y.head?.map (·.1) != x.head?.map (·.1)) ++ [x]) acc.2)) (s, [])

/-- Perform a list of writes; answered requests are kept, so that a repeat finds them. -/
def State.storeAll (s : State) (k : Nat) (g : Agent) : List (List (Nat × List Byte)) → Res (State × Got Unit)
  | [] => .ok (s, .ok ())
  | u :: t => thenA (s.writeUnit k g u) fun s _ => s.storeAll k g t

/-- Forget every request that slot k's agents made. -/
def State.dropAll (s : State) (k : Nat) : State := ((s.dropReqs (4 * k)).dropReqs (4 * k + 1)).dropReqs (4 * k + 2)

/-- The slot once VSAVE is done (R260). -/
def Slot.saved (sl : Slot) : Slot :=
  { sl with
    lane := { sl.lane with vdirty := 0, adirty := 0, vext := 0 }
    q := Vector.replicate 16 ResReg.reset, landed := 0, queue := [], lastCv := none
    tr := { sl.tr with froz := false, vu := false } }

/-- A long access of VSAVE or VREST: it goes on, stalls with CAUSE 2, or makes the context FAULTED (R259). The error record has KIND 0,
for a write of VSAVE too [DESIGN CHOICE, log 119]. -/
def State.settleLong {α : Type} (s : State) (r : Res (State × Got α)) (go : State → α → State) : Res State :=
  match r with
  | .error e => .error e
  | .ok (s, .ok v) => .ok (go s v)
  | .ok (s, .wait) => .ok (s.setMe (s.me.stall 2))
  | .ok (s1, .trap code _) =>
    .ok (({ s1 with slots := s.slots }.dropAll s.cur).faultContext s.cur (causeWord code 0 false))

/-- VSAVE (R260). -/
def State.vsave (s : State) (a : Nat) : Res State :=
  let sl := s.me
  let va := sl.rx a
  if va.toNat % 256 ≠ 0 then .ok s.trapOperand
  else if !sl.tr.vu then .ok (s.setMe sl.adv)
  else if (!sl.tr.froz && !sl.queue.isEmpty) || s.flushHeld (coreOf s.cur) then .ok (s.setMe (sl.stall 2))
  else
    let g := s.sliceAgent s.cur
    let w := s.owedWrites s.cur
    s.settleLong
      (thenA (w.1.storeAll s.cur (s.seqAgent s.cur) w.2) fun s _ =>
        thenA (s.peek g true 8 8 (va + 8)) fun s hold =>
          let im := s.me.image va (ofBytes hold)
          thenA (s.pokeAll g true im) fun s _ => .ok (s, .ok im))
      fun t im =>
        let t := (t.dropAll s.cur).flushCore (coreOf s.cur)
        let t := t.setMe t.me.saved.adv
        im.foldl (fun t p => t.touchRange s.cur g false true p.1 p.2.length s) (t.touch s.cur g true false (va + 8) 8 s)

/-- VSAVE (R260). -/
def execVsave (a : Fin 32) (s : State) : Host.Outcome State Fault Refusal :=
  finish (s.scalarStep (packS 0x7F 9 0 a.val 0) false true none fun s => s.vsave a.val)

/-! ### VREST -/

/-- What VREST reads of an image beside the registers (R257). -/
structure ImageHead where
  format : X64
  hold : X64
  words : List X64
  svl : X64
  qcount : Nat
  liveq : Nat
  deriving DecidableEq, Repr

/-- The header of an image. -/
def ImageHead.ofBytes (b : List Byte) : ImageHead :=
  let w (o : Nat) : X64 := BitVec.ofNat 64 (Machine.ofBytes ((b.drop o).take 8))
  { format := w 0, hold := w 8, words := (List.range 8).map fun i => w (0x10 + 8 * i), svl := w 0x50
    qcount := min 64 (w 0x58).toNat, liveq := (w 0x60).toNat % 65536 }

/-- The parts of an image that VREST reads, by offset and size (R257, R261). -/
def ImageHead.ranges (h : ImageHead) : List (Nat × Nat) :=
  let held (from_ size base : Nat) : List (Nat × Nat) :=
    ((List.range 32).filter fun i => bitAt h.hold (from_ + i)).map fun i => (base + size * i, size)
  [(0, 128), (0x100, 256), (0x200, 4096), (0x1200, 4096), (0x2200, 32 * h.qcount)] ++ held 0 2304 0x3000 ++ held 32 16384 0x15000

/-- Read the slots of an image that a HOLD half names: `size` bytes each, in pieces of 128. -/
def State.readHeld (s : State) (g : Agent) (hold : Nat) (size : Nat) : Nat → Nat → X64 → Res (State × Got (List (List Byte)))
  | 0, _, _ => .ok (s, .ok [])
  | n + 1, i, va =>
    thenA (if hold / 2 ^ i % 2 = 1 then s.peekRange g true 128 (size / 128) va else .ok (s, .ok [])) fun s b =>
      thenA (s.readHeld g hold size n (i + 1) (va + BitVec.ofNat 64 size)) fun s t => .ok (s, .ok (b :: t))

/-- Read the compressed headers of live records (R179, R200). -/
def State.readHeaders (s : State) (k : Nat) (g : Agent) : List (Nat × Desc) → Res (State × Got (List (Nat × Option CompHeader)))
  | [] => .ok (s, .ok [])
  | (q, d) :: t =>
    thenA (if d.mfc = 3 ∧ d.indexed = false then s.loadHeader k g true d.base else .ok (s, .ok none)) fun s h =>
      thenA (s.readHeaders k g t) fun s r => .ok (s, .ok ((q, h) :: r))

/-- The lanes that an image describes (R261). -/
def laneOfImage (h : ImageHead) (books masks : List Byte) (vs as : List (List Byte)) (vstart : Nat) : Lane :=
  let num (b : List Byte) (o n : Nat) : Nat := ofBytes ((b.drop o).take n)
  let word (i : Nat) : X64 := h.words.getD i 0
  let l : Lane := { Lane.reset with
    v := Vector.ofFn fun i =>
      let b := vs.getD i.val []
      { data := BitVec.ofNat _ (num b 0 2048), side := BitVec.ofNat _ (num b 2048 256) }
    m := Vector.ofFn fun i => BitVec.ofNat _ (num masks (512 * i.val) 512)
    a := Vector.ofFn fun i => BitVec.ofNat _ (num (as.getD (i.val / 8) []) (2048 * (i.val % 8)) 2048)
    b := Vector.ofFn fun i => Vector.ofFn fun j => BitVec.ofNat 16 (num books (32 * i.val + 2 * j.val) 2)
    vl := (word 0).setWidth 13, flags := FlagWord.ofBits (word 7) }
  (((((l.setCsr 0x003 (word 1)).setCsr 0x000 (word 3)).setCsr 0x002 (word 4)).setCsr 0x006 (word 5)).setCsr 0x022 (word 6)).setCsr 0x004
    (BitVec.ofNat 64 vstart)

/-- The descriptor, the number h and the counters of a residency record (R257). -/
def recordOf (b : List Byte) : Desc × Nat × Ctrs :=
  let num (o n : Nat) : Nat := ofBytes ((b.drop o).take n)
  (Desc.parse (b.take 128), num 0x88 8, Vector.ofFn fun i => BitVec.ofNat 32 (num (0x90 + 4 * i.val) 4))

/-- The partner of record q among some records, when they make a pair (R190). -/
def partnerIn (recs : List (Nat × Desc × Nat × Ctrs)) (q : Nat) (d : Desc) : Option (Nat × Desc × Nat × Ctrs) :=
  recs.find? fun r => r.1 != q && makesPair q r.1 d r.2.1

/-- Place, bytes and dimensions of the ring of each live record: consecutive in increasing q, a pair's ring where its first register
stands (R349). -/
def ringLayout (recs : List (Nat × Desc × Nat × Ctrs)) : List (Nat × Nat × Nat × List Nat) :=
  (recs.foldl (fun (acc : List (Nat × Nat × Nat × List Nat) × Nat) r =>
    match partnerIn recs r.1 r.2.1 with
    | none => (acc.1 ++ [(r.1, acc.2, r.2.1.ringBytes, r.2.1.ringLens)], acc.2 + r.2.1.ringBytes)
    | some p =>
      match acc.1.find? fun x => x.1 == p.1 with
      | some x => (acc.1 ++ [(r.1, x.2)], acc.2)
      | none =>
        let n := pairRingBytes p.2.1 r.2.1 p.2.2.2
        (acc.1 ++ [(r.1, acc.2, n, pairLens p.2.1 r.2.1 p.2.2.2)], acc.2 + n)) ([], 0)).1

/-- Set a live record's register up: generation h is issued as one delivery (R200). Every entry of the restored queue sees it LIVE,
since the marker of its QSET has no effect [DEDUCED, log 99] (R261). -/
def Slot.restoreReg (sl : Slot) (q : Nat) (b : List Byte) (hdr : Option CompHeader) (ring : Nat × Nat × List Nat) (paired : Bool) :
    Slot :=
  let r := recordOf b
  let d := r.1
  let g : Gen :=
    { n := r.2.1, ks := r.2.2, old := none, ix := 0, gate := !d.wme || (d.gateHi r.2.2).isNone, gateFail := none, released := true
      landed := false, causePc := sl.pc }
  let sl := sl.modReg q fun _ =>
    { ResReg.reset with
      st := .live, desc := d, hdr := hdr, ringBase := ring.1, ringBytes := ring.2.1, lens := ring.2.2, created := r.2.1 + 1
      slabs := d.slabsOf false r.2.2 none
      book := Vector.ofFn fun i => BitVec.ofNat 16 (ofBytes ((b.drop (0xA8 + 2 * i.val)).take 2))
      lanesSee := true, paired := paired, gens := [g] }
  { sl with landed := landedBit sl.landed q r.2.1 false, qdone := sl.qdone.setIfInBounds q (BitVec.ofNat 64 r.2.1) }

/-- The counter events of a restored queue create the deliveries after h, index registers first (R181, R200); a register whose
QSET's marker still stands in the queue advances with the events after the last one. -/
def Slot.restoreEvents (sl : Slot) (es : List Entry) : Slot :=
  let cur (sl : Slot) (q : Nat) : Ctrs := match (sl.reg q).gens.getLast? with | some g => g.ks | none => sl.k
  let fixIx (sl : Slot) : Slot :=
    (List.range 16).foldl (fun sl q => sl.modReg q fun r =>
      { r with gens := r.gens.map fun (g : Gen) => { g with ix := match (sl.reg r.desc.ixq).gens.head? with | some x => x.n | none => 0 } }) sl
  (es.zipIdx.foldl (fun (acc : Slot × List (Nat × Bool × Ctrs)) p =>
    let e := p.1
    match e.kind with
    | .qMarker =>
      let last := opOf e.word == 0x68 && !setQueued (es.drop (p.2 + 1)) (qOfWord e.word)
      (acc.1, acc.2.map fun x => if last = true ∧ qOfWord e.word = x.1 then (x.1, true, x.2.2) else x)
    | .counter =>
      let ks := acc.2.map fun p => if p.2.1 then (p.1, true, applyEvent p.2.2 e) else p
      let live := ks.filter fun p => p.2.1 && (acc.1.reg p.1).st == .live && (acc.1.reg p.1).desc.advancedBy e.named
      let order := (live.filter fun p => !(acc.1.reg p.1).desc.indexed) ++ live.filter fun p => (acc.1.reg p.1).desc.indexed
      (order.foldl (fun sl p => sl.createGen p.1 (fld e.scalar 32 2 == 2) p.2.2 e.pc) acc.1, ks)
    | _ => acc) (fixIx sl, (List.range 16).map fun q => (q, !setQueued es q, cur sl q))).1

/-- The slot once VREST has read an image (R261). -/
def Slot.restored (sl : Slot) (h : ImageHead) (books masks recs : List Byte) (queue : List Byte)
    (vs as : List (List Byte)) (hdrs : List (Nat × Option CompHeader)) : Slot :=
  let es := (List.range h.qcount).map fun i => Entry.ofRecord ((queue.drop (32 * i)).take 32)
  let vstart := if h.qcount = 0 then (h.words.getD 2 0).toNat else ofBytes ((queue.drop 24).take 8)
  let sl := { sl with
    cap := BitVec.ofNat 4 (fld h.format 16 4), lane := laneOfImage h books masks vs as vstart
    svl := h.svl.setWidth 13, swidth := some (Ty.ofCode (fld h.svl 16 4)), queue := es, lastCv := none
    tr := { sl.tr with vu := true, froz := sl.tr.froz || decide (0 < h.qcount) } }
  let rec_ (q : Nat) : List Byte := (recs.drop (256 * q)).take 256
  let live := ((List.range 16).filter fun q => h.liveq / 2 ^ q % 2 = 1).map fun q => (q, recordOf (rec_ q))
  let sl := (ringLayout live).foldl (fun sl x =>
    sl.restoreReg x.1 (rec_ x.1) ((hdrs.find? fun p => p.1 == x.1).bind (·.2)) x.2
      (partnerIn live x.1 (recordOf (rec_ x.1)).1).isSome) sl
  sl.restoreEvents es

/-- VREST (R261): earlier entries of a queue that is not frozen retire first (R27). -/
def State.vrest (s : State) (a : Nat) : Res State :=
  let sl := s.me
  let va := sl.rx a
  let at_ (o : Nat) : X64 := va + BitVec.ofNat 64 o
  if va.toNat % 256 ≠ 0 ∨ sl.tr.vu = true then .ok s.trapOperand
  else if !sl.tr.froz && !sl.queue.isEmpty then .ok (s.setMe (sl.stall 2))
  else
    let g := s.sliceAgent s.cur
    s.settleLong
      (thenA (s.peekRange g true 128 1 va) fun s hb =>
        let h := ImageHead.ofBytes hb
        if fld h.format 0 16 ≠ 1 ∨ 5 < fld h.format 16 4 then .ok (s, .ok none)
        else
          thenA (s.peekRange g true 128 2 (at_ 0x100)) fun s books =>
          thenA (s.peekRange g true 128 32 (at_ 0x200)) fun s masks =>
          thenA (s.peekRange g true 128 32 (at_ 0x1200)) fun s recs =>
          thenA (s.peekRange g true 32 h.qcount (at_ 0x2200)) fun s queue =>
          thenA (s.readHeld g (fld h.hold 0 32) 2304 32 0 (at_ 0x3000)) fun s vs =>
          thenA (s.readHeld g (fld h.hold 32 32) 16384 32 0 (at_ 0x15000)) fun s as =>
          thenA (s.readHeaders s.cur g (((List.range 16).filter fun q => h.liveq / 2 ^ q % 2 = 1).map fun q =>
            (q, Desc.parse ((recs.drop (256 * q)).take 128)))) fun s hdrs =>
            .ok (s, .ok (some (h, books, masks, recs, queue, vs, as, hdrs))))
      fun s r =>
        let s := s.dropAll s.cur
        match r with
        | none => s.trapOperand.touchRange s.cur g true false va 128
        | some (h, books, masks, recs, queue, vs, as, hdrs) =>
          h.ranges.foldl (fun s p => s.touchRange s.cur g true false (at_ p.1) p.2)
            (s.setMe (s.me.restored h books masks recs queue vs as hdrs).adv)

/-- VREST (R261). -/
def execVrest (a : Fin 32) (s : State) : Host.Outcome State Fault Refusal :=
  finish (s.scalarStep (packS 0x7F 10 0 a.val 0) false true none fun s => s.vrest a.val)

/-! ### IDLE -/

/-- IDLE (R262). A slot whose copy-out of the group area waits for a link or a drained stack is in WAIT with CAUSE 2
[DESIGN CHOICE, log 114]. -/
def State.idle (s : State) : Res State :=
  let sl := s.me
  if sl.tr.vu = true ∨ sl.queue.isEmpty = false ∨ sl.q.toList.any (fun r => r.st != .retired) = true then .ok s.trapOperand
  else
    match s.idleSlot s.cur with
    | .error e => .error e
    | .ok (s, .ok _) => .ok s
    | .ok (s, .wait) => .ok (s.setMe (s.me.stall 2))
    | .ok (s, .trap code _) => .ok ((s.dropAll s.cur).faultContext s.cur (causeWord code 1 false))

/-- IDLE (R262). -/
def execIdle (s : State) : Host.Outcome State Fault Refusal :=
  finish (s.scalarStep (packS 0x7F 11 0 0 0) false true none fun s => s.idle)

end Sys2Proof.Machine
end

