-- ==== Sys2Proof/Machine/Matrix.lean ====
section
/-! DEFINITION. Accumulators and matrix instructions (R154 to R169): MMA over k-blocks, the tile moves, DFMA by slices, and
the tokens that a heavy entry charges. -/

namespace Sys2Proof.Machine

/-- An exact sum with its NV: a NaN among the terms makes a NaN, and so do opposite infinities (R47, R53, R119). -/
def sumTerms (rdn : Bool) : List FVal → FVal × Bool
  | [] => (.fin false 0 0, false)
  | x :: xs =>
    if (x :: xs).any FVal.isNan then (.nan, false)
    else xs.foldl (fun acc y => if acc.1.isNan then acc else let r := addExact rdn acc.1 y; (r.1, acc.2 || r.2)) (x, false)

/-- An exact sum of products with its NV (R53). A NaN operand (a NaN product that is not itself invalid, or a NaN first term)
makes the sum a NaN without NV, whatever the other products are: R119's rule for any NaN operand, which DFMA follows by R168.
R53 and R160 do not say it of a k-block, where it is the model's reading [DEDUCED, log 80]. -/
def sumProducts (rdn : Bool) (l : List (FVal × Bool)) : FVal × Bool :=
  let s := sumTerms rdn (l.map (·.1))
  (s.1, !l.any (fun p => p.1.isNan && !p.2) && (s.2 || l.any (·.2)))

/-- Operands A and B of one k-block of an MMA: B by its row k of the block and its column (R159, R161). -/
structure MmaOps where
  aVal : Nat → FVal
  aInt : Nat → Int
  bVal : Nat → Nat → FVal
  bInt : Nat → Nat → Int

/-- K-block i of an MMA (R160): the first block of a ZERO form starts from +0 or 0. The block sum raises its flags by itself,
whatever the accumulator holds (R53) [log 80]. -/
def LEnv.mmaBlock (n : LEnv) (t : Ty) (m d i : Nat) (zero : Bool) (o : MmaOps) : Lane :=
  let mode := n.l.mode (if t == .c4 then 0 else m)
  let rdn := decide (mode = .rdn)
  (List.range n.l.vl.toNat).foldl (fun acc e =>
    if !n.l.gov e then acc
    else
      let r := e / 32
      let c := e % 32
      let old := if zero && i == 0 then 0 else n.rdA d 32 e
      if t.isInt then
        let sum := (List.range 32).foldl (fun z kk => z + o.aInt (32 * r + kk) * o.bInt kk c) 0
        let x := fitInt .s32 (decide (m = 1)) (toSigned 32 old + sum)
        (acc.wrA n.cap d 32 e x.1).raiseInt x.2 false
      else
        let s := sumProducts rdn ((List.range 32).map fun kk => mulExact (o.aVal (32 * r + kk)) (o.bVal kk c))
        let r1 := roundExact .f32 ((acc.env mode).raiseNv s.2) s.1
        let sum := addExact rdn (decodeFloat .f32 old) (decodeFloat .f32 r1.1)
        let r2 := roundExact .f32 (r1.2.raiseNv sum.2) sum.1
        (acc.wrA n.cap d 32 e r2.1).keep r2.2) n.l

/-- Operand A of k-block i: element 32r + (k mod 32) of register a + i (R159). -/
def LEnv.mmaA (n : LEnv) (t : Ty) (m a i : Nat) : (Nat → FVal) × (Nat → Int) :=
  (fun e => n.l.val t (2 * m) (a + i) e, fun e => intVal t (n.l.rd (a + i) t.bits e))

/-- Is an MMA illegal before any k-block: VL no multiple of 32 or above one register, or the group above AGRP (R163, R278). -/
def LEnv.mmaIllegal (n : LEnv) (t : Ty) (d : Nat) : Bool :=
  decide (n.l.vl.toNat % 32 ≠ 0) || decide (n.count t < n.l.vl.toNat) || decide (n.agrp ≤ d)

/-- The register forms of MMA: the units are k-blocks (R157 to R163). -/
def LEnv.mmaReg (n : LEnv) (t : Ty) (m d a b g : Nat) (zero : Bool) : LaneAct :=
  if n.mmaIllegal t d || decide (n.count t < 1024) then .illegal
  else LaneAct.dirties (g := d) <| .elems 1 (2 ^ g) fun lo hi =>
    (List.range' lo (hi - lo)).foldl (fun l i =>
      let n' := { n with l := l }
      let oa := n'.mmaA t m a i
      n'.mmaBlock t m d i zero
        { aVal := oa.1, aInt := oa.2
          bVal := fun kk c => l.val t (2 * m + 1) (b + i) (32 * c + kk)
          bInt := fun kk c => intVal t (l.rd (b + i) t.bits (32 * c + kk)) }) n.l

/-- Width of the accumulator elements that a tile move reads or writes (R164). -/
def tileWidth (t : Ty) : Nat := if t == .f64s then 64 else 32
/-- Elements of the vector register group of a tile move (R107, R164). -/
def LEnv.tileCount (n : LEnv) (t : Ty) : Nat := t.tileRegs * n.count t

/-- ACCRD: copy or narrow an accumulator group into a vector register group (R164). -/
def LEnv.accrd (n : LEnv) (t : Ty) (q d a : Nat) (sat : Bool) : LaneAct :=
  if n.agrp ≤ a then .illegal
  else n.elemwise [n.tileCount t] (groupOf (tileWidth t)) fun acc e =>
    let x := n.rdA a (tileWidth t) e
    if t.isHalf then
      let r := roundTo t sat (acc.env (n.l.mode q)) (decodeFloat .f32 x) false
      (acc.wrG n.cap d 16 e r.1).keep r.2
    else acc.wrG n.cap d (tileWidth t) e x

/-- ACCWR: write a vector register group into an accumulator group (R165). -/
def LEnv.accwr (n : LEnv) (t : Ty) (d a : Nat) : LaneAct :=
  if n.agrp ≤ d then .illegal
  else LaneAct.dirties (g := d) <| n.elemwise [n.tileCount t] (groupOf (tileWidth t)) fun acc e =>
    let x := n.rdG a t.bits e
    acc.wrA n.cap d (tileWidth t) e (if t.isHalf then (roundExact .f32 (scEnv 0) (decodeFloat t x)).1 else x)

/-- ACCZ: clear every bit of a group, whatever VL, VSTART and the mask (R166). -/
def LEnv.accz (n : LEnv) (d : Nat) : LaneAct :=
  if n.agrp ≤ d then .illegal
  else
    let l := (List.range 8).foldl (fun (l : Lane) i =>
      { l with a := l.a.setIfInBounds (8 * d + i) 0 }) n.l
    .whole { l.touchA d with vext := if l.vext.toNat < 2 ^ n.cap then BitVec.ofNat 6 (2 ^ n.cap) else l.vext }

/-- DFMA: an 8 × 8 tile product of F64S, one rounding per element (R167, R168). -/
def LEnv.dfma (n : LEnv) (q d a b : Nat) : LaneAct :=
  let vl := n.l.vl.toNat
  if vl % 8 ≠ 0 ∨ 8 * 2 ^ n.cap < vl ∨ n.cap < 3 ∨ n.agrp ≤ d then .illegal
  else
    let mode := n.l.mode q
    let rdn := decide (mode = .rdn)
    LaneAct.dirties (g := d) <| .elems 8 vl fun lo hi =>
      n.overActive (fun acc e =>
        let r := e / 8
        let c := e % 8
        let ps := (List.range 8).map fun k =>
          mulSlices n.l.slices.toNat (decodeFloat .f64s (n.l.rd a 64 (8 * r + k))) (decodeFloat .f64s (n.l.rd b 64 (8 * c + k)))
        let s := sumProducts rdn ((decodeFloat .f64s (n.rdA d 64 e), false) :: ps)
        let x := roundExact .f64s ((acc.env mode).raiseNv s.2) s.1
        (acc.wrA n.cap d 64 e x.1).keep x.2) lo hi

/-- P(s): the slice products of a slice count (R167). -/
def sliceProducts (s : Nat) : Nat := s * (s + 1) / 2

/-- MAC rate of an MMA type (R158). -/
def mmaRate (t : Ty) : Nat := if t == .c4 then 4096 else if t.bits = 8 then 2048 else 1024

/-- Tokens of one unit of a heavy entry (R169); none for an entry that is not heavy. -/
def leaveCost (i : Instr) (slices vl : Nat) : Option Nat :=
  match i with
  | .mmaAccResident _ _ _ t _ _ => some ((vl * 32 + mmaRate t - 1) / mmaRate t)
  | .mmaZeroResident _ _ _ t _ _ => some ((vl * 32 + mmaRate t - 1) / mmaRate t)
  | .mmaAccRegister _ _ _ t _ _ => some ((vl * 32 + mmaRate t - 1) / mmaRate t)
  | .mmaZeroRegister _ _ _ t _ _ => some ((vl * 32 + mmaRate t - 1) / mmaRate t)
  | .wmacVv _ _ _ _ _ _ => some 1
  | .wmacVs _ _ _ _ _ => some 1
  | .dfma _ _ _ _ => some ((64 * sliceProducts slices + 2047) / 2048)
  | .fmulVv _ _ _ t _ _ => if t == .f64s then some 1 else none
  | .fmulVs _ _ _ t _ => if t == .f64s then some 1 else none
  | .fmulVi _ _ _ t => if t == .f64s then some 1 else none
  | .fmaVv _ _ _ t _ _ => if t == .f64s then some 1 else none
  | .fmaVs _ _ _ t _ => if t == .f64s then some 1 else none
  | .fmaVi _ _ _ t => if t == .f64s then some 1 else none
  | .fnmsVv _ _ _ t _ _ => if t == .f64s then some 1 else none
  | .fnmsVs _ _ _ t _ => if t == .f64s then some 1 else none
  | .fnmsVi _ _ _ t => if t == .f64s then some 1 else none
  | .fnmaVv _ _ _ t _ _ => if t == .f64s then some 1 else none
  | .fnmaVs _ _ _ t _ => if t == .f64s then some 1 else none
  | .fnmaVi _ _ _ t => if t == .f64s then some 1 else none
  | _ => none

/-- MMA_ACC_RESIDENT at the slice: pushed (R62, R157). -/
def execMmaAccResident (d a : Fin 32) (q : Fin 16) (t : Ty) (m g : Fin 4) (s : State) : Host.Outcome State Fault Refusal :=
  .next (s.pushVector (.mmaAccResident d a q t m g) 0)
/-- MMA_ZERO_RESIDENT at the slice: pushed (R62, R157). -/
def execMmaZeroResident (d a : Fin 32) (q : Fin 16) (t : Ty) (m g : Fin 4) (s : State) : Host.Outcome State Fault Refusal :=
  .next (s.pushVector (.mmaZeroResident d a q t m g) 0)
/-- MMA_ACC_REGISTER in the lanes (R160). -/
def laneMmaAccRegister (d a b : Fin 32) (t : Ty) (m g : Fin 4) (n : LEnv) : LaneAct :=
  n.mmaReg t m.val d.val a.val b.val g.val false
/-- MMA_ACC_REGISTER at the slice: pushed (R62, R157). -/
def execMmaAccRegister (d a b : Fin 32) (t : Ty) (m g : Fin 4) (s : State) : Host.Outcome State Fault Refusal :=
  .next (s.pushVector (.mmaAccRegister d a b t m g) 0)
/-- MMA_ZERO_REGISTER in the lanes (R160). -/
def laneMmaZeroRegister (d a b : Fin 32) (t : Ty) (m g : Fin 4) (n : LEnv) : LaneAct :=
  n.mmaReg t m.val d.val a.val b.val g.val true
/-- MMA_ZERO_REGISTER at the slice: pushed (R62, R157). -/
def execMmaZeroRegister (d a b : Fin 32) (t : Ty) (m g : Fin 4) (s : State) : Host.Outcome State Fault Refusal :=
  .next (s.pushVector (.mmaZeroRegister d a b t m g) 0)
/-- ACCRD in the lanes (R164). -/
def laneAccrd (d a : Fin 32) (t : Ty) (q : Fin 4) (sat : Bool) (n : LEnv) : LaneAct := n.accrd t q.val d.val a.val sat
/-- ACCRD at the slice: pushed (R62). -/
def execAccrd (d a : Fin 32) (t : Ty) (q : Fin 4) (sat : Bool) (s : State) : Host.Outcome State Fault Refusal :=
  .next (s.pushVector (.accrd d a t q sat) 0)
/-- ACCWR in the lanes (R165). -/
def laneAccwr (d a : Fin 32) (t : Ty) (n : LEnv) : LaneAct := n.accwr t d.val a.val
/-- ACCWR at the slice: pushed (R62). -/
def execAccwr (d a : Fin 32) (t : Ty) (s : State) : Host.Outcome State Fault Refusal := .next (s.pushVector (.accwr d a t) 0)
/-- ACCZ in the lanes (R166). -/
def laneAccz (d : Fin 32) (n : LEnv) : LaneAct := n.accz d.val
/-- ACCZ at the slice: pushed (R62). -/
def execAccz (d : Fin 32) (s : State) : Host.Outcome State Fault Refusal := .next (s.pushVector (.accz d) 0)
/-- DFMA in the lanes (R168). -/
def laneDfma (d a b : Fin 32) (q : Fin 4) (n : LEnv) : LaneAct := n.dfma q.val d.val a.val b.val
/-- DFMA at the slice: pushed (R62). -/
def execDfma (d a b : Fin 32) (q : Fin 4) (s : State) : Host.Outcome State Fault Refusal := .next (s.pushVector (.dfma d a b q) 0)

end Sys2Proof.Machine
end

