-- ==== Sys2Proof/Machine/Resident.lean ====
section
/-! DEFINITION. Resident access (R203 to R208) and the resident forms of MMA (R161 to R163): entries that read and write the
loft copy of a set. -/

namespace Sys2Proof.Machine

/-- How far an entry that reaches beyond the lanes has come: to an element or unit, to its end, to a wait, to an illegal
operand, or to a fault with the VSTART it leaves. -/
inductive MemStep where
  | more (vstart : Nat)
  | done
  | wait
  | illegal
  | trap (code : TrapCode) (kind : Nat) (tval : X64) (vstart : Nat)
  deriving DecidableEq, Repr

/-- What an entry of slot k sees in the lanes. -/
def State.lenv (s : State) (k : Nat) (e : Entry) : LEnv :=
  let sl := s.slot k
  { l := sl.lane, cap := sl.cap.toNat, agrp := (s.limits k).1, x := e.scalar }

/-- Put the lanes of slot k. -/
def State.setLane (s : State) (k : Nat) (l : Lane) : State := s.modSlot k fun sl => { sl with lane := l }

/-! ### Elements of a set -/

/-- What an element of a set reads as: not a member, failed, or its bits and scale (R176, R186). -/
inductive ResElem where
  | miss
  | failed (f : FillFail)
  | val (v scale : Nat)
  deriving DecidableEq, Repr

/-- Has the delivery that the head entry sees landed (R25, R182). -/
def ResReg.present (r : ResReg) : Bool :=
  match r.seen with
  | some g => g.landed
  | none => true

/-- Absolute coordinates of box-relative offsets under a generation (R205). -/
def Desc.absolute (d : Desc) (ks : Ctrs) (o : List Int) : List Int := (List.range 6).map fun i => d.lower ks i + coordAt o i

/-- Read the element at some offsets (R176, R206). -/
def Slot.resRead (sl : Slot) (q : Nat) (o : List Int) : ResElem :=
  let r := sl.reg q
  match r.seen with
  | none => .miss
  | some g =>
    let a := r.desc.absolute g.ks o
    if !r.desc.accR || !r.desc.inSet g.ks a then .miss
    else if r.desc.isFill a then .val r.desc.fillBits 0x7F
    else
      match (sl.cellsOf q).find? fun c => c.co == a.take r.desc.rank with
      | none => .miss
      | some c => match c.fail with
        | some f => .failed f
        | none => .val c.val.toNat c.scale.toNat

/-- Store an element at some offsets: it turns dirty (R184, R206). The second part says why it may not. -/
def Slot.resWrite (sl : Slot) (q : Nat) (o : List Int) (v scale : Nat) : Slot × ResElem :=
  let r := sl.reg q
  match r.seen with
  | none => (sl, .miss)
  | some g =>
    let a := r.desc.absolute g.ks o
    if !r.desc.accW || !r.desc.inSet g.ks a || r.desc.isFill a then (sl, .miss)
    else
      let cells := sl.cellsOf q
      match cells.find? fun c => c.co == a.take r.desc.rank with
      | none => (sl, .miss)
      | some c => match c.fail with
        | some f => (sl, .failed f)
        | none =>
          (sl.setCells q (cells.map fun x =>
            if x.co == c.co then { x with val := BitVec.ofNat 64 v, scale := BitVec.ofNat 8 scale, dirty := true } else x),
           .val v scale)

/-- The trap of an element that may not be accessed, at its packed offsets (R207, R186). -/
def resTrap (x : ResElem) (o : List Int) (e : Nat) : MemStep :=
  match x with
  | .failed f => .trap f.code 0 (f.addr.getD (packOffs o)) e
  | _ => .trap .residencyMiss 0 (packOffs o) e

/-- Offsets of element e: a packed scalar with a step along dimension 0, or the element's own packed word (R205). -/
inductive ResIndex where
  | scal
  | vec (b : Nat)
  deriving DecidableEq, Repr

/-- VSTRIDE in elements, 1 for 0 (R205). -/
def Lane.strideElems (l : Lane) : Int := if l.vstride = 0 then 1 else l.vstride.toInt

/-- Box-relative offsets of element e (R205). -/
def LEnv.resOffs (n : LEnv) (ix : ResIndex) (e : Nat) : List Int :=
  match ix with
  | .scal => [packedOff n.x 0 + (e : Int) * n.l.strideElems, packedOff n.x 1, packedOff n.x 2, packedOff n.x 3]
  | .vec b =>
    let w := BitVec.ofNat 64 (n.l.rd b 64 e)
    [packedOff w 0, packedOff w 1, packedOff w 2, packedOff w 3]

/-- Is some block of 16 elements of [0, VL) neither wholly active nor wholly inactive (R206, R210). -/
def LEnv.partBlock (n : LEnv) : Bool :=
  (List.range (n.l.vl.toNat / 16)).any fun j =>
    (List.range 16).any (fun i => n.l.gov (16 * j + i)) && !(List.range 16).all fun i => n.l.gov (16 * j + i)

/-- Does the block rule of a scaled type fail (R206). -/
def LEnv.blockRule (n : LEnv) (store : Bool) : Bool :=
  decide (packedOff n.x 0 % 16 ≠ 0) || decide (n.l.strideElems ≠ 1) || decide (n.l.vl.toNat % 16 ≠ 0) || (store && n.partBlock)

/-- Load or store the active elements of a list, up to the first that may not be accessed. -/
def State.resElems (s : State) (k : Nat) (n : LEnv) (store : Bool) (d q : Nat) (t : Ty) (ix : ResIndex) :
    List Nat → State × Option MemStep
  | [] => (s, none)
  | e :: rest =>
    if !n.l.gov e then s.resElems k n store d q t ix rest
    else
      let o := n.resOffs ix e
      if store then
        let w := (s.slot k).resWrite q o (n.l.rd d t.bits e) (if t.isBlock then n.l.scaleOf t d e else 0)
        match w.2 with
        | .val _ _ => (s.setSlot k w.1).resElems k n store d q t ix rest
        | x => (s, some (resTrap x o e))
      else
        match (s.slot k).resRead q o with
        | .val v sc =>
          (s.modSlot k fun sl =>
            { sl with lane :=
                if t.isBlock then (sl.lane.setData d t.bits e v).setScale t d e sc else sl.lane.wr d t.bits e v }).resElems
            k n store d q t ix rest
        | x => (s, some (resTrap x o e))

/-- The loft words that an element group of a resident entry touches, by the offsets of its elements: those of the members that are
no fill elements (R187, R188). Of scale rows the spec gives no place, so nothing is ruled out of a scaled group. -/
def Slot.groupWords (sl : Slot) (q : Nat) (os : List (List Int)) : List Nat :=
  let r := sl.reg q
  match r.seen with
  | none => []
  | some g =>
    let as := (os.map fun o => r.desc.absolute g.ks o).filter fun a => r.desc.inSet g.ks a && !r.desc.isFill a
    if r.desc.rtype.isBlock && !as.isEmpty then [0, 256]
    else as.map fun a => (sl.loft + r.ringBase + r.desc.slotNibble r.lens a / 2) / 16

/-- One element group of a resident entry (R206). -/
def State.resident (s : State) (k : Nat) (e : Entry) (store : Bool) (d q : Nat) (t : Ty) (ix : ResIndex) : State × MemStep :=
  let n := s.lenv k e
  let r := (s.slot k).reg q
  let vl := n.l.vl.toNat
  let vs := n.l.vstart.toNat
  let w := match ix with | .scal => t.bits | .vec _ => max t.bits 64
  let counts := match ix with | .scal => [n.count t] | .vec _ => [n.count t, perReg n.cap 64]
  if counts.any (fun c => decide (c < vl)) || decide ((s.limits k).2.1 ≤ q) then (s, .illegal)
  else if !r.lanesSee then
    match (List.range' vs (vl - vs)).find? n.l.gov with
    | some e => (s, .trap .residencyMiss 0 (packOffs (n.resOffs ix e)) e)
    | none => (s, .done)
  else if t ≠ r.desc.rtype then (s, .illegal)
  else if t.isBlock && n.blockRule store then (s, .illegal)
  else if vl ≤ vs then (s, .done)
  else if !r.present then (s, .wait)
  else
    let hi := min vl ((vs / groupOf w + 1) * groupOf w)
    let es := List.range' vs (hi - vs)
    match (s.bankWait k [(s.slot k).groupWords q ((es.filter n.l.gov).map (n.resOffs ix))]).resElems k n store d q t ix es with
    | (s, some x) => (s, x)
    | (s, none) => (s, if hi = vl then .done else .more hi)

/-! ### The resident forms of MMA -/

/-- The columns of C that contain an active element: those whose B elements are read (R161). -/
def LEnv.mmaColumns (n : LEnv) : List Nat :=
  (List.range 32).filter fun c => (List.range (n.l.vl.toNat / 32)).any fun r => n.l.gov (32 * r + c)

/-- The B elements of k-block i that cannot be read, column by column (R163). -/
def Slot.mmaMiss (sl : Slot) (n : LEnv) (q i : Nat) : Option (ResElem × List Int) :=
  n.mmaColumns.findSome? fun (c : Nat) => (List.range 32).findSome? fun (kk : Nat) =>
    let o : List Int := [((32 * i + kk : Nat) : Int), (c : Int), 0, 0]
    match sl.resRead q o with
    | .val _ _ => none
    | x => some (x, o)

/-- One k-block of a resident MMA (R160 to R163). -/
def State.mmaResident (s : State) (k : Nat) (e : Entry) (t : Ty) (m d a q g : Nat) (zero : Bool) : State × MemStep :=
  let n := s.lenv k e
  let sl := s.slot k
  let r := sl.reg q
  let i := n.l.vstart.toNat
  if n.mmaIllegal t d || decide ((s.limits k).2.1 ≤ q) then (s, .illegal)
  else if r.lanesSee && decide (t ≠ r.desc.rtype) then (s, .illegal)
  else if 2 ^ g ≤ i then (s.setLane k (n.l.touchA d), .done)
  else
    let run (s : State) (b : Nat → Nat → FVal) (bi : Nat → Nat → Int) : State × MemStep :=
      let oa := n.mmaA t m a i
      (s.setLane k ((n.mmaBlock t m d i zero { aVal := oa.1, aInt := oa.2, bVal := b, bInt := bi }).touchA d),
        if i + 1 = 2 ^ g then .done else .more (i + 1))
    match n.mmaColumns with
    | [] => run s (fun _ _ => .nan) (fun _ _ => 0)
    | c :: _ =>
      if !r.lanesSee then (s, .trap .residencyMiss 0 (packOffs [((32 * i : Nat) : Int), (c : Int), 0, 0]) i)
      else if !r.present then (s, .wait)
      else
        match sl.mmaMiss n q i with
        | some (x, o) => (s, resTrap x o i)
        | none =>
          let atB (kk c : Nat) : Nat × Nat :=
            match sl.resRead q [((32 * i + kk : Nat) : Int), (c : Int), 0, 0] with
            | .val v sc => (v, sc)
            | _ => (0, 0)
          let os := n.mmaColumns.flatMap fun (c : Nat) => (List.range 32).map fun (kk : Nat) => [((32 * i + kk : Nat) : Int), (c : Int), 0, 0]
          run (s.bankWait k [sl.groupWords q os])
            (fun kk c =>
              let x := atB kk c
              if t == .c4 then decodeC4 (n.l.book r.desc.marg) x.2 x.1
              else if t.isF8 then applyScale x.2 (decodeFloat t x.1) else decodeFloat t x.1)
            (fun kk c => intVal t (atB kk c).1)

/-! ### The instructions at the slice (R62, R204) -/

/-- LDR at the slice: pushed with its packed offsets. -/
def execLdr (d : Fin 32) (q : Fin 16) (b : Fin 32) (t : Ty) (s : State) : Host.Outcome State Fault Refusal :=
  .next (s.pushVector (.ldr d q b t) (s.me.rx b.val))
/-- STR at the slice: pushed with its packed offsets. -/
def execStr (d : Fin 32) (q : Fin 16) (b : Fin 32) (t : Ty) (s : State) : Host.Outcome State Fault Refusal :=
  .next (s.pushVector (.str d q b t) (s.me.rx b.val))
/-- LDRX at the slice: pushed. -/
def execLdrx (d : Fin 32) (q : Fin 16) (b : Fin 32) (t : Ty) (s : State) : Host.Outcome State Fault Refusal :=
  .next (s.pushVector (.ldrx d q b t) 0)
/-- STRX at the slice: pushed. -/
def execStrx (d : Fin 32) (q : Fin 16) (b : Fin 32) (t : Ty) (s : State) : Host.Outcome State Fault Refusal :=
  .next (s.pushVector (.strx d q b t) 0)

end Sys2Proof.Machine
end

