-- ==== Sys2Proof/Machine/Far.lean ====
section
/-! DEFINITION. Far vector access (R209 to R217), multicast store (R218) and scatter-add (R219, R220): entries that read and
write virtual memory. -/

namespace Sys2Proof.Machine

/-- A far entry: load or store, its data register, type and index register (R209). -/
structure FarOp where
  store : Bool
  d : Nat
  t : Ty
  idx : Option Nat
  deriving DecidableEq, Repr

/-- One piece of an element or block: whether it is the block's scale byte, its address, size, alignment and, for a store,
its bytes. -/
structure Seg where
  scale : Bool
  va : X64
  n : Nat
  align : Nat
  data : List Byte
  deriving DecidableEq, Repr

/-- A translated piece of unit u: its place and final address. -/
structure FarSeg where
  u : Nat
  seg : Seg
  t : Target
  fva : X64
  deriving DecidableEq, Repr

/-- Does a piece travel over a link. -/
def FarSeg.remote (x : FarSeg) : Bool :=
  match x.t with
  | .far .. => true
  | _ => false

/-! ### Addresses and units -/

/-- The address of element e of an unscaled far entry (R210). -/
def LEnv.farAddr (n : LEnv) (o : FarOp) (e : Nat) : X64 :=
  match o.idx with
  | some b => n.x + BitVec.ofNat 64 (n.l.rd b 64 e)
  | none => n.x + BitVec.ofNat 64 e * (if n.l.vstride = 0 then BitVec.ofNat 64 (o.t.bits / 8) else n.l.vstride)

/-- The pieces of unit u: an element, or a block of 16 with its scale byte (R178, R210). -/
def LEnv.farSegs (n : LEnv) (o : FarOp) (u : Nat) : List Seg :=
  let w := o.t.bits
  if o.t.isBlock then
    let c4 := o.t == .c4
    [{ scale := false, va := scaledAddr c4 n.x u, n := 2 * w, align := 1, data := toBytes (2 * w) (n.l.rd o.d (16 * w) (u / 16)) },
     { scale := true, va := scaledScale c4 n.x u, n := 1, align := 1, data := toBytes 1 (n.l.scaleOf o.t o.d u) }]
  else [{ scale := false, va := n.farAddr o u, n := w / 8, align := w / 8, data := toBytes (w / 8) (n.l.rd o.d w u) }]

/-- The units with an active element in [lo, hi), in order: elements, or first elements of blocks. -/
def LEnv.farUnits (n : LEnv) (t : Ty) (lo hi : Nat) : List Nat :=
  let es := (List.range' lo (hi - lo)).filter n.l.gov
  if t.isBlock then (es.map fun e => e / 16 * 16).eraseDups else es

/-- What makes a far entry an illegal operand before any element (R203, R210). -/
def LEnv.farIllegal (n : LEnv) (o : FarOp) : Bool :=
  let vl := n.l.vl.toNat
  decide (n.count o.t < vl) || (o.idx.isSome && decide (perReg n.cap 64 < vl)) ||
    (o.t.isBlock && (n.l.vstride != 0 || decide (vl % 16 ≠ 0) || (o.store && n.partBlock)))

/-- A scaled region starts at a multiple of 16 (R210). -/
def LEnv.farSkew (n : LEnv) (o : FarOp) : Bool := o.t.isBlock && decide (n.x.toNat % 16 ≠ 0)

/-- Write what a unit's pieces loaded into its active elements at or above VSTART (R203, R212). -/
def LEnv.farWrite (n : LEnv) (o : FarOp) (l : Lane) (u : Nat) (bs : List (List Byte)) : Lane :=
  let v := ofBytes (bs.getD 0 [])
  let w := o.t.bits
  if o.t.isBlock then
    let es := (List.range' u 16).filter fun e => n.l.gov e && decide (n.l.vstart.toNat ≤ e)
    let l := es.foldl (fun l e => l.setData o.d w e (v / 2 ^ (w * (e - u)) % 2 ^ w)) l
    if es.isEmpty then l else l.setScale o.t o.d u (ofBytes (bs.getD 1 []))
  else l.wr o.d w u v

/-! ### Translating and packing -/

/-- Translate pieces in order, up to the first that an access could not perform: the pieces of the units before it, its unit,
and why, a fault or a wait (R212, R213, R225, R240). -/
def State.farPlan (s : State) (k : Nat) (g : Agent) (acc : Acc) (xa : Option Nat) :
    List (Nat × Seg) → Res (State × List FarSeg × Option (Nat × Got Unit))
  | [] => .ok (s, [], none)
  | (u, x) :: rest =>
    match s.accessAt k g acc x.align x.va xa with
    | .error e => .error e
    | .ok (s, .trap code a) => .ok (s, [], some (u, .trap code a))
    | .ok (s, .wait) => .ok (s, [], some (u, .wait))
    | .ok (s, .ok p) =>
      match s.admits g (acc == .read) p.1 x.n p.2 with
      | .error e => .error e
      | .ok (.trap code a) => .ok (s, [], some (u, .trap code a))
      | .ok .wait => .ok (s, [], some (u, .wait))
      | .ok (.ok _) =>
        match s.farPlan k g acc xa rest with
        | .error e => .error e
        | .ok (s, segs, f) =>
          let own : FarSeg := { u := u, seg := x, t := p.1, fva := p.2 }
          .ok (s, (if f.map (·.1) = some u then segs else own :: segs), f)

/-- A run of contiguous bytes of some elements: over a link one packet (R301), elsewhere one request (R264). `scale` keeps the
runs of scale bytes apart while the elements' bytes gather; `elem` is the lowest element and `eva` its address. -/
structure FarRun where
  scale : Bool
  far : Option (Nat × Nat × Nat)
  addr : Nat
  va : X64
  len : Nat
  data : List Byte
  elem : Nat
  eva : X64
  deriving DecidableEq, Repr

/-- The run of one piece. -/
def FarRun.of (x : FarSeg) : FarRun :=
  let r (far : Option (Nat × Nat × Nat)) (addr : Nat) : FarRun :=
    { scale := x.seg.scale, far := far, addr := addr, va := x.fva, len := x.seg.n, data := x.seg.data, elem := x.u, eva := x.fva }
  match x.t with
  | .far port part addr rcls => r (some (port, part, rcls)) addr
  | .loc pa => r none pa
  | .held => r none 0

/-- Does run q go on where run p ends: in the same 64 KiB page and within 4,064 bytes (R301). -/
def FarRun.before (p q : FarRun) : Bool :=
  p.far == q.far && p.addr + p.len == q.addr && p.va + BitVec.ofNat 64 p.len == q.va && p.addr / 65536 == q.addr / 65536 &&
    decide (p.len + q.len ≤ 4064)

/-- Two contiguous runs as one, whichever lies lower; none when they are not contiguous (R301). -/
def FarRun.join (p q : FarRun) : Option FarRun :=
  let one (a b : FarRun) : FarRun :=
    { a with
      len := a.len + b.len, data := a.data ++ b.data, elem := min p.elem q.elem
      eva := if p.elem ≤ q.elem then p.eva else q.eva }
  if p.before q then some (one p q) else if q.before p then some (one q p) else none

/-- Add a run to the runs so far: the last of its kind takes it when they are contiguous. -/
def addRun (acc : List FarRun) (q : FarRun) : List FarRun :=
  match (acc.zipIdx.filter fun p => p.1.scale == q.scale).getLast? with
  | some (p, i) => match p.join q with
    | some r => acc.set i r
    | none => acc ++ [q]
  | none => acc ++ [q]

/-- The runs of some pieces in the order of their elements: each element goes on with its neighbour's run or begins one, and
runs of consecutive groups merge (R264, R301). -/
def farRuns (segs : List FarSeg) : List FarRun :=
  let rs := (segs.map FarRun.of).foldl addRun []
  if rs.any (·.scale) then (rs.map fun r => { r with scale := false }).foldl addRun [] else rs

/-- The requests of some runs reach the core's port, each cut into pieces of its own (R264). -/
def State.runPieces (s : State) (k : Nat) (rs : List FarRun) : State := rs.foldl (fun s r => s.addPieces k r.len) s

/-- Send the packets of some runs and give each request the element it begins with (R301). -/
def State.sendRuns (s : State) (g : Agent) (kind vs : Nat) (rs : List FarRun) : State :=
  rs.foldl (fun s r =>
    match r.far with
    | none => s
    | some (port, part, rcls) =>
      let t := s.sendReq g port part r.addr rcls kind r.len .none (if kind = 1 then r.data else [])
      { t with reqs := t.reqs.dropLast ++ (t.reqs.getLast?.map fun q =>
          { q with elem := max r.elem vs, eva := r.eva, va := r.va }).toList }) s

/-! ### Performing -/

/-- Perform the pieces of one unit; a store's REMOTE pieces travel in packets of their own. -/
def State.farSegsDo (s : State) (g : Agent) (store : Bool) : List FarSeg → Res (State × Got (List (List Byte)))
  | [] => .ok (s, .ok [])
  | x :: rest =>
    let r : Res (State × Got (List Byte)) :=
      if !store then s.readAt g false x.t x.seg.n x.fva
      else if x.remote then .ok (s, .ok [])
      else thenA (s.writeAt g false x.t x.seg.data x.fva) fun s _ => .ok (s, .ok [])
    thenA r fun s b => thenA (s.farSegsDo g store rest) fun s bs => .ok (s, .ok (b :: bs))

/-- Perform units in order, up to the first that faults; watchpoints match what performs (R240 step 6). -/
def State.farUnitsDo (s : State) (k : Nat) (g : Agent) (n : LEnv) (o : FarOp) (segs : List FarSeg) :
    List Nat → Res (State × Option (Nat × Got Unit))
  | [] => .ok (s, none)
  | u :: rest =>
    let own := segs.filter fun x => x.u == u
    match s.farSegsDo g o.store own with
    | .error e => .error e
    | .ok (s, .trap code a) => .ok (s, some (u, .trap code a))
    | .ok (s, .wait) => .ok (s, some (u, .wait))
    | .ok (s, .ok bs) =>
      let s := if o.store then s else s.modSlot k fun sl => { sl with lane := n.farWrite o sl.lane u bs }
      let s := own.foldl (fun s x => if o.store && x.remote then s else s.watchLanes k (!o.store) o.store x.fva.toNat x.seg.n) s
      s.farUnitsDo k g n o segs rest

/-- Mark the head entry of slot k: see `Entry.leave`. -/
def State.farMark (s : State) (k : Nat) : State :=
  s.modSlot k fun sl => { sl with queue := match sl.queue with | e :: t => { e with leave := 1 } :: t | [] => [] }

/-- How far entry e has come after units [vs, hi) up to a stop (R212, R213): `first` is the first of them. -/
def State.farEnd (s : State) (k : Nat) (g : Agent) (e : Entry) (o : FarOp) (vs hi vl first : Nat) (stop : Option (Nat × Got Unit)) :
    State × MemStep :=
  match stop with
  | none => if hi = vl then (s.dropReqs g.owner, .done) else ((if o.store then s else s.farMark k), .more hi)
  | some (_, .ok _) => (s, .done)
  | some (_, .wait) => (s, .wait)
  | some (u, .trap code a) =>
    if o.store then (s, .trap code 1 a (max u vs))
    else if u = first ∧ e.leave = 0 then (s, .trap code 0 a vs)
    else ((s.modSlot k fun sl => { sl with lane := { sl.lane with vl := BitVec.ofNat 13 u } }).dropReqs g.owner, .done)

/-- The group of units below hi performs whole, or up to its stop (R14). -/
def State.farGroup (s : State) (k : Nat) (g : Agent) (n : LEnv) (e : Entry) (o : FarOp) (hi first : Nat) (units : List Nat)
    (segs : List FarSeg) (stop : Option (Nat × Got Unit)) : Res (State × MemStep) :=
  let ok := units.filter fun u => match stop with | some (v, _) => decide (u < v) | none => true
  match s.farUnitsDo k g n o segs ok with
  | .error e => .error e
  | .ok (t, halt) =>
    let s := if o.store then State.keepDirty s t else t
    let done := segs.filter fun x => !x.remote && match halt with | some (v, _) => decide (x.u < v) | none => true
    .ok ((s.runPieces k (farRuns done)).farEnd k g e o n.l.vstart.toNat hi n.l.vl.toNat first (halt.or stop))

/-- A far store issues all its units below `lim`: local pieces perform, REMOTE ones travel, and VSTART names the first unit that
is not issued (R213, R215, R216). -/
def State.farIssue (s : State) (k : Nat) (g : Agent) (n : LEnv) (o : FarOp) (lim : Nat) (units : List Nat) (segs : List FarSeg) :
    Res (State × MemStep) :=
  match s.farUnitsDo k g n o segs units with
  | .error e => .error e
  | .ok (t, _) =>
    let rs := farRuns segs
    let s := ((State.keepDirty s t).runPieces k rs).sendRuns g 1 n.l.vstart.toNat rs
    .ok (if lim = n.l.vl.toNat then s.farMark k
      else s.modSlot k fun sl => { sl with lane := { sl.lane with vstart := BitVec.ofNat 12 (max lim n.l.vstart.toNat) } }, .wait)

/-- The packets that a far store has issued: once each has its answer, those that arrived have performed, and the first that did
not is reported at its first element (R216). -/
def State.farAcked (s : State) (k : Nat) (g : Agent) (e : Entry) : State × MemStep :=
  if s.reqOpen g.owner then (s, .wait)
  else
    let mine := s.reqs.filter fun r => r.owner == g.owner
    let ok (r : LinkReq) : Bool := match r.outcome with | .ok _ => true | _ => false
    let s := (mine.filter ok).foldl (fun s r => s.watchLanes k false true r.va.toNat r.len) (s.dropReqs g.owner)
    let lost := (mine.filter fun r => !ok r).foldl (fun (m : Option LinkReq) r => match m with
      | some q => if r.elem < q.elem then some r else m
      | none => some r) none
    match lost with
    | some r => (s, .trap .linkIncomplete 1 r.eva r.elem)
    | none => if e.leave ≠ 0 then (s, .done) else (s, .more (s.slot k).lane.vstart.toNat)

/-- Has each REMOTE piece of a load a request that covers it. -/
def State.farAsked (s : State) (g : Agent) (segs : List FarSeg) : List (Option LinkReq) :=
  (segs.filter FarSeg.remote).map fun x => match x.t with
    | .far _ part addr _ => s.reqFor g.owner 2 part addr x.seg.n
    | _ => none

/-- LDF, LDFX, STF and STFX in the lanes (R209 to R216): the next element group, once what an earlier FENCE.VV orders before it has
performed (R231). Once a group reaches a REMOTE page the packets of all that is left travel at once, as far as every element before can perform: a store has
issued those elements, and a load completes each group when its answers are there (R215). -/
def State.farEntry (s : State) (k : Nat) (e : Entry) (o : FarOp) (xa : Nat) (ord urg : Bool) : Res (State × MemStep) :=
  let n := s.lenv k e
  let vs := n.l.vstart.toNat
  let vl := n.l.vl.toNat
  let g := s.laneAgent k urg
  if n.farIllegal o || n.farSkew o then .ok (s, .illegal)
  else if o.store && s.reqs.any (fun r => r.owner == g.owner) then .ok (s.farAcked k g e)
  else
    let w := match o.idx with | some _ => max 64 o.t.bits | none => o.t.bits
    let hi := min vl ((vs / groupOf w + 1) * groupOf w)
    let all := n.farUnits o.t vs vl
    match all.filter fun u => decide (u < hi) with
    | [] => .ok (if hi = vl then (s.dropReqs g.owner, .done) else (s, .more hi))
    | f :: rest =>
      if (s.slot k).owedBefore (s.slot k).fences || (o.store && ord && (!(s.slot k).writtenBack || s.flushHeld (coreOf k))) then .ok (s, .wait)
      else
        let s := if o.store && ord then s.flushCore (coreOf k) else s
        let acc : Acc := if o.store then .write else .read
        let units := f :: rest
        let pieces (us : List Nat) := us.flatMap fun u => (n.farSegs o u).map fun x => (u, x)
        match s.farPlan k g acc (some xa) (pieces units) with
        | .error e => .error e
        | .ok (_, _, some (_, .wait)) => .ok (s, .wait)
        | .ok (s1, segs, stop) =>
          if segs.all fun x => !x.remote then s1.farGroup k g n e o hi f units segs stop
          else if !o.store && (s.farAsked g segs).all Option.isSome then
            if (s.farAsked g segs).any fun r => r.any fun r => r.outcome == .waiting then .ok (s, .wait)
            else s1.farGroup k g n e o hi f units segs stop
          else
            match s.farPlan k g acc (some xa) (pieces all) with
            | .error e => .error e
            | .ok (_, _, stop) =>
              let lim := match stop with | none => vl | some (v, .wait) => v / groupOf w * groupOf w | some (v, _) => v
              let ahead := all.filter fun u => decide (u < lim)
              match s.farPlan k g acc (some xa) (pieces ahead) with
              | .error e => .error e
              | .ok (s2, segs, _) =>
                if o.store then s2.farIssue k g n o lim ahead segs
                else
                  let rs := farRuns (segs.filter FarSeg.remote)
                  .ok ((((s2.dropReqs g.owner).runPieces k rs).sendRuns g 2 vs rs).unfollow s k, .wait)

/-! ### Multicast (R218) -/

/-- Read consecutive 64-bit words of a multicast list, each with its final address: those read, and what comes of the whole. -/
def State.listWords (s : State) (k : Nat) (g : Agent) (xa : Nat) : Nat → X64 → Res (State × List (X64 × X64) × Got Unit)
  | 0, _ => .ok (s, [], .ok ())
  | m + 1, va =>
    let word : Res (State × Got (X64 × X64)) :=
      thenA (s.accessAt k g .read 8 va (some xa)) fun s (p : Target × X64) => thenA (s.readAt g false p.1 8 p.2) fun s b =>
        .ok (s, .ok (BitVec.ofNat 64 (ofBytes b), p.2))
    match word with
    | .error e => .error e
    | .ok (s, .trap code a) => .ok (s, [], .trap code a)
    | .ok (s, .wait) => .ok (s, [], .wait)
    | .ok (s, .ok w) =>
      match s.listWords k g xa m (va + 8) with
      | .error e => .error e
      | .ok (s, ws, r) => .ok (s, w :: ws, r)

/-- Is a place one that a multicast may write: not REMOTE, not denied by the service space (R218, R225). -/
def State.castOk (s : State) (g : Agent) (t : Target) (n : Nat) (va : X64) : Res (Got Unit) :=
  match t with
  | .far .. => .ok (.trap .multicastDenied va)
  | _ => s.admits g false t n va

/-- The check phase over the pieces of every destination: the translated pieces, or the first denial (R218). -/
def State.castCheck (s : State) (k : Nat) (g : Agent) (xa : Nat) :
    List (Nat × Seg) → Res (State × Got (List (Target × X64 × Seg)))
  | [] => .ok (s, .ok [])
  | (i, x) :: rest =>
    let deny (a : X64) : Got (List (Target × X64 × Seg)) :=
      .trap .multicastDenied (BitVec.ofNat 64 (i * 2 ^ 60 + a.toNat % 2 ^ 57))
    match s.accessAt k g .write x.align x.va (some xa) with
    | .error e => .error e
    | .ok (s, .trap _ a) => .ok (s, deny a)
    | .ok (s, .wait) => .ok (s, .wait)
    | .ok (s, .ok p) =>
      match s.castOk g p.1 x.n p.2 with
      | .error e => .error e
      | .ok (.trap _ a) => .ok (s, deny a)
      | .ok .wait => .ok (s, .wait)
      | .ok (.ok _) => thenA (s.castCheck k g xa rest) fun s t => .ok (s, .ok ((p.1, p.2, x) :: t))

/-- The write phase (R218). -/
def State.castWrite (s : State) (k : Nat) (g : Agent) : List (Target × X64 × Seg) → Res (State × Got Unit)
  | [] => .ok (s, .ok ())
  | (t, va, x) :: rest =>
    thenA (s.writeAt g false t x.data va) fun s _ => (s.watchLanes k false true va.toNat x.n).castWrite k g rest

/-- The list words of a multicast were read: their pieces reach the port, and their watchpoints match (R240, R264). -/
def State.castRead (s : State) (k : Nat) (ws : List (X64 × X64)) : State :=
  ws.foldl (fun s w => (s.addPieces k 8).watchLanes k true false w.2.toNat 8) s

/-- STFM in the lanes (R218): what only waits has performed nothing; otherwise list words were read, before anything is written. -/
def State.castRun (s : State) (k : Nat) (g : Agent) (n : LEnv) (o : FarOp) (xa : Nat) :
    Res (State × MemStep) :=
  match s.listWords k g xa 1 n.x with
  | .error e => .error e
  | .ok (s, _, .wait) => .ok (s, .wait)
  | .ok (s, ws, .trap code a) => .ok (s.castRead k ws, .trap code 0 a 0)
  | .ok (s, ws, .ok _) =>
    let cnt := ((ws.map Prod.fst).getD 0 0).toNat
    if cnt = 0 ∨ 16 < cnt then .ok (s.castRead k ws, .illegal)
    else
      match s.listWords k g xa cnt (n.x + 8) with
      | .error e => .error e
      | .ok (s, _, .wait) => .ok (s, .wait)
      | .ok (s, vs, .trap code a) => .ok (s.castRead k (ws ++ vs), .trap code 0 a 0)
      | .ok (s, vs, .ok _) =>
        let ds := vs.map Prod.fst
        let ws := ws ++ vs
        if ds.any fun x => ({ n with x := x }).farSkew o then .ok (s.castRead k ws, .illegal)
        else
          let us := n.farUnits o.t 0 n.l.vl.toNat
          let pieces := ds.zipIdx.flatMap fun p => us.flatMap fun u => (({ n with x := p.1 }).farSegs o u).map fun x => (p.2, x)
          match s.castCheck k g xa pieces with
          | .error e => .error e
          | .ok (s, .wait) => .ok (s, .wait)
          | .ok (s, .trap code a) => .ok (s.castRead k ws, .trap code 1 a 0)
          | .ok (s, .ok ps) =>
            let s := s.castRead k ws
            match s.castWrite k g ps with
            | .error e => .error e
            | .ok (t, _) =>
              let segs := ps.zipIdx.map fun (p : (Target × X64 × Seg) × Nat) => ({ u := p.2, seg := p.1.2.2, t := p.1.1, fva := p.1.2.1 } : FarSeg)
              .ok ((State.keepDirty s t).runPieces k (farRuns segs), .done)

/-- STFM in the lanes (R218). -/
def State.castEntry (s : State) (k : Nat) (e : Entry) (d : Nat) (t : Ty) (xa : Nat) (ord urg : Bool) : Res (State × MemStep) :=
  let n := s.lenv k e
  let o : FarOp := { store := true, d := d, t := t, idx := none }
  if n.l.vstart ≠ 0 ∨ n.farIllegal o = true then .ok (s, .illegal)
  else if (s.slot k).owedBefore (s.slot k).fences || (ord && (!(s.slot k).writtenBack || s.flushHeld (coreOf k))) then .ok (s, .wait)
  else
    let s := if ord then s.flushCore (coreOf k) else s
    let g := s.laneAgent k urg
    match s.castRun k g n o xa with
    | .error e => .error e
    | .ok (s1, .wait) => .ok (s1.unfollow s k, .wait)
    | .ok (s1, r) => .ok (s1.dropReqs g.owner, r)

/-! ### Scatter-add (R219, R220) -/

/-- One addition of SCADD: INT wraps modulo 2^w, FLT rounds (R219). -/
def scAdd (flt : Bool) (t : Ty) (env : REnv) (x y : Nat) : Nat × REnv :=
  if flt then floatOp .add t 7 env (decodeFloat t x) (decodeFloat t y) .nan else ((x + y) % 2 ^ t.bits, env)

/-- The combining network: one sum for each distinct address, in the order of the lowest elements (R220). -/
def scCombine (flt : Bool) (t : Ty) (env : REnv) (els : List (X64 × Nat)) : List X64 → List (X64 × Nat) × REnv
  | [] => ([], env)
  | p :: rest =>
    let r := match (els.filter fun x => x.1 == p).map (·.2) with
      | [] => (0, env)
      | v :: vs => vs.foldl (fun (acc : Nat × REnv) x => scAdd flt t acc.2 acc.1 x) (v, env)
    let more := scCombine flt t r.2 els rest
    ((p, r.1) :: more.1, more.2)

/-- A translated update: the address, its sum, place and final address. -/
structure ScUpd where
  sum : Nat
  t : Target
  fva : X64
  deriving DecidableEq, Repr

/-- The check phase of SCADD (R220, R224): translate each address; a REMOTE page below SYSTEM is an illegal operand. -/
def State.scCheck (s : State) (k : Nat) (g : Agent) (xa n : Nat) (sc : Scope) :
    List (X64 × Nat) → Res (State × Got (Option (List ScUpd)))
  | [] => .ok (s, .ok (some []))
  | (p, v) :: rest =>
    thenA (s.accessAt k g .scadd n p (some xa)) fun s x =>
      let go : Res (State × Got (Option (List ScUpd))) :=
        thenA (s.scCheck k g xa n sc rest) fun s t => .ok (s, .ok (t.map fun l => { sum := v, t := x.1, fva := x.2 } :: l))
      match x.1 with
      | .far .. => if sc = .system then go else .ok (s, .ok none)
      | .held => .ok (s, .wait)
      | .loc pa =>
        match s.admits g true (.loc pa) n x.2 with
        | .error e => .error e
        | .ok (.trap code a) => .ok (s, .trap code a)
        | .ok .wait => .ok (s, .wait)
        | .ok (.ok _) => go

/-- Send the ATOMIC packets of the REMOTE updates, with the draw that each takes in the order of the updates (R301, R311). -/
def State.scSend (s : State) (g : Agent) (flt : Bool) (t : Ty) (env : REnv) : List ScUpd → State
  | [] => s
  | x :: rest =>
    let d := if flt then env.draw else (env, 0)
    match x.t with
    | .loc _ => s.scSend g flt t d.1 rest
    | .held => s.scSend g flt t d.1 rest
    | .far port part addr rcls =>
      let a : AtomArgs :=
        { opc := if flt then 8 else 0, atype := t.code.val, arm := if flt then env.mode.code else 0, draw := d.2 }
      (s.sendReq g port part addr rcls 4 (t.bits / 8) a (toBytes (t.bits / 8) x.sum)).scSend g flt t d.1 rest

/-- The flags that an answer to a float addition of n bytes raises: its flag byte, which ends the answer (R301). -/
def scFlags (n : Nat) (env : REnv) (r : LinkReq) : REnv :=
  match r.outcome with
  | .ok d => { env with flags := env.flags.or (FlagWord.ofBits (BitVec.ofNat 64 (d.getD n 0).toNat)) }
  | _ => env

/-- Perform the updates in order (R220). -/
def State.scPerform (s : State) (k : Nat) (g : Agent) (flt : Bool) (t : Ty) (env : REnv) (rs : List LinkReq) :
    List ScUpd → Res (State × REnv)
  | [] => .ok (s, env)
  | x :: rest =>
    let n := t.bits / 8
    match x.t with
    | .far .. =>
      match rs with
      | [] => s.scPerform k g flt t env [] rest
      | r :: rs =>
        let env := if flt then (scFlags n env.draw.1 r) else env
        (s.watchLanes k true true x.fva.toNat n).scPerform k g flt t env rs rest
    | _ =>
      match s.updateAt g x.t n (fun old => some (scAdd flt t env old x.sum).1) .none [] x.fva with
      | .error e => .error e
      | .ok (s, .ok old) => (s.watchLanes k true true x.fva.toNat n).scPerform k g flt t (scAdd flt t env old x.sum).2 rs rest
      | .ok (s, _) => s.scPerform k g flt t env rs rest

/-- SCADD in the lanes (R219, R220). -/
def State.scEntry (s : State) (k : Nat) (e : Entry) (sc : Scope) (d : Nat) (t : Ty) (ix xa : Nat) (flt : Bool) :
    Res (State × MemStep) :=
  let n := s.lenv k e
  let o : FarOp := { store := true, d := d, t := t, idx := some ix }
  if n.l.vstart ≠ 0 ∨ n.farIllegal o = true then .ok (s, .illegal)
  else if (s.slot k).owedBefore (s.slot k).fences then .ok (s, .wait)
  else
    let g := s.laneAgent k false
    let els := n.actives.map fun i => (n.farAddr o i, n.l.rd d t.bits i)
    let c := scCombine flt t (n.l.env (n.l.mode 0)) els (els.map (·.1)).eraseDups
    match s.scCheck k g xa (t.bits / 8) sc c.1 with
    | .error e => .error e
    | .ok (s1, .wait) => .ok (s1.unfollow s k, .wait)
    | .ok (s1, .trap code a) => .ok (s1.dropReqs g.owner, .trap code 2 a 0)
    | .ok (s1, .ok none) => .ok (s1, .illegal)
    | .ok (s1, .ok (some us)) =>
      let remote := us.filter fun x => match x.t with | .far .. => true | _ => false
      let mine := s1.reqs.filter fun r => r.owner == g.owner
      if mine.length ≠ remote.length then
        let s2 := (s1.dropReqs g.owner).scSend g flt t c.2 us
        .ok ((remote.foldl (fun s _ => s.addPieces k (t.bits / 8)) s2).unfollow s k, .wait)
      else if s1.reqOpen g.owner then .ok (s1.unfollow s k, .wait)
      else
        match (mine.zip remote).find? fun p => match p.1.outcome with | .ok _ => false | _ => true with
        | some (r, x) =>
          let env := if flt then mine.foldl (scFlags (t.bits / 8)) (n.l.env (n.l.mode 0)) else n.l.env (n.l.mode 0)
          let s2 := (mine.zip remote).foldl (fun s p => if p.1.lost then s else s.watchLanes k true true p.2.fva.toNat (t.bits / 8))
            (s1.dropReqs g.owner)
          .ok (s2.modSlot k fun sl => { sl with lane := { sl.lane with flags := env.flags } },
            match reqResult r r.addr r.len x.fva with
            | .trap code a => .trap code 2 a 0
            | _ => .wait)
        | none =>
          match s1.scPerform k g flt t c.2 mine us with
          | .error e => .error e
          | .ok (s2, env) =>
            let s2 := (us.drop remote.length).foldl (fun s _ => s.addPieces k (t.bits / 8)) (s2.dropReqs g.owner)
            .ok (s2.modSlot k fun sl => { sl with lane := sl.lane.keep env }, .done)

/-! ### The instructions at the slice (R62, R209) -/

/-- LDF at the slice: pushed with x(A) + x(B). -/
def execLdf (sc : Scope) (d a b : Fin 32) (t : Ty) (ord urg strm : Bool) (s : State) : Host.Outcome State Fault Refusal :=
  .next (s.pushVector (.ldf sc d a b t ord urg strm) (s.me.rx a.val + s.me.rx b.val))
/-- LDFX at the slice: pushed with x(A). -/
def execLdfx (sc : Scope) (d a b : Fin 32) (t : Ty) (ord urg strm : Bool) (s : State) : Host.Outcome State Fault Refusal :=
  .next (s.pushVector (.ldfx sc d a b t ord urg strm) (s.me.rx a.val))
/-- STF at the slice: pushed with x(A) + x(B). -/
def execStf (sc : Scope) (d a b : Fin 32) (t : Ty) (ord urg strm : Bool) (s : State) : Host.Outcome State Fault Refusal :=
  .next (s.pushVector (.stf sc d a b t ord urg strm) (s.me.rx a.val + s.me.rx b.val))
/-- STFX at the slice: pushed with x(A). -/
def execStfx (sc : Scope) (d a b : Fin 32) (t : Ty) (ord urg strm : Bool) (s : State) : Host.Outcome State Fault Refusal :=
  .next (s.pushVector (.stfx sc d a b t ord urg strm) (s.me.rx a.val))
/-- STFM at the slice: pushed with x(A) + x(B). -/
def execStfm (sc : Scope) (d a b : Fin 32) (t : Ty) (ord urg strm : Bool) (s : State) : Host.Outcome State Fault Refusal :=
  .next (s.pushVector (.stfm sc d a b t ord urg strm) (s.me.rx a.val + s.me.rx b.val))
/-- SCADD_INT at the slice: pushed with x(A). -/
def execScaddInt (sc : Scope) (d a b : Fin 32) (t : Ty) (s : State) : Host.Outcome State Fault Refusal :=
  .next (s.pushVector (.scaddInt sc d a b t) (s.me.rx a.val))
/-- SCADD_FLT at the slice: pushed with x(A). -/
def execScaddFlt (sc : Scope) (d a b : Fin 32) (t : Ty) (s : State) : Host.Outcome State Fault Refusal :=
  .next (s.pushVector (.scaddFlt sc d a b t) (s.me.rx a.val))

end Sys2Proof.Machine
end

