-- ==== Sys2Proof/Machine/Page.lean ====
section
/-! DEFINITION. The instructions of the page (R246 to R249) and the drover (R242, R248): TLBI, TLBS, SWEEP, RELMOVE, the copy of
a moving tile, its marks, and the words of a sweep. -/

namespace Sys2Proof.Machine

/-! ### Translation invalidates (R249) -/

/-- Does an invalidate of a page, or of every entry, of an address space cover a TLB entry: the page's own, or the span or
512 MiB leaf that contains it. -/
def TlbEnt.covered (t : TlbEnt) (asid : Nat) (page : Option Nat) : Bool :=
  t.asid == asid &&
    match page with
    | none => true
    | some p =>
      t.vpage == p || (t.level == 2 && t.vpage / 8192 == p / 8192) ||
        (pteSpan t.pte && !pteMark t.pte &&
          (if t.level = 2 then t.vpage / 524288 == p / 524288 else t.vpage / 32 == p / 32))

/-- A core drops its covered entries (R249). A far load in progress restarts with fresh translations; what a far store has issued
stays issued, and its next group translates anew (R214). -/
def State.dropTlb (s : State) (c asid : Nat) (page : Option Nat) : State :=
  { s.modCore c fun x => { x with tlb := x.tlb.filter fun t => !t.covered asid page } with
    slots := s.slots.map fun (p : Nat × Slot) =>
      if coreOf p.1 = c ∧ rootAsid p.2.ptroot = asid then
        (p.1, { p.2 with queue := match p.2.queue with
          | e :: t => (if e.farLoad then { e with leave := 0 } else e) :: t
          | [] => [] })
      else p }

/-- Is an access of the core's threads already translated in an address space and not performed (R214). -/
def State.inFlight (s : State) (c asid : Nat) : Bool :=
  s.reqs.any fun r =>
    decide (r.owner < 4096) && coreOf (r.owner / 4) == c && rootAsid (s.slot (r.owner / 4)).ptroot == asid &&
      (r.outcome == .waiting || (s.slot (r.owner / 4)).st != .stop)

/-- Has the drover, the scheduler or a pre-empted thread an access under way that was translated in an address space, or holds a
drained stack a store of one (R249, R337). -/
def State.systemInFlight (s : State) (asid : Nat) : Bool :=
  !s.held.isEmpty || s.reqs.any fun r => decide (4096 ≤ r.owner) && r.asid == asid && r.outcome == .waiting

/-- TLBI (R249). -/
def State.tlbi (s : State) (a : Nat) : Res State :=
  let x := s.me.rx a
  if fld x 1 15 ≠ 0 then .ok s.trapOperand
  else if s.flushHeld (coreOf s.cur) then .ok (s.setMe (s.me.stall 11))
  else
    let s := s.flushCore (coreOf s.cur)
    let t : Tlbi :=
      { asid := rootAsid s.me.ptroot, page := if bitAt x 0 then none else some (fld x 16 41), thread := some (s.threadOf s.cur)
        drover := none, received := [] }
    .ok ({ s with tlbis := s.tlbis ++ [t] }.setMe s.me.adv)

/-- TLBI (R249). -/
def execTlbi (a : Fin 32) (s : State) : Host.Outcome State Fault Refusal :=
  finish (s.scalarStep (packS 0x7F 5 0 a.val 0) false true none fun s => s.tlbi a.val)

/-- Has every earlier TLBI of the thread of slot k been acknowledged (R249). -/
def State.tlbiDone (s : State) (k : Nat) : Bool := !s.tlbis.any fun t => t.thread == some (s.threadOf k)

/-- TLBS (R249). -/
def execTlbs (s : State) : Host.Outcome State Fault Refusal :=
  finish (s.scalarStep (packS 0x7F 6 0 0 0) false true none fun s =>
    .ok (s.setMe (if s.me.queue.isEmpty && s.tlbiDone s.cur then s.me.adv else s.me.stall 2)))

/-- TLBI_RECEIVE: a core receives the oldest invalidate that it has not received, once the accesses that it translated before
have performed (R214, R249). None when there is nothing to receive. -/
def State.tlbiReceive (s : State) (c : Nat) : Option State :=
  match s.tlbis.zipIdx.find? fun t => !t.1.received.contains c with
  | none => none
  | some (t, i) =>
    if s.inFlight c t.asid then none
    else some { s.dropTlb c t.asid t.page with tlbis := s.tlbis.set i { t with received := t.received ++ [c] } }

/-- TLBI_RECEIVE (R249). -/
def execTlbiReceive (core : Fin 64) (s : State) : Host.Outcome State Fault Refusal := .next ((s.tlbiReceive core.val).getD s)

/-- Has every core received an invalidate. -/
def Tlbi.everywhere (t : Tlbi) : Bool := (List.range 64).all fun c => t.received.contains c

/-- TLBI_ACKNOWLEDGE: the oldest invalidate of a thread that every core has received is acknowledged, once no agent beside the cores
has an access of its address space under way (R249). -/
def State.tlbiAck (s : State) : Option State :=
  match s.tlbis.zipIdx.find? fun t => t.1.drover.isNone && t.1.everywhere && !s.systemInFlight t.1.asid with
  | none => none
  | some (_, i) => some { s with tlbis := s.tlbis.eraseIdx i }

/-- TLBI_ACKNOWLEDGE (R249). -/
def execTlbiAcknowledge (s : State) : Host.Outcome State Fault Refusal := .next (s.tlbiAck.getD s)

/-! ### Descriptors and status words (R246) -/

/-- Codes of STATUS.RES (R246). -/
inductive MoveRes where
  | started | done | busy | refused | faulted
  deriving DecidableEq, Repr

/-- RES of R246. -/
def MoveRes.code : MoveRes → Nat
  | .started => 1 | .done => 2 | .busy => 3 | .refused => 4 | .faulted => 5

/-- Write STATUS and FVA of a descriptor in its address space (R246). Words that can no longer be reached stay as they are. -/
def State.report (s : State) (root desc : X64) (res : MoveRes) (count : Nat) (fva : X64) : Res State :=
  match s.post (schedAgent root postOwner) (toBytes 8 (count % 2 ^ 40 * 2 ^ 24 + res.code)) (desc + 0x10) with
  | .error e => .error e
  | .ok (s, _) =>
    match s.post (schedAgent root postOwner) (toBytes 8 fva.toNat) (desc + 0x18) with
    | .error e => .error e
    | .ok (s, _) => .ok s

/-- A free place of the drover. -/
def State.droverFree (s : State) : Option Nat := (List.range 4).find? fun i => (vat s.drover i none).isNone
/-- Put an operation, or none, into a place of the drover. -/
def State.setDrover (s : State) (i : Nat) (o : Option DroverOp) : State := { s with drover := s.drover.setIfInBounds i o }

/-- Read a descriptor at the slice: its first two words, then `go` (R247, R248). A fault is precise at the instruction. The read asks no
piece and matches no watchpoint, as an access of the drover [DEDUCED, log 120] (R321). -/
def State.withDesc (s : State) (va : X64) (go : State → X64 → X64 → Res State) : Res State :=
  let g := s.sliceAgent s.cur
  match s.loadBytes s.cur g true 32 8 va with
  | .error e => .error e
  | .ok (s, .trap code a) => .ok ((s.dropReqs g.owner).trapHere code 0 a)
  | .ok (t, .wait) => let u := t.unfollow s s.cur; .ok (u.setMe (u.me.stall 11))
  | .ok (s, .ok b) =>
    go (s.dropReqs g.owner) (BitVec.ofNat 64 (ofBytes (b.take 8))) (BitVec.ofNat 64 (ofBytes ((b.drop 8).take 8)))

/-! ### RELMOVE (R247) -/

/-- The 64 KiB leaf of a page in an address space: its entry and the entry's physical address; none where the walk faults or
reads a poisoned line. -/
def State.pageLeaf (s : State) (root va : X64) : Res (Option (X64 × Nat)) :=
  if !rootEn root || decide (2 ^ 57 ≤ va.toNat) then .ok none
  else
    if s.walkPoison 4 0 (rootTable root) va.toNat then .ok none
    else
      match s.walkFrom 4 0 (rootTable root) va.toNat with
      | .error e => .error e
      | .ok (some (3, e, pa)) => .ok (some (e, pa))
      | .ok _ => .ok none

/-- Does the walk for a page meet a table entry whose home slice holds requests (R337). -/
def State.pageHeld (s : State) (root va : X64) : Bool :=
  s.svc.offParts.any (fun u => u / 256 == 3) && s.walkHeld 4 0 (rootTable root) va.toNat

/-- May a page move: MOV 1, MST 00, X 0, POISON 0 (R247). -/
def pteMoves (e : X64) : Bool := pteMov e && pteMst e == 0 && !pteX e && !ptePoison e
/-- May a page be moved to: W, MST 00, REM 0, POISON 0 (R247). -/
def pteReceives (e : X64) : Bool := pteW e && pteMst e == 0 && !pteRem e && !ptePoison e
/-- Does the old or the new place of a move end in a hole of the physical address space (R32). -/
def Fwd.inHole (f : Fwd) : Bool := placeOf (f.old * 65536 + 65535) == .hole || placeOf (f.new * 65536 + 65535) == .hole

/-- Check the pages of a move in order: the forwardings of all, or the address that failed first (R247). -/
def State.checkPages (s : State) (root src dst : X64) (n op : Nat) : Nat → Nat → Res (Except X64 (List Fwd))
  | 0, _ => .ok (.ok [])
  | m + 1, i =>
    let sv := src + BitVec.ofNat 64 (i * 65536)
    let dv := dst + BitVec.ofNat 64 (i * 65536)
    match s.pageLeaf root sv with
    | .error e => .error e
    | .ok none => .ok (.error sv)
    | .ok (some (pe, ea)) =>
      if !pteMoves pe then .ok (.error sv)
      else
        match s.pageLeaf root dv with
        | .error e => .error e
        | .ok none => .ok (.error dv)
        | .ok (some (de, _)) =>
          if !pteReceives de then .ok (.error dv)
          else if src.toNat < dst.toNat + n * 65536 ∧ dst.toNat < src.toNat + n * 65536 then .ok (.error sv)
          else
            match s.checkPages root src dst n op m (i + 1) with
            | .error e => .error e
            | .ok (.error a) => .ok (.error a)
            | .ok (.ok t) =>
              let f : Fwd :=
                { old := pteAddr pe, new := pteAddr de, upto := 0, ahead := [], op := op, page := i, ea := ea
                  pte := setFld pe 12 2 1 }
              .ok (.ok (f :: t))

/-- Every page of a move turns moving and forwards from now on; no core keeps an old translation of it (R247). -/
def State.beginMove (s : State) (root src : X64) (fs : List Fwd) : State :=
  let s := fs.foldl (fun s f => (s.lockLine f.ea).writeHome f.ea (toBytes 8 f.pte.toNat)) s
  let s := fs.foldl (fun s f =>
    (List.range 64).foldl (fun s c => s.dropTlb c (rootAsid root) (some (fld src 16 41 + f.page))) s) s
  { s with fwds := s.fwds ++ fs }

/-- RELMOVE (R247). No check asks for pages in HBM [DEDUCED, log 88]. -/
def State.relmove (s : State) (d a : Nat) : Res State :=
  let s0 := s
  let desc := s.me.rx d
  let dst := s.me.rx a
  if desc.toNat % 32 ≠ 0 ∨ dst.toNat % 65536 ≠ 0 then .ok s.trapOperand
  else
    s.withDesc desc fun s src ctl =>
      if maskTo ctl [(0, 9), (16, 7)] ≠ ctl ∨ src.toNat % 65536 ≠ 0 then .ok s.trapOperand
      else
        let root := s.me.ptroot
        let go (r : Res State) : Res State :=
          match r with
          | .error e => .error e
          | .ok s => .ok (s.setMe s.me.adv)
        match s.droverFree with
        | none => go (s.report root desc .busy 0 0)
        | some op =>
          let held := s.flushHeld (coreOf s.cur)
          let s := s.flushCore (coreOf s.cur)
          let n := fld ctl 0 9 + 1
          let page (va : X64) (i : Nat) : X64 := va + BitVec.ofNat 64 (i * 65536)
          if held || (List.range n).any fun i => s.pageHeld root (page src i) || s.pageHeld root (page dst i) then
            let u := s.unfollow s0 s0.cur
            .ok (u.setMe (u.me.stall 11))
          else
          match s.checkPages root src dst n op n 0 with
          | .error e => .error e
          | .ok (.error a) => go (s.report root desc .refused 0 a)
          | .ok (.ok fs) =>
            if fs.any Fwd.inHole then .error .noSuchPhysicalAddress
            else
            let s := (s.beginMove root src fs).setDrover op (some (.move root desc src dst n (fld ctl 16 7) 0 0 none))
            go (s.report root desc .started 0 0)

/-- RELMOVE (R247). -/
def execRelmove (d a : Fin 32) (s : State) : Host.Outcome State Fault Refusal :=
  finish (s.scalarStep (packS 0x7F 8 d.val a.val 0) false true none fun s => s.relmove d.val a.val)

/-- The mark of a page that moved to a virtual address (R235). -/
def markOf (nva : X64) (mcls : Nat) : X64 :=
  BitVec.ofNat 64 (mcls % 128 * 2 ^ 57 + fld nva 16 41 * 65536 + 0x2003)

/-- The forwarding of page i of operation op. -/
def State.fwdFor (s : State) (op i : Nat) : Option Fwd := s.fwds.find? fun f => f.op == op && f.page == i

/-- Is every line of a page copied. -/
def Fwd.whole (f : Fwd) : Bool := (List.range 512).all fun i => decide (i < f.upto) || f.ahead.contains i

/-- The entry of a copied page turns into a mark by compare-and-swap; on failure the page forwards no longer (R242). The
second part says whether it did. -/
def State.installMark (s : State) (f : Fwd) (dst : X64) (mcls : Nat) : State × Bool :=
  let s := s.lockLine f.ea
  if ofBytes (s.readHome f.ea 8) = f.pte.toNat then
    (s.writeHome f.ea (toBytes 8 (markOf (dst + BitVec.ofNat 64 (f.page * 65536)) mcls).toNat), true)
  else ({ s with fwds := s.fwds.filter fun (g : Fwd) => !(g.op == f.op && g.page == f.page) }, false)

/-- The invalidations that end a move of n pages (R242). -/
def moveTlbis (root src : X64) (n op : Nat) : List Tlbi :=
  (List.range n).map fun i =>
    { asid := rootAsid root, page := some ((fld src 16 41 + i) % 2 ^ 41), thread := none, drover := some op, received := [] }

/-- DROVER_COPY_LINE: the next line of a move's current page is copied; after the last one the page is marked, and after the
last page the old translations are invalidated (R242). None when operation op copies nothing. -/
def State.copyNext (s : State) (op : Nat) : Option State :=
  match vat s.drover op none with
  | some (.move root desc src dst n mcls i marked failed) =>
    if n ≤ i then none
    else
      match s.fwdFor op i with
      | none => none
      | some f =>
        let line := (List.range 512).find? fun j => decide (f.upto ≤ j) && !f.ahead.contains j
        let held := match line with
          | some j => s.stackHeld (f.old * 65536 + 128 * j) || s.stackHeld (f.new * 65536 + 128 * j)
          | none => false
        let s := match line with
          | some j =>
            let w := s.forWrite (f.new * 65536 + 128 * j)
            w.1.moveLine f j w.2
          | none => s
        if held || s.stackHeld f.ea then none
        else
        match s.fwdFor op i with
        | none => none
        | some f =>
          if !f.whole then some s
          else
            let m := s.installMark f dst mcls
            let va := src + BitVec.ofNat 64 (i * 65536)
            let s := m.1.setDrover op (some (.move root desc src dst n mcls (i + 1) (marked + b2n m.2)
              (if m.2 then failed else some (failed.getD va))))
            some (if i + 1 = n then { s with tlbis := s.tlbis ++ moveTlbis root src n op } else s)
  | _ => none

/-- DROVER_COPY_LINE (R242). -/
def execDroverCopyLine (op : Fin 4) (s : State) : Host.Outcome State Fault Refusal := .next ((s.copyNext op.val).getD s)

/-- DROVER_INVALIDATE_ACK: every core has dropped the old translations; the old places forward no longer, and STATUS says DONE
or FAULTED (R242). -/
def State.moveDone (s : State) (op : Nat) : Option (Res State) :=
  match vat s.drover op none with
  | some (.move root desc _ _ n _ i marked failed) =>
    if i < n ∨ s.tlbis.any (fun t => t.drover == some op && (!t.everywhere || s.systemInFlight t.asid)) = true then none
    else
      let s := { s with
        fwds := s.fwds.filter fun (f : Fwd) => f.op != op, tlbis := s.tlbis.filter fun (t : Tlbi) => t.drover != some op }
      let s := s.setDrover op none
      some (match failed with
        | none => s.report root desc .done marked 0
        | some va => s.report root desc .faulted marked va)
  | _ => none

/-- DROVER_INVALIDATE_ACK (R242). -/
def execDroverInvalidateAck (op : Fin 4) (s : State) : Host.Outcome State Fault Refusal := orSame s (s.moveDone op.val)

/-! ### SWEEP (R248) -/

/-- SWEEP at the slice (R248). -/
def State.sweep (s : State) (d a : Nat) : Res State :=
  let desc := s.me.rx d
  let cls := (s.me.rx a).toNat
  if desc.toNat % 32 ≠ 0 ∨ 128 ≤ cls then .ok s.trapOperand
  else
    s.withDesc desc fun s start len =>
      if start.toNat % 8 ≠ 0 ∨ len.toNat % 8 ≠ 0 ∨ 2 ^ 40 < len.toNat then .ok s.trapOperand
      else
        let root := s.me.ptroot
        let go (r : Res State) : Res State :=
          match r with
          | .error e => .error e
          | .ok s => .ok (s.setMe s.me.adv)
        match s.droverFree with
        | none => go (s.report root desc .busy 0 0)
        | some op =>
          go ((s.setDrover op (some (.sweep root desc start (start + len) cls 0 false))).report root desc .started 0 0)

/-- SWEEP (R248). -/
def execSweep (d a : Fin 32) (s : State) : Host.Outcome State Fault Refusal :=
  finish (s.scalarStep (packS 0x7F 7 d.val a.val 0) false true none fun s => s.sweep d.val a.val)

/-- The mark on the page of an address, when there is one. -/
def State.markAt (s : State) (root va : X64) : Res (Option X64) :=
  match s.pageLeaf root va with
  | .error e => .error e
  | .ok (some (e, _)) => .ok (if pteMark e then some e else none)
  | .ok none => .ok none

/-- What a sweep writes for a word: the address up to two hops on, when its page carries a mark of the class; a third hop
leaves it (R248). -/
def State.swept (s : State) (root : X64) (cls : Nat) (w : X64) : Res (Option X64) := do
  match ← s.markAt root w with
  | none => .ok none
  | some e =>
    if pteMcls e ≠ cls then .ok none
    else
      let w1 := hopAddr e w
      match ← s.markAt root w1 with
      | none => .ok (some w1)
      | some e =>
        let w2 := hopAddr e w1
        match ← s.markAt root w2 with
        | none => .ok (some w2)
        | some _ => .ok none

/-- Does a walk that a sweep of word w needs meet a table entry whose home slice holds requests (R337). -/
def State.sweepHeld (s : State) (root w : X64) : Bool :=
  s.pageHeld root w ||
    match s.markAt root w with
    | .ok (some e) =>
      let w1 := hopAddr e w
      s.pageHeld root w1 || (match s.markAt root w1 with | .ok (some e) => s.pageHeld root (hopAddr e w1) | _ => false)
    | _ => false

/-- SWEEP_WORD: the drover examines the next word of a sweep (R248). None when operation op is no sweep or still waits for a
link. -/
def State.sweepWord (s : State) (op : Nat) : Option (Res State) :=
  match vat s.drover op none with
  | some (.sweep root desc p stop cls count again) =>
    let g := schedAgent root (droverOwner op)
    let ended (s : State) (res : MoveRes) (fva : X64) : Res State :=
      ((s.dropReqs g.owner).setDrover op none).report root desc res count fva
    let on (s : State) (count : Nat) : Res State :=
      .ok ((s.dropReqs g.owner).setDrover op (some (.sweep root desc (p + 8) stop cls count false)))
    if p = stop then some (ended s .done 0)
    else
      match s.peek g true 8 8 p with
      | .error e => some (.error e)
      | .ok (s1, .trap _ _) => some (ended s1 .faulted p)
      | .ok (s1, .wait) => if s1.reqs = s.reqs then none else some (.ok s1)
      | .ok (s1, .ok b) =>
        let w : X64 := BitVec.ofNat 64 (ofBytes b)
        if s1.sweepHeld root w then none
        else
        match s1.swept root cls w with
        | .error e => some (.error e)
        | .ok none => some (on s1 count)
        | .ok (some w') =>
          match s1.translate 64 root true .write 8 p with
          | .error e => some (.error e)
          | .ok (s2, .fail _ _) => some (ended s2 .faulted p)
          | .ok (s2, .ok t fva _ _) =>
            match s2.updateAt g t 8 (fun old => if old = w.toNat then some w'.toNat else none)
                { opc := 7, atype := Ty.n64.code.val, arm := 0, draw := 0 } (toBytes 8 w.toNat ++ toBytes 8 w'.toNat) fva with
            | .error e => some (.error e)
            | .ok (s3, .trap _ _) => some (ended s3 .faulted p)
            | .ok (s3, .wait) => if s3.reqs = s.reqs then none else some (.ok s3)
            | .ok (s3, .ok old) =>
              if old = w.toNat then some (on s3 (count + 1))
              else if again then some (on s3 count)
              else some (.ok ((s3.dropReqs g.owner).setDrover op (some (.sweep root desc p stop cls count true))))
  | _ => none

/-- SWEEP_WORD (R248). -/
def execSweepWord (op : Fin 4) (s : State) : Host.Outcome State Fault Refusal := orSame s (s.sweepWord op.val)

end Sys2Proof.Machine
end

