-- ==== Sys2Proof/Machine/Queue.lean ====
section
/-! DEFINITION. The hardware queues (R266 to R271, R276, R277): their registers, packets, context records, kernel objects and
the acceptance of a launch. -/

namespace Sys2Proof.Machine

/-! ### Registers (R266) -/

/-- SIZE: the ring holds 64 << SIZE packets. -/
def Hq.ring (q : Hq) : Nat := 64 * 2 ^ fld q.base 0 4
/-- The state of an enabled queue whose head is about to be looked at (R270). -/
def Hq.ready (q : Hq) : Hq := { q with st := if q.head = q.tail then .idle else .active, err := 0, pkt := [], memWait := false }
/-- HQCFG.EN := 1 (R270). -/
def Hq.enable (q : Hq) : Hq := if q.en then q else q.ready
/-- HQCFG.EN := 0 (R270). -/
def Hq.disable (q : Hq) : Hq := { q with st := .disabled, err := 0, pkt := [], memWait := false }
/-- RESUME: a FAULTED queue reads its head again (R270). -/
def Hq.resume (q : Hq) : Hq := if q.st = .faulted then { q with st := .active, err := 0 } else q
/-- SKIP: a FAULTED queue goes past its head (R270). -/
def Hq.skip (q : Hq) : Hq := if q.st = .faulted then { q with st := .active, err := 0, head := q.head + 1 } else q

/-- The doorbell: TAIL, and an IDLE queue with packets turns ACTIVE while the scheduler runs (R267, R270, R322). -/
def State.doorbell (s : State) (n : Nat) (tail : BitVec 32) : State :=
  s.modHq n fun q =>
    { q with tail := tail, st := if q.st = .idle ∧ q.head ≠ tail ∧ s.halted = false then .active else q.st }

/-- Is the effect of the head of queue n on its way: the WRITE of a WRITE-WORD over a link. -/
def State.headOpen (s : State) (n : Nat) : Bool := s.reqs.any fun r => r.owner == queueOwner n && r.kind == 1

/-- Disable a queue: it stops at the next packet boundary, so a packet whose effect is on its way completes (R270); what else it asked
of a link is forgotten. -/
def State.disableQueue (s : State) (n : Nat) : State :=
  if s.headOpen n then s.modHq n fun q => { q with st := .disabled, err := 0 } else (s.dropReqs (queueOwner n)).modHq n Hq.disable

/-- Enable a queue (R270). -/
def State.enableQueue (s : State) (n : Nat) : State :=
  if (s.hqAt n).en = false ∧ s.headOpen n = true then s.modHq n fun q => { q with st := .active } else s.modHq n Hq.enable

/-- Write a register of the queue window (R266): reserved and read-only fields keep their values. Of SKIP and RESUME written together
SKIP acts [DESIGN CHOICE, log 110]. -/
def State.setQueueReg (s : State) (off : Nat) (v : X64) : State :=
  let n := off / 64
  match off % 64 with
  | 0x00 => s.modHq n fun q => { q with base := maskTo v [(12, 45)] + BitVec.ofNat 64 (min 10 (fld v 0 4)) }
  | 0x08 => s.modHq n fun q => { q with root := maskTo v [(52, 12), (16, 36), (0, 1)] }
  | 0x10 =>
    let s := s.modHq n fun q => { q with vec := BitVec.ofNat 8 (fld v 8 8), prio := BitVec.ofNat 3 (fld v 0 3) }
    if bitAt v 3 then s.enableQueue n else if (s.hqAt n).en then s.disableQueue n else s
  | 0x20 => s.doorbell n (v.setWidth 32)
  | 0x30 => if bitAt v 1 then s.modHq n Hq.skip else if bitAt v 0 then s.modHq n Hq.resume else s
  | _ => s

/-- HQTAIL_DOORBELL (R267). -/
def execHqtailDoorbell (n : Fin 64) (tail : BitVec 32) (s : State) : Host.Outcome State Fault Refusal := .next (s.doorbell n.val tail)
/-- HQCTL_RESUME (R270). -/
def execHqctlResume (n : Fin 64) (s : State) : Host.Outcome State Fault Refusal := .next (s.modHq n.val Hq.resume)
/-- HQCTL_SKIP (R270). -/
def execHqctlSkip (n : Fin 64) (s : State) : Host.Outcome State Fault Refusal := .next (s.modHq n.val Hq.skip)
/-- HQCFG_ENABLE (R270). -/
def execHqcfgEnable (n : Fin 64) (s : State) : Host.Outcome State Fault Refusal := .next (s.enableQueue n.val)
/-- HQCFG_DISABLE (R270). -/
def execHqcfgDisable (n : Fin 64) (s : State) : Host.Outcome State Fault Refusal :=
  .next (if (s.hqAt n.val).en then s.disableQueue n.val else s)

/-! ### Packets (R268, R269) -/

/-- TYPE of a packet (R268). -/
inductive PacketType where
  | launch | waitWord | writeWord | marker
  deriving DecidableEq, Repr

/-- A packet's type: none when it is not 1 to 4. -/
def packetType (h : X64) : Option PacketType :=
  match fld h 0 8 with
  | 1 => some .launch
  | 2 => some .waitWord
  | 3 => some .writeWord
  | 4 => some .marker
  | _ => none

/-- The words of a packet whose value is given: none reserved. -/
def PacketType.used : PacketType → Nat
  | .launch => 5 | .waitWord => 4 | .writeWord => 4 | .marker => 1
/-- The word that holds the scope. -/
def PacketType.scopeWord : PacketType → Option Nat
  | .launch => some 4 | .waitWord => some 3 | .writeWord => some 3 | .marker => none

/-- Steps 2 to 4 of R269 on the eight words of a packet: its type, or the ERR code. Step 4 is a LAUNCH's alone. -/
def checkPacket (w : List X64) : Except Nat PacketType :=
  let at_ (i : Nat) : X64 := w.getD i 0
  match packetType (at_ 0) with
  | none => .error 1
  | some t =>
    if fld (at_ 0) 10 22 ≠ 0 ∨ (w.drop t.used).any (fun x => x != 0) = true ∨
        (match t.scopeWord with | some i => decide (4 < (at_ i).toNat) | none => false) = true then .error 2
    else if t = .launch ∧ ((at_ 1).toNat % 256 ≠ 0 ∨ (at_ 2).toNat % 256 ≠ 0 ∨ (at_ 3).toNat % 8 ≠ 0) then .error 3
    else .ok t

/-- The 64-bit words of some bytes. -/
def wordsOf (b : List Byte) : List X64 := (List.range (b.length / 8)).map fun i => BitVec.ofNat 64 (ofBytes ((b.drop (8 * i)).take 8))

/-- The scheduler acting for queue n. -/
def State.queueAgent (s : State) (n : Nat) : Agent := schedAgent (s.hqAt n).root (queueOwner n)

/-- A queue faults: HEAD stays, ERR is set and the error ring gets a record (R270, R339). A queue disabled meanwhile stays
DISABLED. -/
def State.faultQueue (s : State) (n err : Nat) : State :=
  ((s.dropReqs (queueOwner n)).modHq n fun q =>
    if q.en then { q with st := .faulted, err := BitVec.ofNat 8 err, pkt := [], memWait := false } else q.disable).addRecord 6 n 0
      (BitVec.ofNat 64 err)

/-- The head waits, for memory or not (R270). -/
def State.blockQueue (s : State) (n : Nat) (w : List X64) (mem : Bool) : State :=
  (s.dropReqs (queueOwner n)).modHq n fun q => { q with st := .blocked, pkt := w, memWait := mem }

/-- The head's wait ends, and the queue is ACTIVE (R270). -/
def State.unblock (s : State) (n : Nat) : State :=
  s.modHq n fun q => { q with st := if q.st = .blocked then .active else q.st, memWait := false }

/-- The head packet is done: HEAD advances, and a packet with its effect complete signals its vector when it asks (R268). -/
def State.passHead (s : State) (n : Nat) (irq : Bool) : State :=
  let s := (s.dropReqs (queueOwner n)).modHq n fun q =>
    let q := { q with head := q.head + 1 }
    if q.en then q.ready else q.disable
  if irq then s.signal n else s

/-- Virtual address of ring index i of a queue. -/
def Hq.slotAddr (q : Hq) (i : BitVec 32) : X64 := maskTo q.base [(12, 45)] + BitVec.ofNat 64 (64 * (i.toNat % q.ring))

/-! ### The context record and the kernel object (R271, R276, R277) -/

/-- The checks of a kernel object after its read: resv and FORMAT, CODE alignment, then the limits of R276 and R272. The bytes of WIDTH and
RES0 that R276 has zero count as resv [DEDUCED, log 111]. -/
def checkObject (o : List X64) : Option Nat :=
  let at_ (i : Nat) : X64 := o.getD i 0
  let r0 := at_ 11
  let r1 := at_ 12
  let lg := fld r0 0 6
  let lt := fld r1 0 32
  let lgp := fld r1 32 32
  let ws := (List.range 6).map fun i => fld (at_ 4) (8 * i) 8
  let ns := (List.range 6).map fun i => (at_ (5 + i)).toNat
  let len := (at_ 2).toNat
  if at_ 0 ≠ 1 ∨ (o.drop 13).any (fun x => x != 0) = true ∨ fld (at_ 4) 48 16 ≠ 0 ∨ maskTo r0 [(0, 6), (8, 5), (16, 6)] ≠ r0 then some 2
  else if (at_ 1).toNat % 256 ≠ 0 then some 3
  else if !(([1, 2, 4, 8, 16, 32].contains lg) && decide (fld r0 8 5 ≤ 16) && decide (fld r0 16 6 ≤ 32) &&
      decide (lt % 256 = 0) && decide (lgp % 256 = 0) && decide (len % 4 = 0) && decide (4 ≤ len) && decide (len ≤ 2 ^ 24) &&
      decide ((at_ 3).toNat % 4 = 0) && decide ((at_ 3).toNat < len) && decide (ws.foldl (· + ·) 0 ≤ 64) &&
      (ns.zip ws).all (fun p => decide (1 ≤ p.1) && decide (p.1 ≤ 2 ^ p.2)) &&
      decide ((ns.drop 1).foldl (· * ·) 1 ≤ 2 ^ 48) && decide (ns.headD 0 ≤ 4 * min 16 (32 / lg)) &&
      decide (ns.headD 0 * lt + lgp ≤ 33554432)) then some 5
  else none

/-- The context of an accepted launch (R271, R276, R278). -/
def newCtx (s : State) (n : Nat) (w : List X64) (r o : List X64) : Ctx :=
  let at_ (i : Nat) : X64 := o.getD i 0
  { crec := w.getD 2 0, hqroot := (s.hqAt n).root, hq := n, prio := (s.hqAt n).prio.toNat, age := s.nextCtx, st := .free
    ptroot := maskTo (r.getD 1 0) [(52, 12), (16, 36), (0, 1)], tvec := r.getD 2 0 &&& ~~~3#64, cimg := r.getD 3 0 &&& ~~~255#64
    ctxid := maskTo (r.getD 4 0) [(40, 8), (32, 1), (0, 32)], pack := bitAt (r.getD 5 0) 0
    code := at_ 1, codelen := (at_ 2).toNat, entry := (at_ 3).toNat
    widths := (List.range 6).map fun i => fld (at_ 4) (8 * i) 8, counts := (List.range 6).map fun i => (at_ (5 + i)).toNat
    lgwish := fld (at_ 11) 0 6, qcnt := fld (at_ 11) 8 5, agrp := fld (at_ 11) 16 6, loftt := fld (at_ 12) 0 32
    loftg := fld (at_ 12) 32 32, cwaddr := w.getD 3 0, cwscope := (w.getD 4 0).toNat, irq := bitAt (w.getD 0 0) 9
    codeMem := [], groups := [], nextGroup := 0, waits := none, word := none, endedGroups := 0, flags := FlagWord.reset, faultCode := 0 }

/-- A launch is accepted: the record moves to LOADING, OPEN grows and HEAD advances (R269, R279). An ENDED context whose record
software has freed is forgotten (R250). -/
def State.accept (s : State) (n : Nat) (c : Ctx) : State :=
  let s := { s with ctxs := s.ctxs.filter (fun (p : Nat × Ctx) => !(p.2.crec == c.crec && p.2.st == CtxState.ended)) ++ [(s.nextCtx, c)], nextCtx := s.nextCtx + 1 }
  let s := (s.setCtxSt (s.nextCtx - 1) .loading).modHq n fun q => { q with opn := q.opn + 1 }
  s.passHead n false

/-- Go on with what the scheduler read for queue n: a fault gives ERR 4. None while an answer is awaited. -/
def State.queueRead {α : Type} (s : State) (n : Nat) (r : Res (State × Got α)) (go : State → α → Option (Res State)) :
    Option (Res State) :=
  match r with
  | .error e => some (.error e)
  | .ok (s', .ok v) => go s' v
  | .ok (s', .trap _ _) => some (.ok (s'.faultQueue n 4))
  | .ok (s', .wait) => if s'.reqs = s.reqs then none else some (.ok s')

/-- Go on unless nothing changes: a queue that is BLOCKED already stays so. -/
def State.blockOn (s : State) (n : Nat) (w : List X64) (mem : Bool) : Option (Res State) :=
  let q := s.hqAt n
  if q.st = .blocked ∧ q.memWait = mem ∧ (s.reqs.any fun r => r.owner == queueOwner n) = false then none
  else some (.ok (s.blockQueue n w mem))

/-- The end of a wait stands although the head's next access waits: what r asks changes nothing, and queue n is ACTIVE in u (R270). -/
def State.orUnblocked (s u : State) (n : Nat) (r : Option (Res State)) : Option (Res State) :=
  if r.isNone ∧ (s.hqAt n).st = .blocked ∧ (u.hqAt n).st ≠ .blocked then some (.ok u) else r

/-- Steps 7 and 8 of R269 for a LAUNCH. The kernel object is read under the record's PTROOT, as R276 has it, and not under HQROOT as
R266 and R269 have it [DEDUCED, log 103]. -/
def State.launchPacket (s : State) (n : Nat) (w : List X64) : Option (Res State) :=
    s.queueRead n (s.peek (s.queueAgent n) false 48 8 (w.getD 2 0)) fun s b =>
      let r := wordsOf b
      if fld (r.getD 0 0) 0 4 ≠ 0 then s.blockOn n w true
      else
        let u := s.unblock n
        let root := maskTo (r.getD 1 0) [(52, 12), (16, 36), (0, 1)]
        s.orUnblocked u n (u.queueRead n (u.peekRange (schedAgent root (queueOwner n)) false 128 2 (w.getD 1 0)) fun s b =>
          let o := wordsOf b
          match checkObject o with
          | some err => some (.ok (s.faultQueue n err))
          | none => some (.ok (s.accept n (newCtx s n w r o))))

/-- WAIT-WORD (R269): the word at its home slice, with acquire. -/
def State.waitPacket (s : State) (n : Nat) (w : List X64) : Option (Res State) :=
  if (w.getD 1 0).toNat % 8 ≠ 0 then some (.ok (s.faultQueue n 3))
  else s.queueRead n (s.peek (s.queueAgent n) false 8 8 (w.getD 1 0)) fun s b =>
    if (w.getD 2 0).toNat ≤ ofBytes b then some (.ok (s.passHead n (bitAt (w.getD 0 0) 9))) else s.blockOn n w true

/-- WRITE-WORD (R269). A launch completes once its word has performed (R268, R337), so the release waits for none of them. -/
def State.writePacket (s : State) (n : Nat) (w : List X64) : Option (Res State) :=
  if (w.getD 1 0).toNat % 8 ≠ 0 then some (.ok (s.faultQueue n 3))
  else
    match s.poke (s.queueAgent n) false (toBytes 8 (w.getD 2 0).toNat) 8 (w.getD 1 0) with
    | .ok (s', .wait) => if s'.reqs = s.reqs then none else some (.ok (s'.modHq n fun q => { q with pkt := w }))
    | r => s.queueRead n r fun s _ => some (.ok (s.passHead n (bitAt (w.getD 0 0) 9)))

/-- MARKER (R269). -/
def State.markerPacket (s : State) (n : Nat) (w : List X64) : State :=
  (s.modHq n fun q => { q with mark := BitVec.ofNat 32 (fld (w.getD 0 0) 32 32) }).passHead n (bitAt (w.getD 0 0) 9)

/-- Steps 5 on of R269 for a packet of the type asked about: once nothing holds it but memory, a queue that was BLOCKED for
launches is ACTIVE (R270). -/
def State.headPacket (s : State) (n : Nat) (want : PacketType) (t : PacketType) (w : List X64) : Option (Res State) :=
  let q := s.hqAt n
  if t ≠ want then none
  else if (bitAt (w.getD 0 0) 8 && decide (q.opn ≠ 0)) || (t == .launch && decide (16 ≤ q.opn)) then s.blockOn n w false
  else
    let u := if q.memWait then s else s.unblock n
    s.orUnblocked u n (match t with
      | .launch => u.launchPacket n w
      | .waitWord => u.waitPacket n w
      | .writeWord => u.writePacket n w
      | .marker => some (.ok (u.markerPacket n w)))

/-- The scheduler looks at the head of queue n, a packet of the type asked about or one that is malformed (R267, R269, R270).
None when it has nothing to do there, while the device is halted (R322), before the boot has enabled the queues and in
RECOVERY (R334), and while the system-core firmware is drained (R337). An ACTIVE queue without packets turns IDLE (R270); a
packet whose effect is on its way completes whatever the queue's state. -/
def State.packet (s : State) (n : Nat) (want : PacketType) : Option (Res State) :=
  let q := s.hqAt n
  if s.halted ∨ s.svc.boot ≠ 4 ∨ s.schedOff = true ∨ (q.en = false ∧ s.headOpen n = false) ∨ q.st = .faulted then none
  else if q.head = q.tail ∧ s.headOpen n = false then
    (if q.st = .active then some (.ok (s.modHq n fun q => { q with st := .idle, pkt := [] })) else none)
  else if q.ring < (q.tail - q.head).toNat ∧ s.headOpen n = false then some (.ok (s.faultQueue n 6))
  else
    let judge (s : State) (w : List X64) : Option (Res State) :=
      match checkPacket w with
      | .error err => some (.ok (s.faultQueue n err))
      | .ok t => s.headPacket n want t w
    if q.pkt.isEmpty then
      s.queueRead n (s.peek (s.queueAgent n) false 64 64 (q.slotAddr q.head)) fun s b => judge s (wordsOf b)
    else judge s q.pkt

/-- PACKET_LAUNCH (R269). -/
def execPacketLaunch (n : Fin 64) (s : State) : Host.Outcome State Fault Refusal := orSame s (s.packet n.val .launch)
/-- PACKET_WAIT_WORD (R269). -/
def execPacketWaitWord (n : Fin 64) (s : State) : Host.Outcome State Fault Refusal := orSame s (s.packet n.val .waitWord)
/-- PACKET_WRITE_WORD (R269). -/
def execPacketWriteWord (n : Fin 64) (s : State) : Host.Outcome State Fault Refusal := orSame s (s.packet n.val .writeWord)
/-- PACKET_MARKER (R269). -/
def execPacketMarker (n : Fin 64) (s : State) : Host.Outcome State Fault Refusal := orSame s (s.packet n.val .marker)
/-- WAIT_WORD_REREAD: a BLOCKED WAIT-WORD reads its word again (R269). -/
def execWaitWordReread (n : Fin 64) (s : State) : Host.Outcome State Fault Refusal :=
  if (s.hqAt n.val).st = .blocked then orSame s (s.packet n.val .waitWord) else .next s

end Sys2Proof.Machine
end

