-- ==== Sys2Proof/Machine/Scalar.lean ====
section
/-! DEFINITION. Scalar loads and stores (R221), atomics (R222 to R224) and FENCE (R230, R231) at the slice. -/

namespace Sys2Proof.Machine

/-- What a scalar access comes to at the slice: it goes on with the result, traps at the instruction, or stalls with CAUSE 11
(R86, R221). -/
def State.settleAt {α : Type} (s : State) (kind : Nat) (r : Res (State × Got α)) (go : State → α → State) : Res State :=
  let g := s.sliceAgent s.cur
  match r with
  | .error e => .error e
  | .ok (t, .ok v) => .ok (go (t.dropReqs g.owner) v)
  | .ok (t, .trap code a) => .ok (((t.setMe s.me).dropReqs g.owner).trapHere code kind a)
  | .ok (t, .wait) => .ok ((t.unfollow s s.cur).setMe (s.me.stall 11))

/-- A load of n bytes into x[d], sign- or zero-extended (R221). -/
def State.lds (s : State) (n : Nat) (signed : Bool) (d a b : Nat) : Res State :=
  let g := s.sliceAgent s.cur
  s.settleAt 0
    (thenA (s.accessAt s.cur g .read n (s.me.rx a + s.me.rx b) (some a)) fun s p =>
      thenA (s.readAt g true p.1 n p.2) fun s v => .ok (s, .ok (v, p.2, s.l1Hit (coreOf s.cur) p.1 n)))
    fun s r =>
      let v := ofBytes r.1
      ((s.putX d (if signed then sext64 (8 * n) v else BitVec.ofNat 64 v)).scalarPieces s.cur n r.2.2).watch s.cur true false r.2.1.toNat n

/-- A store of the low n bytes of x[d] (R221). -/
def State.sts (s : State) (n : Nat) (d a b : Nat) : Res State :=
  let g := s.sliceAgent s.cur
  let v := toBytes n (s.me.rx d).toNat
  s.settleAt 1
    (thenA (s.accessAt s.cur g .write n (s.me.rx a + s.me.rx b) (some a)) fun s p =>
      let hit := s.l1Hit (coreOf s.cur) p.1 n
      thenA (s.writeAt g true p.1 v p.2) fun s _ => .ok (s, .ok (p.2, hit)))
    fun s r => ((s.setMe s.me.adv).scalarPieces s.cur n r.2).watch s.cur false true r.1.toNat n

/-- LDS_B (R221). -/
def execLdsB (d a b : Fin 32) (s : State) : Host.Outcome State Fault Refusal :=
  finish (s.scalarStep (packM 0x62 0 d.val a.val b.val 0 0) false false none fun s => s.lds 1 true d.val a.val b.val)
/-- LDS_H (R221). -/
def execLdsH (d a b : Fin 32) (s : State) : Host.Outcome State Fault Refusal :=
  finish (s.scalarStep (packM 0x62 0 d.val a.val b.val 0 1) false false none fun s => s.lds 2 true d.val a.val b.val)
/-- LDS_W (R221). -/
def execLdsW (d a b : Fin 32) (s : State) : Host.Outcome State Fault Refusal :=
  finish (s.scalarStep (packM 0x62 0 d.val a.val b.val 0 2) false false none fun s => s.lds 4 true d.val a.val b.val)
/-- LDS_D (R221). -/
def execLdsD (d a b : Fin 32) (s : State) : Host.Outcome State Fault Refusal :=
  finish (s.scalarStep (packM 0x62 0 d.val a.val b.val 0 3) false false none fun s => s.lds 8 true d.val a.val b.val)
/-- LDS_BZ (R221). -/
def execLdsBz (d a b : Fin 32) (s : State) : Host.Outcome State Fault Refusal :=
  finish (s.scalarStep (packM 0x62 0 d.val a.val b.val 0 4) false false none fun s => s.lds 1 false d.val a.val b.val)
/-- LDS_HZ (R221). -/
def execLdsHz (d a b : Fin 32) (s : State) : Host.Outcome State Fault Refusal :=
  finish (s.scalarStep (packM 0x62 0 d.val a.val b.val 0 5) false false none fun s => s.lds 2 false d.val a.val b.val)
/-- LDS_WZ (R221). -/
def execLdsWz (d a b : Fin 32) (s : State) : Host.Outcome State Fault Refusal :=
  finish (s.scalarStep (packM 0x62 0 d.val a.val b.val 0 6) false false none fun s => s.lds 4 false d.val a.val b.val)
/-- STS_B (R221). -/
def execStsB (d a b : Fin 32) (s : State) : Host.Outcome State Fault Refusal :=
  finish (s.scalarStep (packM 0x63 0 d.val a.val b.val 0 0) false false none fun s => s.sts 1 d.val a.val b.val)
/-- STS_H (R221). -/
def execStsH (d a b : Fin 32) (s : State) : Host.Outcome State Fault Refusal :=
  finish (s.scalarStep (packM 0x63 0 d.val a.val b.val 0 1) false false none fun s => s.sts 2 d.val a.val b.val)
/-- STS_W (R221). -/
def execStsW (d a b : Fin 32) (s : State) : Host.Outcome State Fault Refusal :=
  finish (s.scalarStep (packM 0x63 0 d.val a.val b.val 0 2) false false none fun s => s.sts 4 d.val a.val b.val)
/-- STS_D (R221). -/
def execStsD (d a b : Fin 32) (s : State) : Host.Outcome State Fault Refusal :=
  finish (s.scalarStep (packM 0x63 0 d.val a.val b.val 0 3) false false none fun s => s.sts 8 d.val a.val b.val)

/-! ### Atomics -/

/-- The operations of AMO, by SEL (R222). -/
inductive AmoOp where
  | add | min | max | and | or | xor | swap
  deriving DecidableEq, Repr

/-- SEL of R222, which is also OPC of R301. -/
def AmoOp.sel : AmoOp → Nat
  | .add => 0 | .min => 1 | .max => 2 | .and => 3 | .or => 4 | .xor => 5 | .swap => 6

/-- The new value of an AMO (R222). -/
def AmoOp.apply (o : AmoOp) (t : Ty) (old v : Nat) : Nat :=
  match o with
  | .add => (old + v) % 2 ^ t.bits
  | .min => if intVal t v < intVal t old then v else old
  | .max => if intVal t old < intVal t v then v else old
  | .and => old &&& v
  | .or => old ||| v
  | .xor => old ^^^ v
  | .swap => v

/-- Has every earlier vector access and writeback that an atomic releases performed (R222, R230, R310). The accesses that a
frozen queue still holds are not waited for [DESIGN CHOICE, log 118]. -/
def Slot.released (sl : Slot) : Bool := (sl.tr.froz || !sl.queue.any Entry.memory) && sl.writtenBack

/-- An atomic of n bytes at x[a] (R222 to R224): the release first, then one indivisible update, then x[d]. An operation that the host does
not carry is ATOMIC-NOT-CARRIED before a scope below SYSTEM is an illegal operand [DESIGN CHOICE, log 117]. -/
def State.atomicAt (s : State) (sc : Scope) (d a : Nat) (t : Ty) (host : Bool) (f : Nat → Option Nat) (args : AtomArgs)
    (data : List Byte) : Res State :=
  let g := s.sliceAgent s.cur
  let n := t.bits / 8
  s.settleAt 2
    (thenA (s.accessAt s.cur g (.atomic host) n (s.me.rx a) (some a)) fun u p =>
      let far := match p.1 with | .far .. => true | q => q.onHost
      if far && sc != .system then .ok (u, .ok none)
      else if !u.me.released || u.flushHeld (coreOf u.cur) then .ok (u, .wait)
      else
        let u := u.flushCore (coreOf u.cur)
        thenA (u.updateAt g p.1 n f args data p.2) fun u old => .ok (u, .ok (some (old, p.2))))
    fun u r =>
      match r with
      | none => (u.setMe s.me).trapOperand
      | some (old, va) => ((u.putX d (extendInt t old)).addPieces u.cur n).watch u.cur true true va.toNat n

/-- The operations that PCI Express AtomicOps provide beside CAS (R224, R332). -/
def AmoOp.hosted : AmoOp → Bool
  | .add => true
  | .swap => true
  | _ => false

/-- AMO (R222). -/
def State.amo (s : State) (o : AmoOp) (sc : Scope) (d a b : Nat) (t : Ty) : Res State :=
  let v := (s.me.rx b).toNat % 2 ^ t.bits
  s.atomicAt sc d a t o.hosted (fun old => some (o.apply t old v)) { opc := o.sel, atype := t.code.val, arm := 0, draw := 0 }
    (toBytes (t.bits / 8) v)

/-- The type check of an atomic (R222). -/
def atomicType (t : Ty) : Option DecodeTrap := if t.isAtomic then none else some .illegalType

/-- AMO_ADD (R222). -/
def execAmoAdd (sc : Scope) (d a b : Fin 32) (t : Ty) (s : State) : Host.Outcome State Fault Refusal :=
  finish (s.scalarStep (packM 0x64 sc.code.val d.val a.val b.val t.code.val 0) false false (atomicType t) fun s =>
    s.amo .add sc d.val a.val b.val t)
/-- AMO_MIN (R222). -/
def execAmoMin (sc : Scope) (d a b : Fin 32) (t : Ty) (s : State) : Host.Outcome State Fault Refusal :=
  finish (s.scalarStep (packM 0x64 sc.code.val d.val a.val b.val t.code.val 1) false false (atomicType t) fun s =>
    s.amo .min sc d.val a.val b.val t)
/-- AMO_MAX (R222). -/
def execAmoMax (sc : Scope) (d a b : Fin 32) (t : Ty) (s : State) : Host.Outcome State Fault Refusal :=
  finish (s.scalarStep (packM 0x64 sc.code.val d.val a.val b.val t.code.val 2) false false (atomicType t) fun s =>
    s.amo .max sc d.val a.val b.val t)
/-- AMO_AND (R222). -/
def execAmoAnd (sc : Scope) (d a b : Fin 32) (t : Ty) (s : State) : Host.Outcome State Fault Refusal :=
  finish (s.scalarStep (packM 0x64 sc.code.val d.val a.val b.val t.code.val 3) false false (atomicType t) fun s =>
    s.amo .and sc d.val a.val b.val t)
/-- AMO_OR (R222). -/
def execAmoOr (sc : Scope) (d a b : Fin 32) (t : Ty) (s : State) : Host.Outcome State Fault Refusal :=
  finish (s.scalarStep (packM 0x64 sc.code.val d.val a.val b.val t.code.val 4) false false (atomicType t) fun s =>
    s.amo .or sc d.val a.val b.val t)
/-- AMO_XOR (R222). -/
def execAmoXor (sc : Scope) (d a b : Fin 32) (t : Ty) (s : State) : Host.Outcome State Fault Refusal :=
  finish (s.scalarStep (packM 0x64 sc.code.val d.val a.val b.val t.code.val 5) false false (atomicType t) fun s =>
    s.amo .xor sc d.val a.val b.val t)
/-- AMO_SWAP (R222). -/
def execAmoSwap (sc : Scope) (d a b : Fin 32) (t : Ty) (s : State) : Host.Outcome State Fault Refusal :=
  finish (s.scalarStep (packM 0x64 sc.code.val d.val a.val b.val t.code.val 6) false false (atomicType t) fun s =>
    s.amo .swap sc d.val a.val b.val t)
/-- CAS (R223). -/
def execCas (sc : Scope) (d a b : Fin 32) (t : Ty) (s : State) : Host.Outcome State Fault Refusal :=
  finish (s.scalarStep (packM 0x65 sc.code.val d.val a.val b.val t.code.val 0) false false (atomicType t) fun s =>
    let w := t.bits
    let want := (s.me.rx d.val).toNat % 2 ^ w
    let new := (s.me.rx b.val).toNat % 2 ^ w
    s.atomicAt sc d.val a.val t true (fun old => if old = want then some new else none)
      { opc := 7, atype := t.code.val, arm := 0, draw := 0 } (toBytes (w / 8) want ++ toBytes (w / 8) new))

/-! ### FENCE (R231) -/

/-- FENCE.SV: dirty scalar bytes are written back and a marker is pushed; the slice does not stall. -/
def execFenceSv (sc : Scope) (s : State) : Host.Outcome State Fault Refusal :=
  let w := packM 0x66 sc.code.val 0 0 0 0 0
  finish (s.queueStep w false fun s => s.entering w fun s =>
    let s := s.flushCore (coreOf s.cur)
    .ok (s.setMe (s.me.push (s.me.markerOf .marker w)).adv))
/-- FENCE.VS: the slice stalls, CAUSE 2, until every earlier entry has retired. -/
def execFenceVs (sc : Scope) (s : State) : Host.Outcome State Fault Refusal :=
  let w := packM 0x66 sc.code.val 0 0 0 0 1
  finish (s.queueStep w false fun s =>
    if !s.me.tr.vu then .ok (s.trapWord .vectorUnavailable w)
    else if s.me.tr.froz then .ok s.trapOperand
    else .ok (s.setMe (if s.me.queue.isEmpty then s.me.adv else s.me.stall 2)))
/-- FENCE.VV: a marker is pushed, which later requests and fills wait for. -/
def execFenceVv (sc : Scope) (s : State) : Host.Outcome State Fault Refusal :=
  let w := packM 0x66 sc.code.val 0 0 0 0 2
  finish (s.queueStep w false fun s => s.entering w fun s =>
    .ok (s.setMe (s.me.push (s.me.markerOf .marker w)).adv))
/-- FENCE.ALL: all of these; the slice stalls, CAUSE 2, until its marker has retired. -/
def execFenceAll (sc : Scope) (s : State) : Host.Outcome State Fault Refusal :=
  let w := packM 0x66 sc.code.val 0 0 0 0 3
  finish (s.queueStep w false fun s =>
    match s.me.phase with
    | .value _ _ => .ok (s.setMe s.me.adv)
    | .pushed _ => .ok (s.setMe (s.me.stall 2))
    | _ => s.entering w fun s =>
      let s := s.flushCore (coreOf s.cur)
      .ok (s.setMe { (s.me.push (s.me.markerOf .marker w)).stall 2 with phase := .pushed 0 }))

end Sys2Proof.Machine
end

