-- ==== Sys2Proof/Machine/Group.lean ====
section
/-! DEFINITION. The instructions of the group and the barrier (R281 to R298): WORKID, ENDK, WMARK, LAUNCH, VPUSH and BAR. -/

namespace Sys2Proof.Machine

/-- WORKID (R287). -/
def execWorkid (d : Fin 32) (i : Fin 7) (s : State) : Host.Outcome State Fault Refusal :=
  finish (s.scalarStep (packK 0x7A 0 d.val 0 0 0 i.val) false false none fun s =>
    let sl := s.me
    let widths := match s.ctxOf sl.ctx with | some c => c.widths | none => []
    .ok (s.putX d.val (if i.val = 6 then sl.workId else BitVec.ofNat 64 (workField widths sl.workId.toNat i.val))))

/-- ENDK at the slice: the marker is pushed and the slot drains, CAUSE 9 (R281). -/
def execEndk (sc : Scope) (s : State) : Host.Outcome State Fault Refusal :=
  let w := packK 0x7B sc.code.val 0 0 0 0 0
  finish (s.queueStep w false fun s =>
    if !s.me.tr.vu then .ok (s.trapWord .vectorUnavailable w)
    else if s.me.tr.inh then .ok s.trapOperand
    else s.entering w fun s => .ok (s.setMe { s.me.push (s.me.markerOf .marker w) with st := .drain, cause := 9 }))

/-- Has everything that WMARK, BAR.INIT and BAR.ARRIVE release in the lanes performed (R230, R282, R296). -/
def Slot.allDone (sl : Slot) : Bool := sl.queue.isEmpty && sl.writtenBack

/-- WMARK (R282). -/
def execWmark (sc : Scope) (a b : Fin 32) (s : State) : Host.Outcome State Fault Refusal :=
  let w := packK 0x7C sc.code.val 0 a.val b.val 0 0
  finish (s.queueStep w false fun s =>
    let va := s.me.rx a.val
    if !s.me.tr.vu then .ok (s.trapWord .vectorUnavailable w)
    else if va.toNat % 8 ≠ 0 then .ok (s.trapHere .misaligned 1 va)
    else
      match s.me.phase with
      | .marked =>
        if !s.me.allDone || s.flushHeld (coreOf s.cur) then .ok (s.setMe (s.me.stall 2))
        else
          let s := s.flushCore (coreOf s.cur)
          let g := s.sliceAgent s.cur
          s.settleAt 1
            (thenA (s.accessAt s.cur g .write 8 va none) fun s p =>
              thenA ((s.cleanFor p.1).writeAt g false p.1 (toBytes 8 (s.me.rx b.val).toNat) p.2) fun s _ => .ok (s, .ok p.2))
            fun s va => ((s.setMe s.me.adv).addPieces s.cur 8).watch s.cur false true va.toNat 8
      | _ => s.entering w fun s => .ok (s.setMe { (s.me.push (s.me.markerOf .marker w)).stall 2 with phase := .marked }))

/-! ### LAUNCH (R283) -/

/-- A LAUNCH that waits for its ring: it has followed no mark yet (R243, R247, R283). -/
def State.launchWait (s s0 : State) : State :=
  let u := s.unfollow s0 s0.cur
  u.setMe (u.me.stall 2)

/-- Is the copy of another LAUNCH on its way to a place of a REMOTE ring: with its TAIL it is one step (R283). -/
def State.copyOpen (s : State) (g : Agent) (t : Target) : Bool :=
  match t with
  | .far _ part addr _ => s.reqs.any fun (r : LinkReq) =>
      r.part == part && r.addr == addr && r.kind == 1 && r.len == 64 && r.owner % 4 == 0 && decide (r.owner < 4096) && r.owner != g.owner
  | _ => false

/-- The last step of a LAUNCH: 64 bytes from x[a] to ring index TAIL of queue n, then the doorbell. `s0` is the state before the
LAUNCH. -/
def State.launchCopy (s s0 : State) (a n : Nat) : Res State :=
  let g := s.sliceAgent s.cur
  let q := s.hqAt n
  let r := q.slotAddr q.tail
  let out : Agent := { g with pt := q.root }
  match s.translate g.core q.root g.priv .write 64 r with
  | .error e => .error e
  | .ok (s, .fail code va) => .ok ((s.dropReqs g.owner).trapHere code 1 va)
  | .ok (s, .ok t fva _ _) =>
    match s.loadBytes s.cur g true 64 64 (s.me.rx a) with
    | .error e => .error e
    | .ok (s, .trap code va) => .ok ((s.dropReqs g.owner).trapHere code 0 va)
    | .ok (s, .wait) => .ok (s.launchWait s0)
    | .ok (s, .ok b) =>
      if s.copyOpen g t then .ok (s.launchWait s0)
      else
      match (s.cleanFor t).writeAt out false t b fva with
      | .error e => .error e
      | .ok (s, .trap code va) => .ok ((s.dropReqs g.owner).trapHere code 1 va)
      | .ok (s, .wait) => .ok (s.launchWait s0)
      | .ok (s, .ok _) =>
        let x := s.me.rx a
        let s := ((s.dropReqs g.owner).doorbell n (q.tail + 1)).setMe s.me.adv
        .ok (((s.touch s.cur g true false x 64).addPieces s.cur 64).watch s.cur false true fva.toNat 64)

/-- LAUNCH (R283). -/
def execLaunch (a b : Fin 32) (s : State) : Host.Outcome State Fault Refusal :=
  finish (s.scalarStep (packQ 0x6E 0 a.val b.val 0) false false none fun s =>
    let s0 := s
    let va := s.me.rx a.val
    let n := (s.me.rx b.val).toNat
    let g := s.sliceAgent s.cur
    if va.toNat % 64 ≠ 0 then .ok (s.trapHere .misaligned 0 va)
    else if 63 < n ∨ (s.hqAt n).en = false ∨ rootAsid (s.hqAt n).root ≠ rootAsid s.me.ptroot then .ok s.trapOperand
    else
      match s.translate g.core g.pt g.priv .read 64 va with
      | .error e => .error e
      | .ok (s, .fail code x) => .ok ((s.dropReqs g.owner).trapHere code 0 x)
      | .ok (s, .ok ..) =>
        let q := s.hqAt n
        if !s.me.allDone || s.flushHeld (coreOf s.cur) || decide (q.ring ≤ (q.tail - q.head).toNat) then .ok (s.launchWait s0)
        else (s.flushCore (coreOf s.cur)).launchCopy s0 a.val n)

/-! ### VPUSH (R289, R290) -/

/-- The group of slot k. -/
def State.groupOfSlot (s : State) (k : Nat) : Option Group :=
  match (s.slot k).ctx with
  | some n => s.groupAt n (s.slot k).group
  | none => none

/-- The slot of thread p of slot k's group, while it is bound and can receive. -/
def State.peerSlot (s : State) (k p : Nat) : Option Nat :=
  match s.groupOfSlot k with
  | none => none
  | some g =>
    match g.slots.getD p none with
    | some j => if (s.slot j).tr.vu && (s.slot j).cst != .faulted && (s.slot j).st != .vacant then some j else none
    | none => none

/-- Are the registers [d, d + n) of a thread armed empty. -/
def Lane.armed (l : Lane) (d n : Nat) : Bool := (List.range' d n).all fun i => l.femask.getLsbD i

/-- Does a thread with a lower f0 wait to push on overlapping registers of the same peer, or is it about to, its stall over (R290). -/
def State.pushAhead (s : State) (k p d n : Nat) : Bool :=
  s.slots.any fun o =>
    o.2.ctx == (s.slot k).ctx && o.2.group == (s.slot k).group && decide (o.2.f0 < (s.slot k).f0) && (o.2.st == .wait || o.2.st == .run) &&
      match o.2.phase with
      | .peer p' d' n' => p' == p && decide (d < d' + n') && decide (d' < d + n)
      | _ => false

/-- May a push of slot k to thread p land on [d, d + n) now. -/
def State.pushReady (s : State) (k p d n : Nat) : Bool :=
  match s.peerSlot k p with
  | some j => (s.slot j).lane.armed d n && !s.pushAhead k p d n
  | none => false

/-- Has thread p completed ENDK, or is it no thread of slot k's group. -/
def State.peerGone (s : State) (k p : Nat) : Bool :=
  match s.groupOfSlot k with
  | some g => g.ended.getD p true
  | none => true

/-- The registers land in the peer (R289). -/
def Lane.receive (l own : Lane) (cap d b n : Nat) : Lane :=
  let l := (List.range n).foldl (fun (l : Lane) j =>
    let src := vat own.v (b + j) VReg.reset
    let dst := vat l.v (d + j) VReg.reset
    { l with
      v := l.v.setIfInBounds (d + j)
        { data := setBits dst.data 0 (512 * 2 ^ cap) (src.data.toNat % 2 ^ (512 * 2 ^ cap)), side := src.side }
      femask := setBits l.femask (d + j) 1 0, vdirty := setBits l.vdirty (d + j) 1 1 }) l
  { l with vext := BitVec.ofNat 6 (2 ^ cap) }

/-- VPUSH (R289). -/
def execVpush (d a b : Fin 32) (n : Fin 16) (s : State) : Host.Outcome State Fault Refusal :=
  let w := packK 0x7E 0 d.val a.val b.val 0 n.val
  finish (s.queueStep w false fun s =>
    let k := s.cur
    let sl := s.me
    let p := (sl.rx a.val).toNat
    let m := n.val + 1
    if !sl.tr.vu then .ok (s.trapWord .vectorUnavailable w)
    else if sl.tr.froz then .ok s.trapOperand
    else if !sl.queue.isEmpty then .ok (s.setMe (sl.stall 2))
    else if p = sl.f0 ∨ s.peerGone k p = true then .ok s.trapOperand
    else if !s.pushReady k p d.val m then .ok (s.setMe { sl.stall 2 with phase := .peer p d.val m })
    else
      match s.peerSlot k p with
      | none => .ok (s.setMe (sl.stall 2))
      | some j =>
        if (s.slot j).cap ≠ sl.cap then .ok s.trapOperand
        else
          let s := s.modSlot j fun x => { x with lane := x.lane.receive sl.lane sl.cap.toNat d.val b.val m }
          .ok (s.setMe s.me.adv))

/-! ### Barriers (R292 to R298) -/

/-- The barrier offset of an operand word: none when the word is illegal or names none in the group area (R295). -/
def State.barOffset (s : State) (x : X64) : Option Nat :=
  match s.ctxOf s.me.ctx with
  | none => none
  | some c =>
    let off := fld x 4 28 * 16
    if fld x 32 32 ≠ 0 ∨ fld x 1 3 ≠ 0 ∨ c.loftg < off + 16 then none else some off

/-- The barrier at an offset of the acting thread's group area. -/
def State.barrier (s : State) (off : Nat) : Barrier :=
  match s.groupOfSlot s.cur with
  | some g => alookup Barrier.reset g.bars off
  | none => Barrier.reset

/-- Does the bank word of a barrier hold an uncorrectable error (R295). -/
def State.barBad (s : State) (off : Nat) : Bool :=
  match s.groupOfSlot s.cur with
  | some g => g.badBars.contains off
  | none => false

/-- Put a barrier of the acting thread's group area. -/
def State.setBarrier (s : State) (off : Nat) (b : Barrier) : State :=
  match s.me.ctx with
  | some n => s.modGroup n s.me.group fun g =>
      { g with bars := if b = Barrier.reset then aerase g.bars off else ainsert g.bars off b }
  | none => s

/-- One more arrival: the last expected one flips the phase (R293, R296). -/
def Barrier.arrive (b : Barrier) : Barrier :=
  if b.count + 1 = b.expect then { b with count := 0, phase := !b.phase } else { b with count := b.count + 1 }

/-- What BAR.TEST returns (R296). -/
def Barrier.test (b : Barrier) (p : Bool) : X64 :=
  BitVec.ofNat 64 (b.count.toNat * 2 ^ 32 + b2n b.phase * 2 + b2n (b.phase != p))

/-- A BAR instruction once its operand is legal: POISON on an uncorrectable bank word (R295). -/
def State.withBar (s : State) (x : X64) (go : State → Nat → Res State) : Res State :=
  match s.barOffset x with
  | none => .ok s.trapOperand
  | some off => if s.barBad off then .ok (s.trapHere .poison 0 (BitVec.ofNat 64 off)) else go s off

/-- BAR.INIT (R296). -/
def execBarInit (sc : Scope) (a b : Fin 32) (s : State) : Host.Outcome State Fault Refusal :=
  finish (s.scalarStep (packK 0x7D sc.code.val 0 a.val b.val 0 0) false false none fun s =>
    let n := (s.me.rx b.val).toNat
    if s.me.tr.froz || decide (n = 0) || decide (2 ^ 32 ≤ n) then .ok s.trapOperand
    else
      s.withBar (s.me.rx a.val) fun s off =>
        if !s.me.allDone || s.flushHeld (coreOf s.cur) then .ok (s.setMe (s.me.stall 2))
        else
          let s := s.flushCore (coreOf s.cur)
          let s := s.setBarrier off { s.barrier off with count := 0, expect := BitVec.ofNat 32 n }
          .ok (s.setMe s.me.adv))

/-- BAR.ARRIVE (R296). -/
def execBarArrive (sc : Scope) (a : Fin 32) (s : State) : Host.Outcome State Fault Refusal :=
  finish (s.scalarStep (packK 0x7D sc.code.val 0 a.val 0 1 0) false false none fun s =>
    if s.me.tr.froz then .ok s.trapOperand
    else
      s.withBar (s.me.rx a.val) fun s off =>
        if !s.me.allDone || s.flushHeld (coreOf s.cur) then .ok (s.setMe (s.me.stall 2))
        else if (s.barrier off).expect = 0 then .ok (s.setMe { s.me.stall 8 with phase := .barrier off none })
        else
          let s := s.flushCore (coreOf s.cur)
          let s := s.setBarrier off (s.barrier off).arrive
          .ok (s.setMe s.me.adv))

/-- BAR.WAIT (R296). -/
def execBarWait (sc : Scope) (a : Fin 32) (s : State) : Host.Outcome State Fault Refusal :=
  finish (s.scalarStep (packK 0x7D sc.code.val 0 a.val 0 2 0) false false none fun s =>
    let x := s.me.rx a.val
    s.withBar x fun s off =>
      if (s.barrier off).phase = bitAt x 0 then .ok (s.setMe { s.me.stall 8 with phase := .barrier off (some (bitAt x 0)) })
      else .ok (s.setMe s.me.adv))

/-- BAR.TEST (R296). -/
def execBarTest (sc : Scope) (d a : Fin 32) (s : State) : Host.Outcome State Fault Refusal :=
  finish (s.scalarStep (packK 0x7D sc.code.val d.val a.val 0 3 0) false false none fun s =>
    let x := s.me.rx a.val
    s.withBar x fun s off => .ok (s.putX d.val ((s.barrier off).test (bitAt x 0))))

end Sys2Proof.Machine
end

