-- ==== Sys2Proof/Machine/Mask.lean ====
section
/-! DEFINITION. Comparisons, mask logic and mask queries (R134 to R140). -/

namespace Sys2Proof.Machine

/-- The relations of CMP (R134). -/
inductive Rel where
  | eq | ne | lt | le | un
  deriving DecidableEq, Repr

/-- An integer comparison under the type's signedness (R134). -/
def cmpInt (r : Rel) (t : Ty) (a b : Nat) : Bool :=
  let x := intVal t a
  let y := intVal t b
  match r with
  | .eq => decide (x = y)
  | .ne => decide (x ≠ y)
  | .lt => decide (x < y)
  | .le => decide (x ≤ y)
  | .un => false

/-- A float comparison: false on NaN but for UN; −0 equals +0 (R134, R135). -/
def cmpFloat (r : Rel) (x y : FVal) : Bool :=
  match r with
  | .eq => x.eq y
  | .ne => !x.eq y
  | .lt => x.lt y
  | .le => x.lt y || x.eq y
  | .un => x.isNan || y.isNan

/-- CMP in the lanes (R135). -/
def LEnv.cmp (n : LEnv) (r : Rel) (t : Ty) (d a : Nat) (b : BOp) : LaneAct :=
  let g := groupOf t.bits
  n.elemwise [n.count t] g fun acc e => acc.setMask d e (cmpInt r t (n.l.rd a t.bits e) (n.bBits t g b e))

/-- FCMP in the lanes (R135). -/
def LEnv.fcmp (n : LEnv) (r : Rel) (t : Ty) (d a : Nat) (b : BOp) : LaneAct :=
  let g := groupOf t.bits
  n.elemwise [n.count t] g fun acc e =>
    acc.setMask d e (cmpFloat r (decodeFloat t (n.l.rd a t.bits e)) (decodeFloat t (n.bBits t g b e)))

/-- CMP at the slice (R136). -/
def scCmp (r : Rel) (t : Ty) (d a b : Nat) (s : State) : Res State :=
  .ok (s.putC d (cmpInt r t (s.me.rx a).toNat (s.me.rx b).toNat))

/-- FCMP at the slice (R136). -/
def scFcmp (r : Rel) (d a b : Nat) (s : State) : Res State :=
  let v := fun i => decodeFloat .f32 ((s.me.rx i).toNat % 2 ^ 32)
  .ok (s.putC d (cmpFloat r (v a) (v b)))

/-- Write bits [0, VL) of a mask; the bits above keep their values (R137, R139). -/
def LEnv.maskTo (n : LEnv) (d : Nat) (f : Nat → Bool) : Lane :=
  (List.range n.l.vl.toNat).foldl (fun acc p => acc.setMask d p (f p)) n.l

/-- The least p in [0, VL) whose bit of mask a is set (R139, R140). -/
def LEnv.first (n : LEnv) (a : Nat) : Option Nat := (List.range n.l.vl.toNat).find? (n.l.maskBit a)

/-- Set a whole mask register. -/
def Lane.setWhole (l : Lane) (d : Nat) (v : MBits) : Lane := { l with m := l.m.setIfInBounds d v }

/-- CMP_EQ_VV in the lanes (R135). -/
def laneCmpEqVv (d : Fin 8) (a b : Fin 32) (t : Ty) (c : XMod) (n : LEnv) : LaneAct :=
  n.cmp .eq t d.val a.val (.reg b.val c)
/-- CMP_EQ_VV at the slice: pushed (R24, R62). -/
def execCmpEqVv (d : Fin 8) (a b : Fin 32) (t : Ty) (c : XMod) (s : State) : Host.Outcome State Fault Refusal := .next (s.pushVector (.cmpEqVv d a b t c) 0)

/-- CMP_EQ_VS in the lanes (R135). -/
def laneCmpEqVs (d : Fin 8) (a _b : Fin 32) (t : Ty) (n : LEnv) : LaneAct :=
  n.cmp .eq t d.val a.val .scal
/-- CMP_EQ_VS at the slice: pushed (R24, R62). -/
def execCmpEqVs (d : Fin 8) (a b : Fin 32) (t : Ty) (s : State) : Host.Outcome State Fault Refusal := .next (s.pushVector (.cmpEqVs d a b t) (s.me.rx b.val))

/-- CMP_EQ_VI in the lanes (R135). -/
def laneCmpEqVi (d : Fin 8) (a : Fin 32) (i : BitVec 9) (t : Ty) (n : LEnv) : LaneAct :=
  n.cmp .eq t d.val a.val (.imm i false)
/-- CMP_EQ_VI at the slice: pushed (R24, R62). -/
def execCmpEqVi (d : Fin 8) (a : Fin 32) (i : BitVec 9) (t : Ty) (s : State) : Host.Outcome State Fault Refusal := .next (s.pushVector (.cmpEqVi d a i t) 0)

/-- CMP_EQ_SC at the slice (R136, R110). -/
def execCmpEqSc (d : Fin 8) (a b : Fin 32) (t : Ty) (s : State) : Host.Outcome State Fault Refusal :=
  finish (s.scalarStep (wordOf (.cmpEqSc d a b t)) false false (Instr.typeTrap (.cmpEqSc d a b t)) (scCmp .eq t d.val a.val b.val))

/-- CMP_NE_VV in the lanes (R135). -/
def laneCmpNeVv (d : Fin 8) (a b : Fin 32) (t : Ty) (c : XMod) (n : LEnv) : LaneAct :=
  n.cmp .ne t d.val a.val (.reg b.val c)
/-- CMP_NE_VV at the slice: pushed (R24, R62). -/
def execCmpNeVv (d : Fin 8) (a b : Fin 32) (t : Ty) (c : XMod) (s : State) : Host.Outcome State Fault Refusal := .next (s.pushVector (.cmpNeVv d a b t c) 0)

/-- CMP_NE_VS in the lanes (R135). -/
def laneCmpNeVs (d : Fin 8) (a _b : Fin 32) (t : Ty) (n : LEnv) : LaneAct :=
  n.cmp .ne t d.val a.val .scal
/-- CMP_NE_VS at the slice: pushed (R24, R62). -/
def execCmpNeVs (d : Fin 8) (a b : Fin 32) (t : Ty) (s : State) : Host.Outcome State Fault Refusal := .next (s.pushVector (.cmpNeVs d a b t) (s.me.rx b.val))

/-- CMP_NE_VI in the lanes (R135). -/
def laneCmpNeVi (d : Fin 8) (a : Fin 32) (i : BitVec 9) (t : Ty) (n : LEnv) : LaneAct :=
  n.cmp .ne t d.val a.val (.imm i false)
/-- CMP_NE_VI at the slice: pushed (R24, R62). -/
def execCmpNeVi (d : Fin 8) (a : Fin 32) (i : BitVec 9) (t : Ty) (s : State) : Host.Outcome State Fault Refusal := .next (s.pushVector (.cmpNeVi d a i t) 0)

/-- CMP_NE_SC at the slice (R136, R110). -/
def execCmpNeSc (d : Fin 8) (a b : Fin 32) (t : Ty) (s : State) : Host.Outcome State Fault Refusal :=
  finish (s.scalarStep (wordOf (.cmpNeSc d a b t)) false false (Instr.typeTrap (.cmpNeSc d a b t)) (scCmp .ne t d.val a.val b.val))

/-- CMP_LT_VV in the lanes (R135). -/
def laneCmpLtVv (d : Fin 8) (a b : Fin 32) (t : Ty) (c : XMod) (n : LEnv) : LaneAct :=
  n.cmp .lt t d.val a.val (.reg b.val c)
/-- CMP_LT_VV at the slice: pushed (R24, R62). -/
def execCmpLtVv (d : Fin 8) (a b : Fin 32) (t : Ty) (c : XMod) (s : State) : Host.Outcome State Fault Refusal := .next (s.pushVector (.cmpLtVv d a b t c) 0)

/-- CMP_LT_VS in the lanes (R135). -/
def laneCmpLtVs (d : Fin 8) (a _b : Fin 32) (t : Ty) (n : LEnv) : LaneAct :=
  n.cmp .lt t d.val a.val .scal
/-- CMP_LT_VS at the slice: pushed (R24, R62). -/
def execCmpLtVs (d : Fin 8) (a b : Fin 32) (t : Ty) (s : State) : Host.Outcome State Fault Refusal := .next (s.pushVector (.cmpLtVs d a b t) (s.me.rx b.val))

/-- CMP_LT_VI in the lanes (R135). -/
def laneCmpLtVi (d : Fin 8) (a : Fin 32) (i : BitVec 9) (t : Ty) (n : LEnv) : LaneAct :=
  n.cmp .lt t d.val a.val (.imm i false)
/-- CMP_LT_VI at the slice: pushed (R24, R62). -/
def execCmpLtVi (d : Fin 8) (a : Fin 32) (i : BitVec 9) (t : Ty) (s : State) : Host.Outcome State Fault Refusal := .next (s.pushVector (.cmpLtVi d a i t) 0)

/-- CMP_LT_SC at the slice (R136, R110). -/
def execCmpLtSc (d : Fin 8) (a b : Fin 32) (t : Ty) (s : State) : Host.Outcome State Fault Refusal :=
  finish (s.scalarStep (wordOf (.cmpLtSc d a b t)) false false (Instr.typeTrap (.cmpLtSc d a b t)) (scCmp .lt t d.val a.val b.val))

/-- CMP_LE_VV in the lanes (R135). -/
def laneCmpLeVv (d : Fin 8) (a b : Fin 32) (t : Ty) (c : XMod) (n : LEnv) : LaneAct :=
  n.cmp .le t d.val a.val (.reg b.val c)
/-- CMP_LE_VV at the slice: pushed (R24, R62). -/
def execCmpLeVv (d : Fin 8) (a b : Fin 32) (t : Ty) (c : XMod) (s : State) : Host.Outcome State Fault Refusal := .next (s.pushVector (.cmpLeVv d a b t c) 0)

/-- CMP_LE_VS in the lanes (R135). -/
def laneCmpLeVs (d : Fin 8) (a _b : Fin 32) (t : Ty) (n : LEnv) : LaneAct :=
  n.cmp .le t d.val a.val .scal
/-- CMP_LE_VS at the slice: pushed (R24, R62). -/
def execCmpLeVs (d : Fin 8) (a b : Fin 32) (t : Ty) (s : State) : Host.Outcome State Fault Refusal := .next (s.pushVector (.cmpLeVs d a b t) (s.me.rx b.val))

/-- CMP_LE_VI in the lanes (R135). -/
def laneCmpLeVi (d : Fin 8) (a : Fin 32) (i : BitVec 9) (t : Ty) (n : LEnv) : LaneAct :=
  n.cmp .le t d.val a.val (.imm i false)
/-- CMP_LE_VI at the slice: pushed (R24, R62). -/
def execCmpLeVi (d : Fin 8) (a : Fin 32) (i : BitVec 9) (t : Ty) (s : State) : Host.Outcome State Fault Refusal := .next (s.pushVector (.cmpLeVi d a i t) 0)

/-- CMP_LE_SC at the slice (R136, R110). -/
def execCmpLeSc (d : Fin 8) (a b : Fin 32) (t : Ty) (s : State) : Host.Outcome State Fault Refusal :=
  finish (s.scalarStep (wordOf (.cmpLeSc d a b t)) false false (Instr.typeTrap (.cmpLeSc d a b t)) (scCmp .le t d.val a.val b.val))

/-- FCMP_EQ_VV in the lanes (R135). -/
def laneFcmpEqVv (d : Fin 8) (a b : Fin 32) (t : Ty) (c : XMod) (n : LEnv) : LaneAct :=
  n.fcmp .eq t d.val a.val (.reg b.val c)
/-- FCMP_EQ_VV at the slice: pushed (R24, R62). -/
def execFcmpEqVv (d : Fin 8) (a b : Fin 32) (t : Ty) (c : XMod) (s : State) : Host.Outcome State Fault Refusal := .next (s.pushVector (.fcmpEqVv d a b t c) 0)

/-- FCMP_EQ_VS in the lanes (R135). -/
def laneFcmpEqVs (d : Fin 8) (a _b : Fin 32) (t : Ty) (n : LEnv) : LaneAct :=
  n.fcmp .eq t d.val a.val .scal
/-- FCMP_EQ_VS at the slice: pushed (R24, R62). -/
def execFcmpEqVs (d : Fin 8) (a b : Fin 32) (t : Ty) (s : State) : Host.Outcome State Fault Refusal := .next (s.pushVector (.fcmpEqVs d a b t) (s.me.rx b.val))

/-- FCMP_EQ_VI in the lanes (R135). -/
def laneFcmpEqVi (d : Fin 8) (a : Fin 32) (i : BitVec 9) (t : Ty) (n : LEnv) : LaneAct :=
  n.fcmp .eq t d.val a.val (.imm i false)
/-- FCMP_EQ_VI at the slice: pushed (R24, R62). -/
def execFcmpEqVi (d : Fin 8) (a : Fin 32) (i : BitVec 9) (t : Ty) (s : State) : Host.Outcome State Fault Refusal := .next (s.pushVector (.fcmpEqVi d a i t) 0)

/-- FCMP_EQ_SC at the slice (R136, R110). -/
def execFcmpEqSc (d : Fin 8) (a b : Fin 32) (t : Ty) (s : State) : Host.Outcome State Fault Refusal :=
  finish (s.scalarStep (wordOf (.fcmpEqSc d a b t)) false false (Instr.typeTrap (.fcmpEqSc d a b t)) (scFcmp .eq d.val a.val b.val))

/-- FCMP_LT_VV in the lanes (R135). -/
def laneFcmpLtVv (d : Fin 8) (a b : Fin 32) (t : Ty) (c : XMod) (n : LEnv) : LaneAct :=
  n.fcmp .lt t d.val a.val (.reg b.val c)
/-- FCMP_LT_VV at the slice: pushed (R24, R62). -/
def execFcmpLtVv (d : Fin 8) (a b : Fin 32) (t : Ty) (c : XMod) (s : State) : Host.Outcome State Fault Refusal := .next (s.pushVector (.fcmpLtVv d a b t c) 0)

/-- FCMP_LT_VS in the lanes (R135). -/
def laneFcmpLtVs (d : Fin 8) (a _b : Fin 32) (t : Ty) (n : LEnv) : LaneAct :=
  n.fcmp .lt t d.val a.val .scal
/-- FCMP_LT_VS at the slice: pushed (R24, R62). -/
def execFcmpLtVs (d : Fin 8) (a b : Fin 32) (t : Ty) (s : State) : Host.Outcome State Fault Refusal := .next (s.pushVector (.fcmpLtVs d a b t) (s.me.rx b.val))

/-- FCMP_LT_VI in the lanes (R135). -/
def laneFcmpLtVi (d : Fin 8) (a : Fin 32) (i : BitVec 9) (t : Ty) (n : LEnv) : LaneAct :=
  n.fcmp .lt t d.val a.val (.imm i false)
/-- FCMP_LT_VI at the slice: pushed (R24, R62). -/
def execFcmpLtVi (d : Fin 8) (a : Fin 32) (i : BitVec 9) (t : Ty) (s : State) : Host.Outcome State Fault Refusal := .next (s.pushVector (.fcmpLtVi d a i t) 0)

/-- FCMP_LT_SC at the slice (R136, R110). -/
def execFcmpLtSc (d : Fin 8) (a b : Fin 32) (t : Ty) (s : State) : Host.Outcome State Fault Refusal :=
  finish (s.scalarStep (wordOf (.fcmpLtSc d a b t)) false false (Instr.typeTrap (.fcmpLtSc d a b t)) (scFcmp .lt d.val a.val b.val))

/-- FCMP_LE_VV in the lanes (R135). -/
def laneFcmpLeVv (d : Fin 8) (a b : Fin 32) (t : Ty) (c : XMod) (n : LEnv) : LaneAct :=
  n.fcmp .le t d.val a.val (.reg b.val c)
/-- FCMP_LE_VV at the slice: pushed (R24, R62). -/
def execFcmpLeVv (d : Fin 8) (a b : Fin 32) (t : Ty) (c : XMod) (s : State) : Host.Outcome State Fault Refusal := .next (s.pushVector (.fcmpLeVv d a b t c) 0)

/-- FCMP_LE_VS in the lanes (R135). -/
def laneFcmpLeVs (d : Fin 8) (a _b : Fin 32) (t : Ty) (n : LEnv) : LaneAct :=
  n.fcmp .le t d.val a.val .scal
/-- FCMP_LE_VS at the slice: pushed (R24, R62). -/
def execFcmpLeVs (d : Fin 8) (a b : Fin 32) (t : Ty) (s : State) : Host.Outcome State Fault Refusal := .next (s.pushVector (.fcmpLeVs d a b t) (s.me.rx b.val))

/-- FCMP_LE_VI in the lanes (R135). -/
def laneFcmpLeVi (d : Fin 8) (a : Fin 32) (i : BitVec 9) (t : Ty) (n : LEnv) : LaneAct :=
  n.fcmp .le t d.val a.val (.imm i false)
/-- FCMP_LE_VI at the slice: pushed (R24, R62). -/
def execFcmpLeVi (d : Fin 8) (a : Fin 32) (i : BitVec 9) (t : Ty) (s : State) : Host.Outcome State Fault Refusal := .next (s.pushVector (.fcmpLeVi d a i t) 0)

/-- FCMP_LE_SC at the slice (R136, R110). -/
def execFcmpLeSc (d : Fin 8) (a b : Fin 32) (t : Ty) (s : State) : Host.Outcome State Fault Refusal :=
  finish (s.scalarStep (wordOf (.fcmpLeSc d a b t)) false false (Instr.typeTrap (.fcmpLeSc d a b t)) (scFcmp .le d.val a.val b.val))

/-- FCMP_UN_VV in the lanes (R135). -/
def laneFcmpUnVv (d : Fin 8) (a b : Fin 32) (t : Ty) (c : XMod) (n : LEnv) : LaneAct :=
  n.fcmp .un t d.val a.val (.reg b.val c)
/-- FCMP_UN_VV at the slice: pushed (R24, R62). -/
def execFcmpUnVv (d : Fin 8) (a b : Fin 32) (t : Ty) (c : XMod) (s : State) : Host.Outcome State Fault Refusal := .next (s.pushVector (.fcmpUnVv d a b t c) 0)

/-- FCMP_UN_VS in the lanes (R135). -/
def laneFcmpUnVs (d : Fin 8) (a _b : Fin 32) (t : Ty) (n : LEnv) : LaneAct :=
  n.fcmp .un t d.val a.val .scal
/-- FCMP_UN_VS at the slice: pushed (R24, R62). -/
def execFcmpUnVs (d : Fin 8) (a b : Fin 32) (t : Ty) (s : State) : Host.Outcome State Fault Refusal := .next (s.pushVector (.fcmpUnVs d a b t) (s.me.rx b.val))

/-- FCMP_UN_VI in the lanes (R135). -/
def laneFcmpUnVi (d : Fin 8) (a : Fin 32) (i : BitVec 9) (t : Ty) (n : LEnv) : LaneAct :=
  n.fcmp .un t d.val a.val (.imm i false)
/-- FCMP_UN_VI at the slice: pushed (R24, R62). -/
def execFcmpUnVi (d : Fin 8) (a : Fin 32) (i : BitVec 9) (t : Ty) (s : State) : Host.Outcome State Fault Refusal := .next (s.pushVector (.fcmpUnVi d a i t) 0)

/-- FCMP_UN_SC at the slice (R136, R110). -/
def execFcmpUnSc (d : Fin 8) (a b : Fin 32) (t : Ty) (s : State) : Host.Outcome State Fault Refusal :=
  finish (s.scalarStep (wordOf (.fcmpUnSc d a b t)) false false (Instr.typeTrap (.fcmpUnSc d a b t)) (scFcmp .un d.val a.val b.val))

/-- MLOG_AND in the lanes (R137). -/
def laneMlogAnd (d a b : Fin 8) (n : LEnv) : LaneAct :=
  n.wholeReg [4096] (n.maskTo d.val fun p => n.l.maskBit a.val p && n.l.maskBit b.val p)
/-- MLOG_AND at the slice: pushed (R24, R62). -/
def execMlogAnd (d a b : Fin 8) (s : State) : Host.Outcome State Fault Refusal := .next (s.pushVector (.mlogAnd d a b) 0)

/-- MLOG_OR in the lanes (R137). -/
def laneMlogOr (d a b : Fin 8) (n : LEnv) : LaneAct :=
  n.wholeReg [4096] (n.maskTo d.val fun p => n.l.maskBit a.val p || n.l.maskBit b.val p)
/-- MLOG_OR at the slice: pushed (R24, R62). -/
def execMlogOr (d a b : Fin 8) (s : State) : Host.Outcome State Fault Refusal := .next (s.pushVector (.mlogOr d a b) 0)

/-- MLOG_XOR in the lanes (R137). -/
def laneMlogXor (d a b : Fin 8) (n : LEnv) : LaneAct :=
  n.wholeReg [4096] (n.maskTo d.val fun p => n.l.maskBit a.val p != n.l.maskBit b.val p)
/-- MLOG_XOR at the slice: pushed (R24, R62). -/
def execMlogXor (d a b : Fin 8) (s : State) : Host.Outcome State Fault Refusal := .next (s.pushVector (.mlogXor d a b) 0)

/-- MSBF in the lanes (R139). -/
def laneMsbf (d a : Fin 8) (n : LEnv) : LaneAct :=
  n.wholeReg [4096] (n.maskTo d.val fun p => decide (p < (n.first a.val).getD n.l.vl.toNat))
/-- MSBF at the slice: pushed (R24, R62). -/
def execMsbf (d a : Fin 8) (s : State) : Host.Outcome State Fault Refusal := .next (s.pushVector (.msbf d a) 0)

/-- MSIF in the lanes (R139). -/
def laneMsif (d a : Fin 8) (n : LEnv) : LaneAct :=
  n.wholeReg [4096] (n.maskTo d.val fun p => decide (p ≤ (n.first a.val).getD n.l.vl.toNat))
/-- MSIF at the slice: pushed (R24, R62). -/
def execMsif (d a : Fin 8) (s : State) : Host.Outcome State Fault Refusal := .next (s.pushVector (.msif d a) 0)

/-- MSET_ALL in the lanes (R138). -/
def laneMsetAll (d : Fin 8) (n : LEnv) : LaneAct :=
  n.wholeReg [4096] (n.l.setWhole d.val (BitVec.allOnes 4096))
/-- MSET_ALL at the slice: pushed (R24, R62). -/
def execMsetAll (d : Fin 8) (s : State) : Host.Outcome State Fault Refusal := .next (s.pushVector (.msetAll d) 0)

/-- MSET_NONE in the lanes (R138). -/
def laneMsetNone (d : Fin 8) (n : LEnv) : LaneAct :=
  n.wholeReg [4096] (n.l.setWhole d.val 0)
/-- MSET_NONE at the slice: pushed (R24, R62). -/
def execMsetNone (d : Fin 8) (s : State) : Host.Outcome State Fault Refusal := .next (s.pushVector (.msetNone d) 0)

/-- MSET_VL in the lanes (R138). -/
def laneMsetVl (d : Fin 8) (n : LEnv) : LaneAct :=
  n.wholeReg [4096] (n.l.setWhole d.val (BitVec.ofNat 4096 (2 ^ n.l.vl.toNat - 1)))
/-- MSET_VL at the slice: pushed (R24, R62). -/
def execMsetVl (d : Fin 8) (s : State) : Host.Outcome State Fault Refusal := .next (s.pushVector (.msetVl d) 0)

/-- A mask query that returns a value (R140). -/
def LEnv.query (n : LEnv) (v : X64) : LaneAct :=
  if n.l.vstart = 0 ∧ n.l.vl.toNat ≤ 4096 then .back v n.l else .illegal

/-- MPOPC in the lanes (R140). -/
def laneMpopc (_d : Fin 32) (a : Fin 8) (n : LEnv) : LaneAct :=
  n.query (BitVec.ofNat 64 ((List.range n.l.vl.toNat).filter (n.l.maskBit a.val)).length)
/-- MPOPC: a back-flow (R140, R27). -/
def execMpopc (d : Fin 32) (a : Fin 8) (s : State) : Host.Outcome State Fault Refusal := .next (s.pushBack (.mpopc d a) d.val)

/-- MFIRST in the lanes (R140). -/
def laneMfirst (_d : Fin 32) (a : Fin 8) (n : LEnv) : LaneAct :=
  n.query (match n.first a.val with | some p => BitVec.ofNat 64 p | none => BitVec.allOnes 64)
/-- MFIRST: a back-flow (R140, R27). -/
def execMfirst (d : Fin 32) (a : Fin 8) (s : State) : Host.Outcome State Fault Refusal := .next (s.pushBack (.mfirst d a) d.val)

end Sys2Proof.Machine
end

