-- ==== Sys2Proof/Machine/Reorder.lean ====
section
/-! DEFINITION. Moves across the register, reductions, sorting and merging (R141 to R153). -/

namespace Sys2Proof.Machine

/-- COMPRESS: the active elements go to the lowest positions (R142). -/
def LEnv.compress (n : LEnv) (t : Ty) (d a : Nat) : LaneAct :=
  n.wholeReg [n.count t] (n.actives.zipIdx.foldl (fun acc p => acc.wr d t.bits p.2 (n.l.rd a t.bits p.1)) n.l)

/-- EXPAND: the active positions take consecutive elements (R143). -/
def LEnv.expand (n : LEnv) (t : Ty) (d a : Nat) : LaneAct :=
  n.wholeReg [n.count t] (n.actives.zipIdx.foldl (fun acc p => acc.wr d t.bits p.1 (n.l.rd a t.bits p.2)) n.l)

/-- The index that VPERM reads for element e: for 8-bit types from a pair read as N16 (R144). -/
def LEnv.permIdx (n : LEnv) (t : Ty) (b e : Nat) : Nat := if t.bits = 8 then n.rdG b 16 e else n.l.rd b t.bits e

/-- VPERM (R144). -/
def LEnv.perm (n : LEnv) (t : Ty) (d a b : Nat) : LaneAct :=
  n.wholeReg [n.count t] (n.overActive (fun acc e =>
    let i := n.permIdx t b e
    acc.wr d t.bits e (if i < n.l.vl.toNat then n.l.rd a t.bits i else 0)) 0 n.l.vl.toNat)

/-- The slide count of VSLUP and VSLDN (R145). -/
def LEnv.slideBy (n : LEnv) (b : BOp) : Nat :=
  match b with
  | .imm i _ => i.toNat
  | _ => n.x.toNat

/-- VSLUP and VSLDN: by elements on unscaled types, by whole blocks on scaled ones (R133, R145). An F8 block's scale is its even
lane's side byte, which every write copies into the odd lane (R16) [log 83]. -/
def LEnv.slide (n : LEnv) (up : Bool) (t : Ty) (d a : Nat) (b : BOp) : LaneAct :=
  let s := n.slideBy b
  let c := n.count t
  if t.isBlock then
    if s % 16 = 0 ∧ n.l.vl.toNat % 16 = 0 then
      n.wholeReg [c] (n.overAll (fun acc e =>
        if up then
          if s ≤ e then (acc.setData d t.bits e (n.l.rd a t.bits (e - s))).setScale t d e (n.l.scaleOf t a (e - s)) else acc
        else if e + s < c then (acc.setData d t.bits e (n.l.rd a t.bits (e + s))).setScale t d e (n.l.scaleOf t a (e + s))
        else (acc.setData d t.bits e 0).setScale t d e 0x7F) 0 n.l.vl.toNat)
    else .illegal
  else
    n.wholeReg [c] (n.overActive (fun acc e =>
      if up then (if s ≤ e then acc.wr d t.bits e (n.l.rd a t.bits (e - s)) else acc)
      else acc.wr d t.bits e (if e + s < c then n.l.rd a t.bits (e + s) else 0)) 0 n.l.vl.toNat)

/-- VBCAST (R146). -/
def LEnv.bcast (n : LEnv) (t : Ty) (d : Nat) (b : BOp) : LaneAct :=
  n.elemwise [n.count t] (groupOf t.bits) fun acc e => acc.wr d t.bits e (n.bBits t (groupOf t.bits) b e)

/-- The side bytes of a unit of type t that reads unit i of register a: 0x00 for an unscaled type, both blocks' scales for C4,
and for F8 the even lane's byte in both lanes, as R16 has every write leave them; R147's side bytes are those [DEDUCED,
log 83]. -/
def LEnv.unitSides (n : LEnv) (t : Ty) (a i : Nat) : Nat × Nat :=
  if t == .c4 then (n.l.side a (2 * i), n.l.side a (2 * i + 1))
  else if t.isF8 then (n.l.side a (2 * i), n.l.side a (2 * i))
  else (0, 0)

/-- BPERM: 128-bit units with their side bytes (R147). VL counts units of T, and is compared with the elements of T alone (R132)
[DEDUCED, log 116]. -/
def LEnv.bperm (n : LEnv) (t : Ty) (d a b : Nat) : LaneAct :=
  if n.l.vl.toNat * t.bits % 128 ≠ 0 then .illegal
  else
    let u := n.l.vl.toNat * t.bits / 128
    let fill := if t.isBlock then 0x7F else 0
    n.wholeReg [n.count t] ((List.range u).foldl (fun acc j =>
      let i := n.l.rd b 16 j
      let sides := n.unitSides t a i
      if i < u then ((acc.setData d 128 j (n.l.rd a 128 i)).setSide d (2 * j) sides.1).setSide d (2 * j + 1) sides.2
      else ((acc.setData d 128 j 0).setSide d (2 * j) fill).setSide d (2 * j + 1) fill) n.l)

/-- VZIP.ZIP (R148). -/
def LEnv.zip (n : LEnv) (t : Ty) (d a b : Nat) : LaneAct :=
  n.wholeReg [n.count t] (n.overActive (fun acc e =>
    (acc.wrG n.cap d t.bits (2 * e) (n.l.rd a t.bits e)).wrG n.cap d t.bits (2 * e + 1) (n.l.rd b t.bits e)) 0 n.l.vl.toNat)

/-- VZIP.UNZIP (R148). -/
def LEnv.unzip (n : LEnv) (t : Ty) (d a : Nat) : LaneAct :=
  n.wholeReg [n.count t] (n.overActive (fun acc e =>
    (acc.wr d t.bits e (n.rdG a t.bits (2 * e))).wr (d + 1) t.bits e (n.rdG a t.bits (2 * e + 1))) 0 n.l.vl.toNat)

/-- Element 0 as VMOVE.EXT returns it (R149). -/
def extValue (t : Ty) (x : Nat) : X64 := if t.isInt then extendInt t x else BitVec.ofNat 64 x

/-- A reduction into element 0; with VL = 0 no element changes (R11, R150, R151). -/
def LEnv.reduce (n : LEnv) (t : Ty) (d b : Nat) (f : Lane × Nat → Nat → Lane × Nat) (xs : List Nat) : LaneAct :=
  n.wholeReg [n.count t]
    (if n.l.vl = 0 then n.l
     else
       let r := xs.foldl f (n.l, n.l.rd b t.bits 0)
       r.1.wr d t.bits 0 r.2)

/-- RED: one operation over B[0] and the active elements, in increasing order (R56, R150). -/
def LEnv.red (n : LEnv) (o : IOp) (t : Ty) (sat : Bool) (d a b : Nat) : LaneAct :=
  n.reduce t d b (fun p e =>
    let r := intOp o t sat p.2 (n.l.rd a t.bits e) 0
    (p.1.raiseInt r.2 false, r.1)) n.actives

/-- One rounded addition of a float sum. -/
def sumStep (t : Ty) (mode : RMode) (l : Lane) (x y : Nat) : Lane × Nat :=
  let r := floatOp .add t 7 (l.env mode) (decodeFloat t x) (decodeFloat t y) (.fin false 0 0)
  (l.keep r.2, r.1)

/-- FRED.OSUM: element order (R54). -/
def LEnv.osum (n : LEnv) (t : Ty) (d a b : Nat) : LaneAct :=
  n.reduce t d b (fun p e => sumStep t (n.l.mode 0) p.1 p.2 (n.l.rd a t.bits e)) n.actives

/-- Add adjacent pairs of one level of the tree, left to right (R55). -/
def pairSums (t : Ty) (mode : RMode) : Lane → List Nat → Lane × List Nat
  | l, x :: y :: rest =>
    let r := sumStep t mode l x y
    let q := pairSums t mode r.1 rest
    (q.1, r.2 :: q.2)
  | l, xs => (l, xs)

/-- Sum a list of 2^k values as a pairwise tree (R55). -/
def treeSum (t : Ty) (mode : RMode) : Nat → Lane → List Nat → Lane × Nat
  | 0, l, xs => (l, xs.headD 0)
  | k + 1, l, xs =>
    let r := pairSums t mode l xs
    treeSum t mode k r.1 r.2

/-- The level count of the tree: the least k with VL ≤ 2^k (R55). -/
def treeLevels (vl : Nat) : Nat := if vl ≤ 1 then 0 else Nat.log2 (vl - 1) + 1

/-- FRED.TSUM: the fixed tree, the initial value last (R55). -/
def LEnv.tsum (n : LEnv) (t : Ty) (d a b : Nat) : LaneAct :=
  let mode := n.l.mode 0
  let idn := if mode = .rdn then 0 else signBit t
  let k := treeLevels n.l.vl.toNat
  let xs := (List.range (2 ^ k)).map fun e => if e < n.l.vl.toNat ∧ n.l.gov e then n.l.rd a t.bits e else idn
  n.wholeReg [n.count t]
    (if n.l.vl = 0 then n.l
     else
       let r := treeSum t mode k n.l xs
       let q := sumStep t mode r.1 (n.l.rd b t.bits 0) r.2
       q.1.wr d t.bits 0 q.2)

/-- FRED.MIN and FRED.MAX (R119, R151). Without an active element there is no comparison and D[0] is B[0] bit for bit, a NaN's
payload included [DESIGN CHOICE, log 82]. -/
def LEnv.fredMm (n : LEnv) (isMax : Bool) (t : Ty) (d a b : Nat) : LaneAct :=
  n.reduce t d b (fun p e => (p.1, fminmax isMax t p.2 (n.l.rd a t.bits e))) n.actives

/-- Insert a key and payload behind every key not above it: a stable ascending sort (R152). -/
def insertKey (t : Ty) (p : Nat × Nat) : List (Nat × Nat) → List (Nat × Nat)
  | [] => [p]
  | q :: rest => if intVal t p.1 < intVal t q.1 then p :: q :: rest else q :: insertKey t p rest

/-- VSORT: every element group of eight keys with their payloads (R152). -/
def LEnv.sort (n : LEnv) (t : Ty) (d a : Nat) : LaneAct :=
  let vl := n.l.vl.toNat
  n.wholeReg [n.count t] ((List.range ((vl + 7) / 8)).foldl (fun acc j =>
    let es := List.range' (8 * j) (min (8 * j + 8) vl - 8 * j)
    let sorted := es.foldl (fun q e => insertKey t (n.l.rd a 64 e, n.l.rd (a + 1) 64 e) q) []
    sorted.zipIdx.foldl (fun acc p =>
      (acc.wr d 64 (8 * j + p.2) p.1.1).wr (d + 1) 64 (8 * j + p.2) p.1.2) acc) n.l)

/-- Merge two runs; equal keys take a before b (R153). -/
def mergeKeys (t : Ty) : Nat → List (Nat × Nat) → List (Nat × Nat) → List (Nat × Nat)
  | 0, _, _ => []
  | _ + 1, [], ys => ys
  | _ + 1, xs, [] => xs
  | k + 1, x :: xs, y :: ys =>
    if intVal t y.1 < intVal t x.1 then y :: mergeKeys t k (x :: xs) ys else x :: mergeKeys t k xs (y :: ys)

/-- A pair register group as keys and payloads, the first VL of them. -/
def LEnv.pairs (n : LEnv) (a : Nat) : List (Nat × Nat) :=
  (List.range n.l.vl.toNat).map fun e => (n.l.rd a 64 e, n.l.rd (a + 1) 64 e)

/-- VMRG: the low or the high half of the merged order (R153). -/
def LEnv.mrg (n : LEnv) (hi : Bool) (t : Ty) (d a b : Nat) : LaneAct :=
  let vl := n.l.vl.toNat
  let out := mergeKeys t (2 * vl) (n.pairs a) (n.pairs b)
  n.wholeReg [n.count t] (((out.drop (if hi then vl else 0)).take vl).zipIdx.foldl (fun acc p =>
    (acc.wr d 64 p.2 p.1.1).wr (d + 1) 64 p.2 p.1.2) n.l)

/-- COMPRESS in the lanes (R142). -/
def laneCompress (d a : Fin 32) (t : Ty) (n : LEnv) : LaneAct :=
  n.compress t d.val a.val
/-- COMPRESS at the slice: pushed (R24, R62). -/
def execCompress (d a : Fin 32) (t : Ty) (s : State) : Host.Outcome State Fault Refusal := .next (s.pushVector (.compress d a t) 0)

/-- EXPAND in the lanes (R143). -/
def laneExpand (d a : Fin 32) (t : Ty) (n : LEnv) : LaneAct :=
  n.expand t d.val a.val
/-- EXPAND at the slice: pushed (R24, R62). -/
def execExpand (d a : Fin 32) (t : Ty) (s : State) : Host.Outcome State Fault Refusal := .next (s.pushVector (.expand d a t) 0)

/-- IOTA in the lanes (R141). -/
def laneIota (d : Fin 32) (t : Ty) (n : LEnv) : LaneAct :=
  n.elemwise [n.count t] (groupOf t.bits) fun acc e => acc.wr d.val t.bits e e
/-- IOTA at the slice: pushed (R24, R62). -/
def execIota (d : Fin 32) (t : Ty) (s : State) : Host.Outcome State Fault Refusal := .next (s.pushVector (.iota d t) 0)

/-- VPERM in the lanes (R144). -/
def laneVperm (d a b : Fin 32) (t : Ty) (n : LEnv) : LaneAct :=
  n.perm t d.val a.val b.val
/-- VPERM at the slice: pushed (R24, R62). -/
def execVperm (d a b : Fin 32) (t : Ty) (s : State) : Host.Outcome State Fault Refusal := .next (s.pushVector (.vperm d a b t) 0)

/-- VSLUP_VS in the lanes (R145). -/
def laneVslupVs (d a _b : Fin 32) (t : Ty) (n : LEnv) : LaneAct :=
  n.slide true t d.val a.val .scal
/-- VSLUP_VS at the slice: pushed (R24, R62). -/
def execVslupVs (d a b : Fin 32) (t : Ty) (s : State) : Host.Outcome State Fault Refusal := .next (s.pushVector (.vslupVs d a b t) (s.me.rx b.val))

/-- VSLUP_VI in the lanes (R145). -/
def laneVslupVi (d a : Fin 32) (i : BitVec 9) (t : Ty) (n : LEnv) : LaneAct :=
  n.slide true t d.val a.val (.imm i false)
/-- VSLUP_VI at the slice: pushed (R24, R62). -/
def execVslupVi (d a : Fin 32) (i : BitVec 9) (t : Ty) (s : State) : Host.Outcome State Fault Refusal := .next (s.pushVector (.vslupVi d a i t) 0)

/-- VSLDN_VS in the lanes (R145). -/
def laneVsldnVs (d a _b : Fin 32) (t : Ty) (n : LEnv) : LaneAct :=
  n.slide false t d.val a.val .scal
/-- VSLDN_VS at the slice: pushed (R24, R62). -/
def execVsldnVs (d a b : Fin 32) (t : Ty) (s : State) : Host.Outcome State Fault Refusal := .next (s.pushVector (.vsldnVs d a b t) (s.me.rx b.val))

/-- VSLDN_VI in the lanes (R145). -/
def laneVsldnVi (d a : Fin 32) (i : BitVec 9) (t : Ty) (n : LEnv) : LaneAct :=
  n.slide false t d.val a.val (.imm i false)
/-- VSLDN_VI at the slice: pushed (R24, R62). -/
def execVsldnVi (d a : Fin 32) (i : BitVec 9) (t : Ty) (s : State) : Host.Outcome State Fault Refusal := .next (s.pushVector (.vsldnVi d a i t) 0)

/-- VBCAST_VS in the lanes (R146). -/
def laneVbcastVs (d _b : Fin 32) (t : Ty) (n : LEnv) : LaneAct :=
  n.bcast t d.val .scal
/-- VBCAST_VS at the slice: pushed (R24, R62). -/
def execVbcastVs (d b : Fin 32) (t : Ty) (s : State) : Host.Outcome State Fault Refusal := .next (s.pushVector (.vbcastVs d b t) (s.me.rx b.val))

/-- VBCAST_VI in the lanes (R146). -/
def laneVbcastVi (d : Fin 32) (i : BitVec 9) (t : Ty) (n : LEnv) : LaneAct :=
  n.bcast t d.val (.imm i false)
/-- VBCAST_VI at the slice: pushed (R24, R62). -/
def execVbcastVi (d : Fin 32) (i : BitVec 9) (t : Ty) (s : State) : Host.Outcome State Fault Refusal := .next (s.pushVector (.vbcastVi d i t) 0)

/-- BPERM in the lanes (R147). -/
def laneBperm (d a b : Fin 32) (t : Ty) (n : LEnv) : LaneAct :=
  n.bperm t d.val a.val b.val
/-- BPERM at the slice: pushed (R24, R62). -/
def execBperm (d a b : Fin 32) (t : Ty) (s : State) : Host.Outcome State Fault Refusal := .next (s.pushVector (.bperm d a b t) 0)

/-- VZIP_ZIP in the lanes (R148). -/
def laneVzipZip (d a b : Fin 32) (t : Ty) (n : LEnv) : LaneAct :=
  n.zip t d.val a.val b.val
/-- VZIP_ZIP at the slice: pushed (R24, R62). -/
def execVzipZip (d a b : Fin 32) (t : Ty) (s : State) : Host.Outcome State Fault Refusal := .next (s.pushVector (.vzipZip d a b t) 0)

/-- VZIP_UNZIP in the lanes (R148). -/
def laneVzipUnzip (d a : Fin 32) (t : Ty) (n : LEnv) : LaneAct :=
  n.unzip t d.val a.val
/-- VZIP_UNZIP at the slice: pushed (R24, R62). -/
def execVzipUnzip (d a : Fin 32) (t : Ty) (s : State) : Host.Outcome State Fault Refusal := .next (s.pushVector (.vzipUnzip d a t) 0)

/-- VMOVE_EXT in the lanes (R149). -/
def laneVmoveExt (_d a : Fin 32) (t : Ty) (n : LEnv) : LaneAct :=
  .back (extValue t (n.l.rd a.val t.bits 0)) n.l
/-- VMOVE_EXT: a back-flow (R149, R27). -/
def execVmoveExt (d a : Fin 32) (t : Ty) (s : State) : Host.Outcome State Fault Refusal := .next (s.pushBack (.vmoveExt d a t) d.val)

/-- VMOVE_INS in the lanes (R149). -/
def laneVmoveIns (d a : Fin 32) (t : Ty) (n : LEnv) : LaneAct :=
  .whole (n.l.wr d.val t.bits 0 (n.l.rd a.val t.bits 0))
/-- VMOVE_INS at the slice: pushed (R24, R62). -/
def execVmoveIns (d a : Fin 32) (t : Ty) (s : State) : Host.Outcome State Fault Refusal := .next (s.pushVector (.vmoveIns d a t) 0)

/-- VMOVE_ELT in the lanes (R149). -/
def laneVmoveElt (d a : Fin 32) (t : Ty) (n : LEnv) : LaneAct :=
  n.elemwise [n.count t] (groupOf t.bits) fun acc e => acc.wr d.val t.bits e (n.l.rd a.val t.bits e)
/-- VMOVE_ELT at the slice: pushed (R24, R62). -/
def execVmoveElt (d a : Fin 32) (t : Ty) (s : State) : Host.Outcome State Fault Refusal := .next (s.pushVector (.vmoveElt d a t) 0)

/-- RED_SUM in the lanes (R150). -/
def laneRedSum (d a b : Fin 32) (t : Ty) (sat : Bool) (n : LEnv) : LaneAct :=
  n.red .add t sat d.val a.val b.val
/-- RED_SUM at the slice: pushed (R24, R62). -/
def execRedSum (d a b : Fin 32) (t : Ty) (sat : Bool) (s : State) : Host.Outcome State Fault Refusal := .next (s.pushVector (.redSum d a b t sat) 0)

/-- RED_MIN in the lanes (R150). -/
def laneRedMin (d a b : Fin 32) (t : Ty) (n : LEnv) : LaneAct :=
  n.red .min t false d.val a.val b.val
/-- RED_MIN at the slice: pushed (R24, R62). -/
def execRedMin (d a b : Fin 32) (t : Ty) (s : State) : Host.Outcome State Fault Refusal := .next (s.pushVector (.redMin d a b t) 0)

/-- RED_MAX in the lanes (R150). -/
def laneRedMax (d a b : Fin 32) (t : Ty) (n : LEnv) : LaneAct :=
  n.red .max t false d.val a.val b.val
/-- RED_MAX at the slice: pushed (R24, R62). -/
def execRedMax (d a b : Fin 32) (t : Ty) (s : State) : Host.Outcome State Fault Refusal := .next (s.pushVector (.redMax d a b t) 0)

/-- RED_AND in the lanes (R150). -/
def laneRedAnd (d a b : Fin 32) (t : Ty) (n : LEnv) : LaneAct :=
  n.red .and t false d.val a.val b.val
/-- RED_AND at the slice: pushed (R24, R62). -/
def execRedAnd (d a b : Fin 32) (t : Ty) (s : State) : Host.Outcome State Fault Refusal := .next (s.pushVector (.redAnd d a b t) 0)

/-- RED_OR in the lanes (R150). -/
def laneRedOr (d a b : Fin 32) (t : Ty) (n : LEnv) : LaneAct :=
  n.red .or t false d.val a.val b.val
/-- RED_OR at the slice: pushed (R24, R62). -/
def execRedOr (d a b : Fin 32) (t : Ty) (s : State) : Host.Outcome State Fault Refusal := .next (s.pushVector (.redOr d a b t) 0)

/-- RED_XOR in the lanes (R150). -/
def laneRedXor (d a b : Fin 32) (t : Ty) (n : LEnv) : LaneAct :=
  n.red .xor t false d.val a.val b.val
/-- RED_XOR at the slice: pushed (R24, R62). -/
def execRedXor (d a b : Fin 32) (t : Ty) (s : State) : Host.Outcome State Fault Refusal := .next (s.pushVector (.redXor d a b t) 0)

/-- FRED_OSUM in the lanes (R54). -/
def laneFredOsum (d a b : Fin 32) (t : Ty) (n : LEnv) : LaneAct :=
  n.osum t d.val a.val b.val
/-- FRED_OSUM at the slice: pushed (R24, R62). -/
def execFredOsum (d a b : Fin 32) (t : Ty) (s : State) : Host.Outcome State Fault Refusal := .next (s.pushVector (.fredOsum d a b t) 0)

/-- FRED_TSUM in the lanes (R55). -/
def laneFredTsum (d a b : Fin 32) (t : Ty) (n : LEnv) : LaneAct :=
  n.tsum t d.val a.val b.val
/-- FRED_TSUM at the slice: pushed (R24, R62). -/
def execFredTsum (d a b : Fin 32) (t : Ty) (s : State) : Host.Outcome State Fault Refusal := .next (s.pushVector (.fredTsum d a b t) 0)

/-- FRED_MIN in the lanes (R151). -/
def laneFredMin (d a b : Fin 32) (t : Ty) (n : LEnv) : LaneAct :=
  n.fredMm false t d.val a.val b.val
/-- FRED_MIN at the slice: pushed (R24, R62). -/
def execFredMin (d a b : Fin 32) (t : Ty) (s : State) : Host.Outcome State Fault Refusal := .next (s.pushVector (.fredMin d a b t) 0)

/-- FRED_MAX in the lanes (R151). -/
def laneFredMax (d a b : Fin 32) (t : Ty) (n : LEnv) : LaneAct :=
  n.fredMm true t d.val a.val b.val
/-- FRED_MAX at the slice: pushed (R24, R62). -/
def execFredMax (d a b : Fin 32) (t : Ty) (s : State) : Host.Outcome State Fault Refusal := .next (s.pushVector (.fredMax d a b t) 0)

/-- VMRG_LO in the lanes (R153). -/
def laneVmrgLo (d a b : Fin 32) (t : Ty) (n : LEnv) : LaneAct :=
  n.mrg false t d.val a.val b.val
/-- VMRG_LO at the slice: pushed (R24, R62). -/
def execVmrgLo (d a b : Fin 32) (t : Ty) (s : State) : Host.Outcome State Fault Refusal := .next (s.pushVector (.vmrgLo d a b t) 0)

/-- VMRG_HI in the lanes (R153). -/
def laneVmrgHi (d a b : Fin 32) (t : Ty) (n : LEnv) : LaneAct :=
  n.mrg true t d.val a.val b.val
/-- VMRG_HI at the slice: pushed (R24, R62). -/
def execVmrgHi (d a b : Fin 32) (t : Ty) (s : State) : Host.Outcome State Fault Refusal := .next (s.pushVector (.vmrgHi d a b t) 0)

/-- VSORT in the lanes (R152). -/
def laneVsort (d a : Fin 32) (t : Ty) (n : LEnv) : LaneAct :=
  n.sort t d.val a.val
/-- VSORT at the slice: pushed (R24, R62). -/
def execVsort (d a : Fin 32) (t : Ty) (s : State) : Host.Outcome State Fault Refusal := .next (s.pushVector (.vsort d a t) 0)

end Sys2Proof.Machine
end

