-- ==== Sys2Proof/Machine/Issue.lean ====
section
/-! DEFINITION. Issue within a core (R275): one element group of the head entry of a thread's control queue, its retirement,
and the clearing of the slice's stalls (R25, R85, R86, R97, R169, R288, R358). -/

namespace Sys2Proof.Machine

/-- What an entry that stays in the lanes does, for the instructions that have one. -/
def laneOf (i : Instr) (n : LEnv) : Option LaneAct :=
  match i with
  | .addVv d a b t q c => some (laneAddVv d a b t q c n)
  | .addVs d a b t q => some (laneAddVs d a b t q n)
  | .addVi d a im t => some (laneAddVi d a im t n)
  | .subVv d a b t q c => some (laneSubVv d a b t q c n)
  | .subVs d a b t q => some (laneSubVs d a b t q n)
  | .subVi d a im t => some (laneSubVi d a im t n)
  | .mulVv d a b t q c => some (laneMulVv d a b t q c n)
  | .mulVs d a b t q => some (laneMulVs d a b t q n)
  | .mulVi d a im t => some (laneMulVi d a im t n)
  | .mulhVv d a b t c => some (laneMulhVv d a b t c n)
  | .mulhVs d a b t => some (laneMulhVs d a b t n)
  | .mulhVi d a im t => some (laneMulhVi d a im t n)
  | .minVv d a b t c => some (laneMinVv d a b t c n)
  | .minVs d a b t => some (laneMinVs d a b t n)
  | .minVi d a im t => some (laneMinVi d a im t n)
  | .maxVv d a b t c => some (laneMaxVv d a b t c n)
  | .maxVs d a b t => some (laneMaxVs d a b t n)
  | .maxVi d a im t => some (laneMaxVi d a im t n)
  | .andVv d a b t c => some (laneAndVv d a b t c n)
  | .andVs d a b t => some (laneAndVs d a b t n)
  | .andVi d a im t => some (laneAndVi d a im t n)
  | .orVv d a b t c => some (laneOrVv d a b t c n)
  | .orVs d a b t => some (laneOrVs d a b t n)
  | .orVi d a im t => some (laneOrVi d a im t n)
  | .xorVv d a b t c => some (laneXorVv d a b t c n)
  | .xorVs d a b t => some (laneXorVs d a b t n)
  | .xorVi d a im t => some (laneXorVi d a im t n)
  | .shlVv d a b t q c => some (laneShlVv d a b t q c n)
  | .shlVs d a b t q => some (laneShlVs d a b t q n)
  | .shlVi d a im t => some (laneShlVi d a im t n)
  | .shrVv d a b t c => some (laneShrVv d a b t c n)
  | .shrVs d a b t => some (laneShrVs d a b t n)
  | .shrVi d a im t => some (laneShrVi d a im t n)
  | .shraVv d a b t c => some (laneShraVv d a b t c n)
  | .shraVs d a b t => some (laneShraVs d a b t n)
  | .shraVi d a im t => some (laneShraVi d a im t n)
  | .maddVv d a b t q c => some (laneMaddVv d a b t q c n)
  | .maddVs d a b t q => some (laneMaddVs d a b t q n)
  | .maddVi d a im t => some (laneMaddVi d a im t n)
  | .divVv d a b t q c => some (laneDivVv d a b t q c n)
  | .divVs d a b t q => some (laneDivVs d a b t q n)
  | .remVv d a b t c => some (laneRemVv d a b t c n)
  | .remVs d a b t => some (laneRemVs d a b t n)
  | .rshrVv d a b t c => some (laneRshrVv d a b t c n)
  | .rshrVs d a b t => some (laneRshrVs d a b t n)
  | .rshrVi d a im t => some (laneRshrVi d a im t n)
  | .andnVv d a b t c => some (laneAndnVv d a b t c n)
  | .andnVs d a b t => some (laneAndnVs d a b t n)
  | .andnVi d a im t => some (laneAndnVi d a im t n)
  | .clzVv d a t => some (laneClzVv d a t n)
  | .popcVv d a t => some (lanePopcVv d a t n)
  | .pickVv d a b t c => some (lanePickVv d a b t c n)
  | .pickVs d a b t => some (lanePickVs d a b t n)
  | .pickVi d a im t => some (lanePickVi d a im t n)
  | .wmulVv d a b t c => some (laneWmulVv d a b t c n)
  | .wmacVv d a b t q c => some (laneWmacVv d a b t q c n)
  | .wmacVs d a b t q => some (laneWmacVs d a b t q n)
  | .nrshrVv d a b t c => some (laneNrshrVv d a b t c n)
  | .nrshrVs d a b t => some (laneNrshrVs d a b t n)
  | .nrshrVi d a im t => some (laneNrshrVi d a im t n)
  | .absVv d a t q => some (laneAbsVv d a t q n)
  | .faddVv d a b t q c => some (laneFaddVv d a b t q c n)
  | .faddVs d a b t q => some (laneFaddVs d a b t q n)
  | .faddVi d a im t => some (laneFaddVi d a im t n)
  | .fsubVv d a b t q c => some (laneFsubVv d a b t q c n)
  | .fsubVs d a b t q => some (laneFsubVs d a b t q n)
  | .fsubVi d a im t => some (laneFsubVi d a im t n)
  | .fmulVv d a b t q c => some (laneFmulVv d a b t q c n)
  | .fmulVs d a b t q => some (laneFmulVs d a b t q n)
  | .fmulVi d a im t => some (laneFmulVi d a im t n)
  | .fmaVv d a b t q c => some (laneFmaVv d a b t q c n)
  | .fmaVs d a b t q => some (laneFmaVs d a b t q n)
  | .fmaVi d a im t => some (laneFmaVi d a im t n)
  | .fnmsVv d a b t q c => some (laneFnmsVv d a b t q c n)
  | .fnmsVs d a b t q => some (laneFnmsVs d a b t q n)
  | .fnmsVi d a im t => some (laneFnmsVi d a im t n)
  | .fnmaVv d a b t q c => some (laneFnmaVv d a b t q c n)
  | .fnmaVs d a b t q => some (laneFnmaVs d a b t q n)
  | .fnmaVi d a im t => some (laneFnmaVi d a im t n)
  | .fminVv d a b t c => some (laneFminVv d a b t c n)
  | .fminVs d a b t => some (laneFminVs d a b t n)
  | .fminVi d a im t => some (laneFminVi d a im t n)
  | .fmaxVv d a b t c => some (laneFmaxVv d a b t c n)
  | .fmaxVs d a b t => some (laneFmaxVs d a b t n)
  | .fmaxVi d a im t => some (laneFmaxVi d a im t n)
  | .fdivVv d a b t q c => some (laneFdivVv d a b t q c n)
  | .fsqrtVv d a t q => some (laneFsqrtVv d a t q n)
  | .frcpVv d a t q => some (laneFrcpVv d a t q n)
  | .frsqVv d a t q => some (laneFrsqVv d a t q n)
  | .fscaleVv d a b t q c => some (laneFscaleVv d a b t q c n)
  | .fscaleVs d a b t q => some (laneFscaleVs d a b t q n)
  | .fscaleVi d a im t => some (laneFscaleVi d a im t n)
  | .frintVv d a t q => some (laneFrintVv d a t q n)
  | .fclassVv d a t => some (laneFclassVv d a t n)
  | .fsgnAbs d a t => some (laneFsgnAbs d a t n)
  | .fsgnNeg d a t => some (laneFsgnNeg d a t n)
  | .fsgnCopy d a b t => some (laneFsgnCopy d a b t n)
  | .cvtVv d a u t m => some (laneCvtVv d a u t m n)
  | .cvts d a u t m => some (laneCvts d a u t m n)
  | .cvtw d a u t m => some (laneCvtw d a u t m n)
  | .scld d a u t m => some (laneScld d a u t m n)
  | .cbld k a => some (laneCbld k a n)
  | .cmpEqVv d a b t c => some (laneCmpEqVv d a b t c n)
  | .cmpEqVs d a b t => some (laneCmpEqVs d a b t n)
  | .cmpEqVi d a im t => some (laneCmpEqVi d a im t n)
  | .cmpNeVv d a b t c => some (laneCmpNeVv d a b t c n)
  | .cmpNeVs d a b t => some (laneCmpNeVs d a b t n)
  | .cmpNeVi d a im t => some (laneCmpNeVi d a im t n)
  | .cmpLtVv d a b t c => some (laneCmpLtVv d a b t c n)
  | .cmpLtVs d a b t => some (laneCmpLtVs d a b t n)
  | .cmpLtVi d a im t => some (laneCmpLtVi d a im t n)
  | .cmpLeVv d a b t c => some (laneCmpLeVv d a b t c n)
  | .cmpLeVs d a b t => some (laneCmpLeVs d a b t n)
  | .cmpLeVi d a im t => some (laneCmpLeVi d a im t n)
  | .fcmpEqVv d a b t c => some (laneFcmpEqVv d a b t c n)
  | .fcmpEqVs d a b t => some (laneFcmpEqVs d a b t n)
  | .fcmpEqVi d a im t => some (laneFcmpEqVi d a im t n)
  | .fcmpLtVv d a b t c => some (laneFcmpLtVv d a b t c n)
  | .fcmpLtVs d a b t => some (laneFcmpLtVs d a b t n)
  | .fcmpLtVi d a im t => some (laneFcmpLtVi d a im t n)
  | .fcmpLeVv d a b t c => some (laneFcmpLeVv d a b t c n)
  | .fcmpLeVs d a b t => some (laneFcmpLeVs d a b t n)
  | .fcmpLeVi d a im t => some (laneFcmpLeVi d a im t n)
  | .fcmpUnVv d a b t c => some (laneFcmpUnVv d a b t c n)
  | .fcmpUnVs d a b t => some (laneFcmpUnVs d a b t n)
  | .fcmpUnVi d a im t => some (laneFcmpUnVi d a im t n)
  | .mlogAnd d a b => some (laneMlogAnd d a b n)
  | .mlogOr d a b => some (laneMlogOr d a b n)
  | .mlogXor d a b => some (laneMlogXor d a b n)
  | .msbf d a => some (laneMsbf d a n)
  | .msif d a => some (laneMsif d a n)
  | .mpopc d a => some (laneMpopc d a n)
  | .mfirst d a => some (laneMfirst d a n)
  | .msetAll d => some (laneMsetAll d n)
  | .msetNone d => some (laneMsetNone d n)
  | .msetVl d => some (laneMsetVl d n)
  | .compress d a t => some (laneCompress d a t n)
  | .expand d a t => some (laneExpand d a t n)
  | .iota d t => some (laneIota d t n)
  | .vperm d a b t => some (laneVperm d a b t n)
  | .vslupVs d a b t => some (laneVslupVs d a b t n)
  | .vslupVi d a im t => some (laneVslupVi d a im t n)
  | .vsldnVs d a b t => some (laneVsldnVs d a b t n)
  | .vsldnVi d a im t => some (laneVsldnVi d a im t n)
  | .vbcastVs d b t => some (laneVbcastVs d b t n)
  | .vbcastVi d im t => some (laneVbcastVi d im t n)
  | .bperm d a b t => some (laneBperm d a b t n)
  | .vzipZip d a b t => some (laneVzipZip d a b t n)
  | .vzipUnzip d a t => some (laneVzipUnzip d a t n)
  | .vmoveExt d a t => some (laneVmoveExt d a t n)
  | .vmoveIns d a t => some (laneVmoveIns d a t n)
  | .vmoveElt d a t => some (laneVmoveElt d a t n)
  | .redSum d a b t sat => some (laneRedSum d a b t sat n)
  | .redMin d a b t => some (laneRedMin d a b t n)
  | .redMax d a b t => some (laneRedMax d a b t n)
  | .redAnd d a b t => some (laneRedAnd d a b t n)
  | .redOr d a b t => some (laneRedOr d a b t n)
  | .redXor d a b t => some (laneRedXor d a b t n)
  | .fredOsum d a b t => some (laneFredOsum d a b t n)
  | .fredTsum d a b t => some (laneFredTsum d a b t n)
  | .fredMin d a b t => some (laneFredMin d a b t n)
  | .fredMax d a b t => some (laneFredMax d a b t n)
  | .vmrgLo d a b t => some (laneVmrgLo d a b t n)
  | .vmrgHi d a b t => some (laneVmrgHi d a b t n)
  | .vsort d a t => some (laneVsort d a t n)
  | .mmaAccRegister d a b t m g => some (laneMmaAccRegister d a b t m g n)
  | .mmaZeroRegister d a b t m g => some (laneMmaZeroRegister d a b t m g n)
  | .accrd d a t q sat => some (laneAccrd d a t q sat n)
  | .accwr d a t => some (laneAccwr d a t n)
  | .accz d => some (laneAccz d n)
  | .dfma d a b q => some (laneDfma d a b q n)
  | _ => none

/-- An entry that reaches beyond the lanes: the loft or memory. -/
def State.memOf (s : State) (k : Nat) (e : Entry) (i : Instr) : Option (Res (State × MemStep)) :=
  match i with
  | .ldr d q _ t => some (.ok (s.resident k e false d.val q.val t (ResIndex.scal)))
  | .str d q _ t => some (.ok (s.resident k e true d.val q.val t (ResIndex.scal)))
  | .ldrx d q b t => some (.ok (s.resident k e false d.val q.val t (ResIndex.vec b.val)))
  | .strx d q b t => some (.ok (s.resident k e true d.val q.val t (ResIndex.vec b.val)))
  | .mmaAccResident d a q t m g => some (.ok (s.mmaResident k e t m.val d.val a.val q.val g.val false))
  | .mmaZeroResident d a q t m g => some (.ok (s.mmaResident k e t m.val d.val a.val q.val g.val true))
  | .ldf _ d a _ t ord urg _ => some (s.farEntry k e { store := false, d := d.val, t := t, idx := none } a.val ord urg)
  | .ldfx _ d a b t ord urg _ => some (s.farEntry k e { store := false, d := d.val, t := t, idx := some b.val } a.val ord urg)
  | .stf _ d a _ t ord urg _ => some (s.farEntry k e { store := true, d := d.val, t := t, idx := none } a.val ord urg)
  | .stfx _ d a b t ord urg _ => some (s.farEntry k e { store := true, d := d.val, t := t, idx := some b.val } a.val ord urg)
  | .stfm _ d a _ t ord urg _ => some (s.castEntry k e d.val t a.val ord urg)
  | .scaddInt sc d a b t => some (s.scEntry k e sc d.val t b.val a.val false)
  | .scaddFlt sc d a b t => some (s.scEntry k e sc d.val t b.val a.val true)
  | _ => none

/-- Run one element group, or the whole, of an entry that stays in the lanes. -/
def State.runLane (s : State) (k : Nat) (act : LaneAct) : State × MemStep :=
  let vs := (s.slot k).lane.vstart.toNat
  match act with
  | .illegal => (s, .illegal)
  | .whole l => (s.setLane k l, .done)
  | .back v l =>
    (s.modSlot k fun sl =>
      { sl with lane := l, phase := match sl.phase with | .pushed d => .value d v | p => p }, .done)
  | .elems g stop run =>
    if stop ≤ vs then (s.setLane k (run vs vs), .done)
    else
      let hi := min stop ((vs / g + 1) * g)
      (s.setLane k (run vs hi), if hi = stop then .done else .more hi)

/-- Units of a heavy entry from VSTART to its end (R169). -/
def LaneAct.units (a : LaneAct) (vs : Nat) : Nat :=
  match a with
  | .elems g stop _ => if stop ≤ vs then 0 else (stop - 1) / g - vs / g + 1
  | _ => 0

/-- Units of a resident MMA from VSTART to its end. -/
def memUnits (i : Instr) (vs : Nat) : Nat :=
  match i with
  | .mmaAccResident _ _ _ _ _ g => 2 ^ g.val - vs
  | .mmaZeroResident _ _ _ _ _ g => 2 ^ g.val - vs
  | _ => 0

/-! ### Presence -/

/-- May the lanes of slot k begin an element group of the head entry: nothing is frozen, faulted or stopped, no lane fault is
decided, and no pre-emption is about to be taken, but that a store's issued accesses are settled first and in a stop still
(R85, R215, R255, R256, R323). -/
def State.lanesRun (s : State) (k : Nat) : Bool :=
  let sl := s.slot k
  !sl.tr.froz && sl.pend.all (fun p => !p.lane) && sl.cst != .faulted && sl.st != .vacant && (sl.st != .stop || sl.stopping || (sl.closing && s.storesOpen k)) &&
    !(sl.preempt && !sl.tr.inh && sl.st != .stop && sl.pend.all (fun p => !p.lane) && !s.storesOpen k)

/-- Does an entry read a register that is armed empty (R25, R288). -/
def Lane.armedFor (l : Lane) (i : Instr) : Bool := i.reads.any fun r => decide (r < 32) && l.femask.getLsbD r

/-! ### Retirement -/

/-- A completed instruction leaves VSTART at 0 (R15). -/
def State.clearVstart (s : State) (k : Nat) : State := s.modSlot k fun sl => { sl with lane := { sl.lane with vstart := 0 } }

/-- DPRE: elements [0, x) of the head entry are complete; an armed block raises a pre-emption request (R358). -/
def State.dpre (s : State) (k : Nat) (pc : X64) (x : Nat) : State :=
  let d := (s.coreAt (coreOf k)).dbg
  if bitAt d.dpre 63 && decide (fld d.dpre 16 4 = k % 16) && decide (dbkVa (vat d.dbk (fld d.dpre 20 3) 0) = pc.toNat) &&
      decide (fld d.dpre 0 13 ≠ 0) && decide (fld d.dpre 0 13 ≤ x) then
    (s.modCore (coreOf k) fun c => { c with dbg := { c.dbg with dpre := setFld d.dpre 63 1 0 } }).modSlot k fun sl =>
      { sl with preempt := true }
  else s

/-- The head entry after a step: a part done, retired, waiting or faulted (R14, R103). None when nothing has happened. -/
def State.settleEntry (s : State) (k : Nat) (e : Entry) (s' : State) (step : MemStep) : Option State :=
  let vl := (s'.slot k).lane.vl.toNat
  match step with
  | .more v => some ((s'.modSlot k fun sl => { sl with lane := { sl.lane with vstart := BitVec.ofNat 12 v } }).dpre k e.pc v)
  | .done => some (((s'.clearVstart k).dpre k e.pc vl).retireHead k)
  | .wait => if s'.reqs = s.reqs then none else some s'
  | .illegal => if s.laneFree k then some (s'.laneTrap k .illegalOperand 0 e.pc 0) else none
  | .trap code kind tval v =>
    if s.laneFree k then
      some ((s'.modSlot k fun sl => { sl with lane := { sl.lane with vstart := BitVec.ofNat 12 v } }).laneTrap k code kind e.pc tval)
    else none

/-- Does a step begin a unit. -/
def MemStep.begins : MemStep → Bool
  | .more _ => true
  | .done => true
  | _ => false

/-- Change the head entry of slot k. -/
def State.modHead (s : State) (k : Nat) (f : Entry → Entry) : State :=
  s.modSlot k fun sl => { sl with queue := match sl.queue with | e :: t => f e :: t | [] => [] }

/-- A heavy entry's step with its leave: the chunk charges the current bucket before its first unit, or waits (R169, R315). A unit
that was issued while the entry stood behind the head has its leave. -/
def State.withLeave (s : State) (k : Nat) (e : Entry) (i : Instr) (units : Nat) (r : State × MemStep) : Option State :=
  let l := (s.slot k).lane
  match leaveCost i l.slices.toNat l.vl.toNat with
  | none => s.settleEntry k e r.1 r.2
  | some cost =>
    if !r.2.begins || decide (units = 0) then s.settleEntry k e r.1 r.2
    else if e.ahead ≠ 0 then (s.settleEntry k e (r.1.modHead k fun e => { e with ahead := e.ahead - 1 }) r.2)
    else if e.leave ≠ 0 then (s.settleEntry k e (r.1.modHead k fun e => { e with leave := e.leave - 1 }) r.2)
    else
      let c := s.coreAt (coreOf k)
      let n := chunkUnits c.capNow cost units
      if c.mayCharge k e.turn (n * cost) then
        s.settleEntry k e ((r.1.chargeChunk k (n * cost)).modHead k fun e => { e with leave := n - 1 }) r.2
      else if e.turn ≠ 0 then none
      else some (s.awaitChunk k 0)

/-! ### Markers and control registers in the queue -/

/-- A FENCE, WMARK or ENDK marker at the head retires: FENCE.VV and FENCE.ALL are counted, and hold later requests and fills until the
writebacks before them have performed, nothing else; the slice's FENCE.ALL gets its acknowledgement (R27, R231). -/
def State.passMarker (s : State) (k : Nat) (e : Entry) : State :=
  let sl := s.slot k
  let fence := opOf e.word == 0x66
  let s := if fence && decide (2 ≤ e.word.toNat % 8) then s.modSlot k fun sl => { sl with fences := sl.fences + 1 } else s
  let s := if fence && e.word.toNat % 8 == 3 && sl.queue.length == 1 then
      s.modSlot k fun sl => { sl with phase := match sl.phase with | .pushed _ => .value 0 0 | p => p }
    else s
  s.retireHead k

/-- Is an entry the marker of a FENCE.SV or FENCE.ALL (R231). -/
def Entry.fenceSv (e : Entry) : Bool := opOf e.word == 0x66 && (e.word.toNat % 8 == 0 || e.word.toNat % 8 == 3)

/-- An entry that computes nothing: a SETVL makes its grant the lanes' VL (R26, R88). -/
def State.passGrant (s : State) (k : Nat) (e : Entry) (i : Instr) : State :=
  match i with
  | .setvl _ _ _ => (s.modSlot k fun sl => { sl with lane := { sl.lane with vl := e.vl, vstart := 0 } }).retireHead k
  | _ => s.retireHead k

/-- One element group of the head entry of slot k, when it is present (R25, R275). -/
def State.issueHead (s : State) (k : Nat) : Option (Res State) :=
  let sl := s.slot k
  match sl.queue with
  | [] => none
  | e :: _ =>
    if !s.lanesRun k then none
    else
      match e.kind with
      | .counter => none
      | .qMarker => some (.ok ((s.passQMarker k e).retireHead k))
      | .marker =>
        -- What a drained stack kept the FENCE from writing back is written back first (R231, R337).
        if e.fenceSv && s.flushHeld (coreOf k) then none
        else some (.ok ((if e.fenceSv then s.flushCore (coreOf k) else s).passMarker k e))
      | .instr =>
        if !e.p then some (.ok (s.retireHead k))
        else
          match e.ins with
          | none =>
            if isCsrw e.word then
              if csrUnsupported (e.word.toNat % 2048) e.scalar then (s.settleEntry k e s .illegal).map .ok
              else some (.ok ((s.modSlot k fun sl => { sl with lane := sl.lane.setCsr (e.word.toNat % 2048) e.scalar }).retireHead k))
            else some (.ok (s.retireHead k))
          | some i =>
            if sl.lane.armedFor i then none
            else
              match laneOf i (s.lenv k e) with
              | some act => (s.withLeave k e i (act.units sl.lane.vstart.toNat) (s.runLane k act)).map .ok
              | none =>
                match s.memOf k e i with
                | some (.error f) => some (.error f)
                | some (.ok r) => (s.withLeave k e i (memUnits i sl.lane.vstart.toNat) r).map .ok
                | none => some (.ok (s.passGrant k e i))

/-! ### Entries behind the head (R24, R25, R275) -/

/-- The element groups of an entry: the elements of each, how many there are, and whether it chains group by group on what it reads
and is chained upon (R14, R25, R162). -/
structure Span where
  size : Nat
  groups : Nat
  chained : Bool
  deriving DecidableEq, Repr

/-- Is an entry an MMA, whose element groups are k-blocks (R162). -/
def isMma : Instr → Bool
  | .mmaAccRegister .. => true
  | .mmaZeroRegister .. => true
  | .mmaAccResident .. => true
  | .mmaZeroResident .. => true
  | _ => false
/-- WMAC chains group by group on a WMAC or an ACCWR into its group (R156). -/
def isWmac : Instr → Bool
  | .wmacVv .. => true
  | .wmacVs .. => true
  | _ => false
/-- ACCWR. -/
def isAccwr : Instr → Bool
  | .accwr .. => true
  | _ => false

/-- The element groups of an entry of slot k; none when it computes nothing or could not run. A multicast store and a scatter-add
are one whole (R218, R220). -/
def State.spanOf (s : State) (k : Nat) (e : Entry) (i : Instr) : Option Span :=
  let n := s.lenv k e
  let n := { n with l := { n.l with vstart := 0, vl := e.vl } }
  let elems (w : Nat) : Option Span :=
    some { size := groupOf w, groups := (e.vl.toNat + groupOf w - 1) / groupOf w, chained := true }
  match laneOf i n with
  | some (.elems g stop _) => some { size := g, groups := (stop + g - 1) / g, chained := !isMma i }
  | some .illegal => none
  | some _ => some { size := 4096, groups := 1, chained := false }
  | none =>
    match i with
    | .ldr _ _ _ t => elems t.bits
    | .str _ _ _ t => elems t.bits
    | .ldrx _ _ _ t => elems (max 64 t.bits)
    | .strx _ _ _ t => elems (max 64 t.bits)
    | .mmaAccResident _ _ _ _ _ g => some { size := 1, groups := 2 ^ g.val, chained := false }
    | .mmaZeroResident _ _ _ _ _ g => some { size := 1, groups := 2 ^ g.val, chained := false }
    | .ldf _ _ _ _ t _ _ _ => elems t.bits
    | .stf _ _ _ _ t _ _ _ => elems t.bits
    | .ldfx _ _ _ _ t _ _ _ => elems (max 64 t.bits)
    | .stfx _ _ _ _ t _ _ _ => elems (max 64 t.bits)
    | .stfm .. => some { size := 4096, groups := 1, chained := false }
    | .scaddInt .. => some { size := 4096, groups := 1, chained := false }
    | .scaddFlt .. => some { size := 4096, groups := 1, chained := false }
    | _ => none

/-- Does an entry change what later entries find in the lanes' own registers: a CSRW or a SETVL. -/
def Entry.sets (e : Entry) : Bool :=
  e.p && e.kind == .instr && match e.ins with
    | none => isCsrw e.word
    | some (.setvl ..) => true
    | some _ => false

/-- Has an entry begun, or has it no element group of its own: the head once VSTART, a request or a chunk says so, the others once
a group was issued (R24). -/
def State.begunAt (s : State) (k idx : Nat) (e : Entry) : Bool :=
  e.kind != .instr || !e.p || decide (e.ahead ≠ 0) ||
    (decide (idx = 0) && (decide (e.leave ≠ 0) || (s.slot k).lane.vstart != 0 || s.reqs.any fun r => r.owner == 4 * k + 1))

/-- Has the entry at place idx completed its element groups up to g, or all of them, as an entry that reads what it writes needs
(R25, R156, R162): a far access completes a group when it has performed. -/
def State.passed (s : State) (k idx : Nat) (e : Entry) (chain : Bool) (g : Nat) : Bool :=
  match e.ins with
  | none => true
  | some j =>
    match s.spanOf k e j with
    | none => false
    | some sp =>
      let ahead := if e.addressed then 0 else e.ahead
      let done := if idx = 0 then max ahead ((s.slot k).lane.vstart.toNat / sp.size) else ahead
      if chain && sp.chained then decide (g < done) else decide (sp.groups ≤ done)

/-- Has the delivery that an entry behind `before` sees landed (R25, R97, R182). -/
def Slot.landedFor (sl : Slot) (before : List Entry) (q : Nat) : Bool :=
  let r := sl.reg q
  let n := (before.filter fun e => e.kind == .counter && r.desc.advancedBy e.named).length
  r.lanesSee && !(before.any fun e => e.kind == .qMarker && qOfWord e.word == q) &&
    match r.gens[r.past + n]? with
    | some g => g.landed
    | none => false

/-- Must an entry that reads the registers rs wait for register r of an earlier entry j, and if so does it chain on it group by group:
an accumulator group counts when the entry writes it too, and only a WMAC chains on one (R25, R156, R162). -/
def waitsFor (rs : List Nat) (i j : Instr) (chained : Bool) (r : Nat) : Option Bool :=
  if 200 ≤ r ∧ r < 300 then
    if rs.contains r || i.writes.contains r then some (isWmac i && (isWmac j || isAccwr j)) else none
  else if rs.contains r then some chained
  else none

/-- Is the next element group of entry e present behind the entries `before` (R25). -/
def State.presentBehind (s : State) (k : Nat) (before : List Entry) (e : Entry) (i : Instr) (sp : Span) : Bool :=
  let sl := s.slot k
  let rs := sl.readsOf before i
  !sl.lane.armedFor i &&
    (match i.residentSet with | some q => sl.landedFor before q | none => true) &&
    before.zipIdx.all fun b =>
      !b.1.p || match b.1.ins with
        | none => true
        | some j => j.writes.all fun r => match waitsFor rs i j sp.chained r with
          | none => true
          | some chain => s.passed k b.2 b.1 chain e.ahead

/-- Issue one element group of an entry behind the head: its leave is charged or begins to wait (R169, R315), and what it computes or
accesses is kept until it heads the queue, in whose order its results, flags, draws, accesses and faults come [DEDUCED, log 11]. -/
def State.takeAhead (s : State) (k idx : Nat) (e : Entry) (i : Instr) (sp : Span) : Option State :=
  let l := (s.slot k).lane
  match leaveCost i l.slices.toNat e.vl.toNat with
  | none => some (s.modEntry k idx fun e => { e with ahead := e.ahead + 1 })
  | some cost =>
    if e.leave ≠ 0 then some (s.modEntry k idx fun e => { e with ahead := e.ahead + 1, leave := e.leave - 1 })
    else
      let c := s.coreAt (coreOf k)
      let n := chunkUnits c.capNow cost (sp.groups - e.ahead)
      if c.mayCharge k e.turn (n * cost) then
        some ((s.chargeChunk k (n * cost)).modEntry k idx fun e => { e with ahead := e.ahead + 1, leave := n - 1 })
      else if e.turn ≠ 0 then none
      else some (s.awaitChunk k idx)

/-- The first entry behind `before` with a present element group, while every entry before it has begun (R24, R25). -/
def State.issueBehind (s : State) (k : Nat) (before : List Entry) : List Entry → Option State
  | [] => none
  | e :: rest =>
    let begun := s.begunAt k before.length e
    let step : Option State :=
      if before.isEmpty || !e.p then none
      else
        match e.ins with
        | none => none
        | some i =>
          match s.spanOf k e i with
          | none => none
          | some sp =>
            if e.ahead < sp.groups ∧ s.presentBehind k before e i sp = true then s.takeAhead k before.length e i sp else none
    match step with
    | some s => some s
    | none => if begun && !e.sets then s.issueBehind k (before ++ [e]) rest else none

/-! ### The lane allocation table (R11, R89, R316, R317) -/

/-- Is slot k at an instruction boundary of its lanes. -/
def State.atBoundary (s : State) (k : Nat) : Bool :=
  match (s.slot k).queue with
  | [] => true
  | e :: _ => !(decide (e.leave ≠ 0) || decide (e.ahead ≠ 0) || (s.slot k).lane.vstart != 0 || s.reqs.any fun r => r.owner == 4 * k + 1)

/-- S of the table: the share of the thread's last SETVL, and 1 before the first (R89, R91) [DEDUCED, log 98]. -/
def Slot.tableShare (sl : Slot) : Nat := max 1 sl.share
/-- Lane groups lent to thread t of a core: those above its share. -/
def State.lent (s : State) (core t : Nat) : Nat := (s.coreAt core).held t - (s.slot (16 * core + t)).tableShare

/-- The highest thread of a core at an instruction boundary that satisfies a test. -/
def State.highest (s : State) (core : Nat) (p : Nat → Bool) : Option Nat :=
  (List.range 16).reverse.find? fun t => p t && s.atBoundary (16 * core + t)

/-- While the threads hold more than PLIM, lent groups go back first, then shares, the highest slot first, each at its holder's
boundary (R316). -/
def State.trimLanes (s : State) (core : Nat) : Nat → State
  | 0 => s
  | n + 1 =>
    let c := s.coreAt core
    if c.lanes.length ≤ c.plim then s
    else
      let lending := (List.range 16).any fun t => decide (0 < s.lent core t)
      match s.highest core fun t => if lending then decide (0 < s.lent core t) else decide (0 < c.held t) with
      | some t => (s.modCore core fun c => c.takeLane t).trimLanes core n
      | none => s

/-- Does another thread of the core have entries and less than its share: then nothing is spare (R89). -/
def State.othersNeed (s : State) (core t : Nat) : Bool :=
  (List.range 16).any fun u =>
    u != t && !(s.slot (16 * core + u)).queue.isEmpty && s.lanesRun (16 * core + u) &&
      decide ((s.coreAt core).held u < (s.slot (16 * core + u)).tableShare)

/-- Grant thread t lane groups for the instruction that begins: up to its share from what is free, lent, or held by threads without
an entry; one from any thread while it holds none, so that it takes its turn (R275, R291); then what is spare, up to PLIM in all
(R89) [DEDUCED, log 98]. -/
def State.fillLanes (s : State) (core t : Nat) : Nat → State
  | 0 => s
  | n + 1 =>
    let c := s.coreAt core
    let own := decide (c.held t < (s.slot (16 * core + t)).tableShare)
    let spare := !s.othersNeed core t
    if decide (c.lanes.length < c.plim) && c.freeLane.isSome && (own || spare) then
      (s.modCore core fun c => match c.freeLane with | some g => c.giveLane g t | none => c).fillLanes core t n
    else if own then
      match s.highest core fun u => u != t && (decide (0 < s.lent core u) ||
          (((s.slot (16 * core + u)).queue.isEmpty || decide (c.held t = 0)) && decide (0 < c.held u))) with
      | some u =>
        (s.modCore core fun c => match (c.lanes.filter fun p => p.2 == u).getLast? with
          | some p => c.giveLane p.1 t
          | none => c).fillLanes core t n
      | none => s
    else s

/-- The lane groups with which slot k begins its next instruction; none while it holds no group (R11). Within an instruction they
stay (R89); one that was bound in the middle of an instruction and holds none gets its share there (R261). -/
def State.claimLanes (s : State) (k : Nat) : Option State :=
  let s := if s.atBoundary k || decide ((s.coreAt (coreOf k)).held (k % 16) = 0) then s.fillLanes (coreOf k) (k % 16) 32 else s
  if (s.coreAt (coreOf k)).held (k % 16) = 0 then none else some s

/-- COUNTER_EVENT_RETIRE: a counter event at the head of a queue reaches the lanes of a thread that holds lane
groups (R11, R97). None when it may not yet. -/
def State.retireCounter (s : State) (k : Nat) : Option State :=
  let sl := s.slot k
  match sl.queue with
  | e :: _ =>
    if e.kind = .counter ∧ sl.tr.froz = false ∧ sl.pend.all (fun p => !p.lane) = true ∧ sl.cst ≠ .faulted ∧
        (sl.st ≠ .stop ∨ sl.stopping = true) then
      (s.claimLanes k).bind fun s => (s.passCounter k e).map fun s => s.retireHead k
    else none
  | [] => none

/-- COUNTER_EVENT_RETIRE (R97). -/
def execCounterEventRetire (k : Fin 1024) (s : State) : Host.Outcome State Fault Refusal :=
  .next ((s.retireCounter k.val).getD s)

/-- One element group of slot k, which holds a lane group: of the head entry, or, while that waits, of the first entry behind it
that is present (R11, R25, R275). -/
def State.issue (s : State) (k : Nat) : Option (Res State) :=
  if (s.slot k).queue.isEmpty then none
  else
    match s.claimLanes k with
    | none => none
    | some s =>
      match s.issueHead k with
      | some r => some r
      | none => if s.lanesRun k && (s.slot k).st != .stop then (s.issueBehind k [] (s.slot k).queue).map .ok else none

/-- The first of a core's threads, from a turn on, with a present entry (R275). A chunk that begins to wait for leave takes no
turn. -/
def State.issueFrom (s : State) (core : Nat) : List Nat → Option (Res State)
  | [] => none
  | t :: rest =>
    match s.issue (16 * core + t) with
    | some (.ok s') =>
      let waits (s : State) : Nat := (s.coreAt core).waiting.length
      some (.ok (if waits s < waits s' then s' else s'.modCore core fun c => { c with rr := (t + 1) % 16 }))
    | some (.error f) => some (.error f)
    | none => s.issueFrom core rest

/-- The threads of a core in the order of its turn. -/
def Core.order (c : Core) : List Nat := (List.range 16).map fun i => (c.rr + i) % 16

/-- ISSUE_OPPORTUNITY (R275): what the lane allocation table takes back goes first (R316). None when nothing is taken back and no
thread of the core has a present entry. -/
def State.issueCore (s : State) (core : Nat) : Option (Res State) :=
  let t := s.trimLanes core 32
  match t.issueFrom core (t.coreAt core).order with
  | some r => some r
  | none => if (t.coreAt core).lanes = (s.coreAt core).lanes then none else some (.ok t)

/-- ISSUE_OPPORTUNITY (R275). -/
def execIssueOpportunity (core : Fin 64) (s : State) : Host.Outcome State Fault Refusal := orSame s (s.issueCore core.val)

/-- FAR_ACCESS_COMPLETE: every packet of the far entry at the head of slot k's queue has its answer (R213, R216). None while it
waits, or when it has sent none. -/
def State.farComplete (s : State) (k : Nat) : Option (Res State) :=
  if (s.reqs.any fun r => r.owner == 4 * k + 1) && !s.reqOpen (4 * k + 1) then s.issueHead k else none

/-- FAR_ACCESS_COMPLETE (R213). -/
def execFarAccessComplete (k : Fin 1024) (s : State) : Host.Outcome State Fault Refusal := orSame s (s.farComplete k.val)

/-! ### The stalls of the slice (R85, R86) -/

/-- May the stall of slot k end, so that its slice looks at its instruction again. -/
def State.stallOver (s : State) (k : Nat) : Bool :=
  let sl := s.slot k
  let free := !s.reqOpen (4 * k) && !s.reqOpen (4 * k + 2) && !s.reqOpen (4 * k + 3)
  match sl.cause, sl.phase with
  | 1, _ => decide (sl.queue.length < 64)
  | 2, .value _ _ => true
  | 2, .pushed _ => false
  | 2, .marked => sl.allDone
  | 2, .peer p d n => s.pushReady k p d n || s.peerGone k p
  | 2, _ => (sl.queue.isEmpty || sl.tr.froz) && free
  | 3, .qwait q n => sl.qwaitOk q n || sl.qwaitBad q n
  | 3, _ => free
  | 4, .bits all m => sl.waitOk all m
  | 5, .depth named => !sl.depthReached named
  | 7, _ => sl.queue.isEmpty
  | 8, .barrier off want => State.barBad { s with cur := k } off || (match want with
    | none => (State.barrier { s with cur := k } off).expect != 0
    | some p => (State.barrier { s with cur := k } off).phase != p)
  | _, _ => free

/-- The drain of ENDK (R281, R202): every live register is dropped once the marker has retired, and the thread ends when all
are RETIRED and every writeback is acknowledged. -/
def State.endkDrain (s : State) (k : Nat) : Option (Res State) :=
  let sl := s.slot k
  if !sl.queue.isEmpty then none
  else if sl.q.toList.any fun r => r.st == .live then
    let qs := (List.range 16).filter fun q => (sl.reg q).st == .live
    let s := s.modSlot k fun sl => qs.foldl (fun sl q => sl.modReg q fun r => { r with st := .dropping, dropPc := sl.pc }) sl
    some (.ok (qs.foldl (fun s q => s.dropAtLanes k q) s))
  else if !(sl.q.toList.all fun r => r.st == .retired) || !sl.writtenBack then none
  else
    match s.endThread k with
    | .error f => some (.error f)
    | .ok (s', .ok _) => some (.ok s')
    | .ok (s', .wait) => if s'.reqs = s.reqs then none else some (.ok s')
    | .ok (s', .trap code _) => some (.ok (s'.faultContext k (causeWord code 1 false)))

/-- STALL_CLEARS: the stall of slot k ends (R85, R86). None while it holds. -/
def State.stallClears (s : State) (k : Nat) : Option (Res State) :=
  let sl := s.slot k
  match sl.st with
  | .wait => if s.stallOver k then some (.ok (s.setSlot k { sl with st := .run, cause := 0 })) else none
  | .drain => if sl.cause = 9 ∧ sl.pend.isNone = true then s.endkDrain k else none
  | _ => none

/-- STALL_CLEARS (R85). -/
def execStallClears (k : Fin 1024) (s : State) : Host.Outcome State Fault Refusal := orSame s (s.stallClears k.val)

end Sys2Proof.Machine
end

