-- ==== Sys2Proof/Machine/Link.lean ====
section
/-! DEFINITION. The Tribin ports (R299 to R313): flits and packets, the sender's choice and its starvation bound, reassembly,
retry, the states of a port, its registers, and what a packet does when it is delivered. -/

namespace Sys2Proof.Machine

/-! ### Flits and packets (R300, R301) -/

/-- One bit-reversed CRC-32 step of the IEEE 802.3 polynomial. -/
def crcStep (c : Nat) : Nat := if c % 2 = 1 then (c / 2) ^^^ 0xEDB88320 else c / 2
/-- CRC-32 of bytes, least significant bit first, from a register (log 40). -/
def crcFrom (c : Nat) (b : List Byte) : Nat :=
  b.foldl (fun c x => (List.range 8).foldl (fun c _ => crcStep c) (c ^^^ x.toNat)) c
/-- CRC-32 of bytes. -/
def crc32 (b : List Byte) : Nat := (crcFrom 0xFFFFFFFF b) ^^^ 0xFFFFFFFF

/-- The 128 bytes of a flit. -/
def flitBytes (f : BitVec 1024) : List Byte := toBytes 128 f.toNat
/-- Fields of a flit's header. -/
def flitFld (f : BitVec 1024) (lo n : Nat) : Nat := f.toNat / 2 ^ lo % 2 ^ n
def flitSeq (f : BitVec 1024) : Nat := flitFld f 52 12
def flitAck (f : BitVec 1024) : Nat := flitFld f 40 12
def flitCls (f : BitVec 1024) : Nat := flitFld f 38 2
def flitSop (f : BitVec 1024) : Bool := flitFld f 37 1 == 1
def flitEop (f : BitVec 1024) : Bool := flitFld f 36 1 == 1
def flitWords (f : BitVec 1024) : Nat := flitFld f 32 4
/-- The valid payload bytes of a flit. -/
def flitData (f : BitVec 1024) : List Byte := ((flitBytes f).drop 8).take (8 * flitWords f)
/-- The CRC that a flit must carry: over the header with CRC zero and the payload (R300). -/
def flitCrc (f : BitVec 1024) : Nat := crc32 (flitBytes (BitVec.ofNat 1024 (f.toNat / 2 ^ 32 * 2 ^ 32)))
/-- Is a flit's CRC right. -/
def flitGood (f : BitVec 1024) : Bool := flitFld f 0 32 == flitCrc f

/-- A flit of a packet before it is sent: SEQ, ACK and CRC are still 0. -/
def flitOf (cls : Nat) (sop eop : Bool) (payload : List Byte) : BitVec 1024 :=
  BitVec.ofNat 1024 (cls * 2 ^ 38 + b2n sop * 2 ^ 37 + b2n eop * 2 ^ 36 + (payload.length + 7) / 8 * 2 ^ 32 +
    ofBytes payload * 2 ^ 64)
/-- The flit with its SEQ, ACK and CRC. -/
def sealFlit (f : BitVec 1024) (seq ack : Nat) : BitVec 1024 :=
  let g := BitVec.ofNat 1024 (f.toNat + seq % 4096 * 2 ^ 52 + ack % 4096 * 2 ^ 40)
  BitVec.ofNat 1024 (g.toNat + flitCrc g)

/-- The bytes of a packet (R301). -/
def Packet.bytes (p : Packet) : List Byte :=
  toBytes 2 p.dpart ++ toBytes 2 p.spart ++ toBytes 1 p.kind ++ toBytes 1 p.opc ++ toBytes 2 p.tag ++ toBytes 8 p.addr ++
    toBytes 4 p.len ++ toBytes 1 p.status ++ toBytes 1 p.atype ++ toBytes 1 p.arm ++ toBytes 1 0 ++ toBytes 2 p.draw ++
    toBytes 6 0 ++ p.data

/-- Cut bytes into m runs of 120. -/
def cutFlits (cls : Nat) : Nat → Bool → List Byte → List (BitVec 1024)
  | 0, _, _ => []
  | m + 1, sop, b => flitOf cls sop (m == 0) (b.take 120) :: cutFlits cls m false (b.drop 120)

/-- The flits of a packet: ceil((32 + n) / 120) of them (R301). -/
def Packet.flits (p : Packet) : List (BitVec 1024) := cutFlits (classIdx p.cls) ((32 + p.data.length + 119) / 120) true p.bytes

/-- A request packet, against a response. -/
def Packet.isReq (p : Packet) : Bool := p.kind == 1 || p.kind == 2 || p.kind == 4

/-- The class of an index. -/
def classAt : Nat → LinkClass
  | 0 => .bulk | 1 => .urgent | _ => .control

/-- A packet from the bytes of its flits: none when it is a protocol error (R301). -/
def Packet.parse (cls : LinkClass) (b : List Byte) : Option Packet :=
  let num (o n : Nat) : Nat := ofBytes ((b.drop o).take n)
  let kind := num 4 1
  let len := num 16 4
  if b.length < 32 ∨ kind = 0 ∨ 6 < kind ∨ 8 < num 5 1 ∨ 1 < num 20 1 ∨ num 23 1 ≠ 0 ∨ num 26 6 ≠ 0 ∨ num 13 3 ≠ 0 ∨ 4064 < len ∨
      (kind ≠ 2 ∧ b.length < 32 + len) then none
  else
    some { cls := cls, dpart := num 0 2, spart := num 2 2, kind := kind, opc := num 5 1, tag := num 6 2, addr := num 8 8
           len := len, status := num 20 1, atype := num 21 1, arm := num 22 1, draw := num 24 2
           data := if kind = 2 then [] else (b.drop 32).take len }

/-! ### Requests that end (R309) -/

/-- The waiting requests that a test names end with an outcome; a posted write is forgotten, and a launch whose completion word
has its answer completes (R268, R280). -/
def State.resolve (s : State) (p : LinkReq → Bool) (o : ReqOutcome) : State :=
  let hit (r : LinkReq) : Bool := p r && r.outcome == .waiting
  let kept := s.reqs.filter fun r => !(hit r && r.owner == postOwner)
  let s := { s with reqs := kept.map fun (r : LinkReq) => if hit r then { r with outcome := o } else r }
  (s.ctxs.map (·.1)).foldl State.settleWord s

/-- A request of a port by its tag. -/
def LinkReq.named (r : LinkReq) (port tag : Nat) : Bool := r.port == port && r.tag == tag

/-! ### States (R312) -/

/-- The port leaves UP, or is reset: its entries and packets go (R308). -/
def Port.close (q : Port) (st : PortState) (reason : Nat) : Port :=
  { Port.reset with
    st := st, reason := reason, ctl := if st = .errorHeld then [.errorHeld] else [], delivered := q.delivered, retries := q.retries
    discards := q.discards + (q.rx.toList.filter (·.isSome)).length, starves := q.starves }

/-- A port moves to another state; on leaving UP every request that waits completes LINK-INCOMPLETE and the error ring gets a
record (R308, R309, R312). -/
def State.portTo (s : State) (p : Nat) (st : PortState) (reason : Nat) : State :=
  let was := (s.portAt p).st
  let s := s.modPort p fun q => q.close st reason
  if was = .up then
    (s.resolve (fun r => r.port == p) .incomplete).addRecord 3 p 0 (BitVec.ofNat 64 reason)
  else s

/-- Credits at UP (R306), by class index. -/
def upCredits : Vector Nat 3 := #v[512, 128, 16]

/-- Command TRAIN; a port whose controller is out for an update does not train (R312, R337). -/
def State.train (s : State) (p : Nat) : State :=
  if (s.portAt p).st = .down ∧ s.partOff 2 p = false then s.portTo p .training 0 else s
/-- Command RELEASE. -/
def State.release (s : State) (p : Nat) : State := if (s.portAt p).st = .errorHeld then s.portTo p .down 0 else s
/-- Command DISABLE. -/
def State.disablePort (s : State) (p : Nat) : State := s.portTo p .down 0

/-- TLCTL_TRAIN (R312). -/
def execTlctlTrain (p : Fin 16) (s : State) : Host.Outcome State Fault Refusal := .next (s.train p.val)
/-- TLCTL_RELEASE (R312). -/
def execTlctlRelease (p : Fin 16) (s : State) : Host.Outcome State Fault Refusal := .next (s.release p.val)
/-- TLCTL_DISABLE (R312). -/
def execTlctlDisable (p : Fin 16) (s : State) : Host.Outcome State Fault Refusal := .next (s.disablePort p.val)
/-- TRAINING_COMPLETE: credits granted, SEQ 0 (R312). -/
def execTrainingComplete (p : Fin 16) (s : State) : Host.Outcome State Fault Refusal :=
  if (s.portAt p.val).st = .training then .next ((s.portTo p.val .up 0).modPort p.val fun q => { q with credit := upCredits })
  else .next s
/-- TRAINING_TIMEOUT: no lock within 100 ms (R312). -/
def execTrainingTimeout (p : Fin 16) (s : State) : Host.Outcome State Fault Refusal :=
  .next (if (s.portAt p.val).st = .training then s.portTo p.val .errorHeld 3 else s)

/-- A port that is UP turns ERROR-HELD for a reason. -/
def State.holdPort (s : State) (p reason : Nat) : State := if (s.portAt p).st = .up then s.portTo p .errorHeld reason else s

/-- KEEP_ALIVE_LOSS: no flit for 16 µs (R312). -/
def execKeepAliveLoss (p : Fin 16) (s : State) : Host.Outcome State Fault Refusal := .next (s.holdPort p.val 2)
/-- PEER_ERROR_HELD (R312). -/
def execPeerErrorHeld (p : Fin 16) (s : State) : Host.Outcome State Fault Refusal := .next (s.holdPort p.val 4)

/-! ### The sender (R303, R304, R307) -/

/-- ACK of a port's own flits: the highest SEQ received in order. -/
def Port.ack (q : Port) : Nat := (q.rxSeq + 4095) % 4096

/-- Empty transmit entries take the next waiting packet of their class (R303). -/
def Port.fill (q : Port) : Port :=
  (List.range 3).foldl (fun q c =>
    match vat q.tx c none, vat q.wait c [] with
    | none, p :: t =>
      { q with
        tx := q.tx.setIfInBounds c (some { flits := p.flits, tag := p.tag, isReq := p.isReq, started := false })
        wait := q.wait.setIfInBounds c t }
    | _, _ => q) q

/-- Has a class's entry a flit and credit. -/
def Port.ready (q : Port) (c : Nat) : Bool := (vat q.tx c none).isSome && decide (0 < vat q.credit c 0)

/-- The class of the next counted flit, and whether R304 forces it (R303, R304). -/
def Port.choose (q : Port) : Option (Nat × Bool) :=
  if q.ready 0 && decide (48 ≤ q.starve) then some (0, q.ready 2 || q.ready 1)
  else if q.ready 2 then some (2, false)
  else if q.ready 1 then some (1, false)
  else if q.ready 0 then some (0, false)
  else none

/-- The starvation count after a flit of class c (R304). -/
def Port.count (q : Port) (c : Nat) : Nat := if c = 0 ∨ q.ready 0 = false then 0 else q.starve + 1

/-- Send the next flit of class c's entry. -/
def Port.sendClass (q : Port) (c : Nat) (forced : Bool) : Port :=
  match vat q.tx c none with
  | some { flits := f :: t, tag := tag, isReq := r, started := _ } =>
    let w := sealFlit f q.seq q.ack
    { q with
      seq := (q.seq + 1) % 4096, replay := q.replay ++ [w], wire := some (.flit w)
      credit := q.credit.setIfInBounds c (vat q.credit c 0 - 1)
      tx := q.tx.setIfInBounds c (if t.isEmpty then none else some { flits := t, tag := tag, isReq := r, started := true })
      starve := q.count c, starves := q.starves + b2n forced }
  | _ => { q with tx := q.tx.setIfInBounds c none }

/-- The flit at a flit boundary: link-control first, then a replay in its order, then the chosen class unless the replay buffer
is full (R303, R304, R307). None when there is nothing to send. -/
def Port.send (q : Port) : Option Port :=
  if q.st ≠ .up ∧ q.st ≠ .errorHeld then none
  else
    match q.ctl with
    | c :: t => some { q with ctl := t, wire := some (.ctl c q.ack) }
    | [] =>
      if q.st ≠ .up then none
      else
        match q.toResend with
        | f :: t => some { q with toResend := t, wire := some (.flit f) }
        | [] =>
          let q := q.fill
          if 2048 ≤ q.replay.length then none
          else
            match q.choose with
            | some (c, forced) => some (q.sendClass c forced)
            | none => none

/-- FLIT_SEND (R303). -/
def execFlitSend (p : Fin 16) (s : State) : Host.Outcome State Fault Refusal :=
  .next (match (s.portAt p.val).send with | some q => s.modPort p.val fun _ => q | none => s)

/-- The peer has every flit up to a SEQ: they leave the replay buffer (R307). -/
def Port.acked (q : Port) (seq : Nat) : Port :=
  match q.replay.zipIdx.find? fun f => flitSeq f.1 == seq with
  | some (_, i) =>
    let gone := (q.replay.take (i + 1)).map flitSeq
    { q with
      replay := q.replay.drop (i + 1), retryRun := if gone.contains q.retrySeq then 0 else q.retryRun
      toResend := q.toResend.filter fun f => !gone.contains (flitSeq f) }
  | none => q

/-- Replay from a SEQ on; 16 consecutive replays from one SEQ hold the port (R307). -/
def State.replayFrom (s : State) (p seq : Nat) : State :=
  let q := s.portAt p
  if q.st ≠ .up ∨ q.replay.any (fun f => flitSeq f == seq) = false then s
  else
    let run := if q.retrySeq = seq then q.retryRun + 1 else 1
    let s := s.modPort p fun q =>
      { q with
        toResend := q.replay.dropWhile fun f => flitSeq f != seq, retries := q.retries + 1, retrySeq := seq, retryRun := run }
    if 16 ≤ run then s.holdPort p 1 else s

/-- LINK_ACK (R307). -/
def execLinkAck (p : Fin 16) (seq : BitVec 12) (s : State) : Host.Outcome State Fault Refusal :=
  .next (if (s.portAt p.val).st = .up then s.modPort p.val fun q => q.acked seq.toNat else s)
/-- LINK_NAK (R307). -/
def execLinkNak (p : Fin 16) (seq : BitVec 12) (s : State) : Host.Outcome State Fault Refusal :=
  .next (s.replayFrom p.val seq.toNat)
/-- ACK_TIMEOUT: no ACK advanced for 4 µs (R307). -/
def execAckTimeout (p : Fin 16) (s : State) : Host.Outcome State Fault Refusal :=
  .next (match (s.portAt p.val).replay with | f :: _ => s.replayFrom p.val (flitSeq f) | [] => s)
/-- LINK_CREDIT (R306). -/
def execLinkCredit (p : Fin 16) (cls : LinkClass) (n : Nat) (s : State) : Host.Outcome State Fault Refusal :=
  .next (if (s.portAt p.val).st = .up then
    s.modPort p.val fun q => { q with credit := q.credit.setIfInBounds (classIdx cls) (vat q.credit (classIdx cls) 0 + n) }
  else s)
/-- LINK_KEEP_ALIVE: the port has heard its peer; nothing else changes (R312). -/
def execLinkKeepAlive (_p : Fin 16) (s : State) : Host.Outcome State Fault Refusal := .next s
/-- KEEP_ALIVE_DUE: a port in UP owes its peer a keep-alive (R312). -/
def execKeepAliveDue (p : Fin 16) (s : State) : Host.Outcome State Fault Refusal :=
  .next (if (s.portAt p.val).st = .up then s.modPort p.val fun q => { q with ctl := q.ctl ++ [.keepAlive] } else s)

/-- LINK_DISCARD: the peer discarded the open packet of a class; the sender closes its entry and the request is incomplete; with the
BULK entry closed no BULK flit waits, and the count of R304 begins again (R304, R308, R309). -/
def execLinkDiscard (p : Fin 16) (cls : LinkClass) (s : State) : Host.Outcome State Fault Refusal :=
  .next (match vat (s.portAt p.val).tx (classIdx cls) none with
    | some o =>
      if o.started then
        let s := s.modPort p.val fun q =>
          { q with tx := q.tx.setIfInBounds (classIdx cls) none, starve := if cls = .bulk then 0 else q.starve }
        if o.isReq then s.resolve (fun r => r.named p.val o.tag) .incomplete else s
      else s
    | none => s)

/-! ### The receiver (R305 to R308) -/

/-- A protocol error: a record goes to the management error ring (R301, R305). -/
def State.protocolError (s : State) (p : Nat) : State := s.addRecord 5 p 0 0

/-- An entry is discarded (R305, R308). -/
def Port.dropEntry (q : Port) (c : Nat) : Port := { q with rx := q.rx.setIfInBounds c none, discards := q.discards + 1 }

/-- A whole packet is delivered, or is a protocol error and discarded (R301, R305, R313). -/
def State.deliver (s : State) (p : Nat) (cls : LinkClass) (b : List Byte) : State :=
  let drop : State := (s.modPort p fun q => { q with discards := q.discards + 1 }).protocolError p
  match Packet.parse cls b with
  | none => drop
  | some k =>
    if k.isReq && decide (k.dpart ≠ s.svc.partid) then drop
    else s.modPort p fun q => { q with delivered := q.delivered ++ [k] }

/-- A flit in order enters the entry of its class (R305). -/
def State.takeFlit (s : State) (p : Nat) (f : BitVec 1024) : State :=
  let c := flitCls f
  let q := s.portAt p
  match vat q.rx c none with
  | some got =>
    if flitSop f then (s.modPort p fun q => q.dropEntry c).protocolError p
    else if flitEop f then
      (s.modPort p fun q => { q with rx := q.rx.setIfInBounds c none }).deliver p (classAt c) ((got ++ [f]).flatMap flitData)
    else s.modPort p fun q => { q with rx := q.rx.setIfInBounds c (some (got ++ [f])) }
  | none =>
    if !flitSop f then (s.modPort p fun q => { q with discards := q.discards + 1 }).protocolError p
    else if flitEop f then s.deliver p (classAt c) (flitData f)
    else s.modPort p fun q => { q with rx := q.rx.setIfInBounds c (some [f]) }

/-- A flit arrives (R300, R305, R307). -/
def State.receiveFlit (s : State) (p : Nat) (f : BitVec 1024) : State :=
  let q := s.portAt p
  if q.st ≠ .up then s
  else if !flitGood f then
    if q.naked then s else s.modPort p fun q => { q with naked := true, ctl := q.ctl ++ [.nak q.rxSeq] }
  else if flitCls f = 3 then s.modPort p fun q => q.acked (flitAck f)
  else if flitSeq f ≠ q.rxSeq then
    if q.naked then s else s.modPort p fun q => { q with naked := true, ctl := q.ctl ++ [.nak q.rxSeq] }
  else
    (s.modPort p fun q =>
      { q.acked (flitAck f) with
        rxSeq := (q.rxSeq + 1) % 4096, naked := false, ctl := q.ctl ++ [.credit (classAt (flitCls f)) 1] }).takeFlit p f

/-- FLIT_RECEIVE (R305). -/
def execFlitReceive (p : Fin 16) (flit : BitVec 1024) (s : State) : Host.Outcome State Fault Refusal := .next (s.receiveFlit p.val flit)

/-- REASSEMBLY_TIMEOUT: 64 µs without a flit of an open entry (R308). -/
def execReassemblyTimeout (p : Fin 16) (cls : LinkClass) (s : State) : Host.Outcome State Fault Refusal :=
  .next (if (vat (s.portAt p.val).rx (classIdx cls) none).isSome then
    s.modPort p.val fun q => { q.dropEntry (classIdx cls) with ctl := q.ctl ++ [.discard cls] }
  else s)

/-- RESPONSE_TIMEOUT: no response within 256 µs of a request's EOP (R309). -/
def execResponseTimeout (p : Fin 16) (tag : BitVec 16) (s : State) : Host.Outcome State Fault Refusal :=
  .next (s.resolve (fun r => r.named p.val tag.toNat) .incomplete)

/-! ### Delivered packets (R301, R311) -/

/-- The first delivered packet of a kind that no earlier one of its class precedes (R305). -/
def firstOf (kind : Nat) : List Packet → List LinkClass → Option (Packet × Nat)
  | [], _ => none
  | p :: t, seen =>
    if p.kind = kind ∧ seen.contains p.cls = false then some (p, 0)
    else (firstOf kind t (p.cls :: seen)).map fun r => (r.1, r.2 + 1)

/-- Answer a request in its class (R301); a port that is not UP sends nothing. -/
def State.answer (s : State) (p : Nat) (q : Packet) (kind status atype : Nat) (data : List Byte) : State :=
  if (s.portAt p).st ≠ .up then s
  else
    let r : Packet :=
      { cls := q.cls, dpart := q.spart, spart := s.svc.partid, kind := kind, opc := if kind = 5 then q.opc else 0, tag := q.tag
        addr := 0, len := data.length, status := status, atype := atype, arm := 0, draw := 0, data := data }
    s.modPort p fun x =>
      { x with wait := x.wait.setIfInBounds (classIdx q.cls) (vat x.wait (classIdx q.cls) [] ++ [r]) }

/-- Do the bytes of a request lie in HBM. -/
def inHbm (addr n : Nat) : Bool := decide (addr + n ≤ hbmBytes)
/-- Is some byte of a request poisoned. -/
def State.poisonedRange (s : State) (addr n : Nat) : Bool := (List.range n).any fun i => s.poisoned (addr + i)

/-- A WRITE performs at its home slices; outside HBM it cannot, and its answer says so: every request is answered (R301, R309)
[DESIGN CHOICE, log 104]. -/
def State.doWrite (s : State) (p : Nat) (q : Packet) : State :=
  if inHbm q.addr q.data.length then (s.writeHome q.addr q.data).answer p q 6 0 0 [] else s.answer p q 6 1 0 []

/-- A READ performs; of a poisoned line or outside HBM it cannot, and its answer says so, with no data (R301) [DESIGN CHOICE,
log 104]. -/
def State.doRead (s : State) (p : Nat) (q : Packet) : State :=
  if !inHbm q.addr q.len || s.poisonedRange q.addr q.len then s.answer p q 3 1 0 []
  else s.answer p q 3 0 0 (s.readHome q.addr q.len)

/-- AMO operation of an OPC. -/
def AmoOp.ofOpc : Nat → AmoOp
  | 0 => .add | 1 => .min | 2 => .max | 3 => .and | 4 => .or | 5 => .xor | _ => .swap

/-- The new value and the flag byte of an ATOMIC on an old value (R222, R223, R301, R311). -/
def atomicNew (q : Packet) (t : Ty) (old : Nat) : Nat × Nat :=
  let n := t.bits / 8
  let v := ofBytes (q.data.take n)
  if q.opc = 8 then
    let env : REnv := { mode := RMode.ofCode q.arm, seed := 1, flags := FlagWord.reset, given := some q.draw }
    let r := scAdd true t env old v
    (r.1, r.2.flags.bits)
  else if q.opc = 7 then (if old = v then ofBytes ((q.data.drop n).take n) else old, 0)
  else ((AmoOp.ofOpc q.opc).apply t old v, 0)

/-- May an ATOMIC perform: its type suits its OPC, its data has its length, and it lies in HBM (R301). -/
def Packet.carried (q : Packet) : Bool :=
  let t := Ty.ofCode q.atype
  let n := t.bits / 8
  (if q.opc = 8 then decide (8 ≤ q.atype) && decide (q.atype ≤ 10) else decide (4 ≤ q.atype) && decide (q.atype ≤ 7)) &&
    decide (q.data.length = if q.opc = 7 then 2 * n else n) && inHbm q.addr n && decide (q.arm ≤ 4)

/-- An ATOMIC performs indivisibly at its home slice, or is answered NOTCARRIED, on a poisoned line too (R311). -/
def State.doAtomic (s : State) (p : Nat) (q : Packet) : State :=
  let t := Ty.ofCode q.atype
  let n := t.bits / 8
  if !q.carried || s.poisonedRange q.addr n then s.answer p q 5 1 0 []
  else
    let s := s.lockLine q.addr
    let old := ofBytes (s.readHome q.addr n)
    let r := atomicNew q t old
    (s.writeHome q.addr (toBytes n r.1)).answer p q 5 0 (if q.opc = 8 then r.2 else 0) (toBytes n old)

/-- A response meets its request; one that no request waits for is dropped and counted (R301, R309). -/
def State.respond (s : State) (p : Nat) (q : Packet) (kind : Nat) : State :=
  if s.reqs.any fun r => r.named p q.tag && r.kind == kind && r.outcome == .waiting then
    s.resolve (fun r => r.named p q.tag && r.kind == kind)
      (if q.status = 1 then .notCarried else .ok (if kind = 4 then q.data ++ toBytes 1 q.atype else q.data))
  else s.modPort p fun x => { x with discards := x.discards + 1 }

/-- Take a delivered packet of a kind and act on it. None when there is none. -/
def State.onPacket (s : State) (p kind : Nat) (act : State → Packet → State) : Option State :=
  match firstOf kind (s.portAt p).delivered [] with
  | some (q, i) => some (act (s.modPort p fun x => { x with delivered := x.delivered.eraseIdx i }) q)
  | none => none

/-- Is the next delivered request of a kind held at its home slice (R337). -/
def State.packetHeld (s : State) (p kind : Nat) : Bool :=
  match firstOf kind (s.portAt p).delivered [] with
  | some (q, _) => q.isReq && s.rangeHeld q.addr q.len
  | none => false

/-- The request a port has delivered: each kind's act (R301). -/
def State.packetStep (s : State) (p kind : Nat) : Option State :=
  if s.packetHeld p kind then none
  else
  match kind with
  | 1 => s.onPacket p 1 fun s q => s.doWrite p q
  | 2 => s.onPacket p 2 fun s q => s.doRead p q
  | 3 => s.onPacket p 3 fun s q => s.respond p q 2
  | 4 => s.onPacket p 4 fun s q => s.doAtomic p q
  | 5 => s.onPacket p 5 fun s q => s.respond p q 4
  | _ => s.onPacket p 6 fun s q => s.respond p q 1

/-- WRITE (R301). -/
def execWrite (p : Fin 16) (s : State) : Host.Outcome State Fault Refusal := .next ((s.packetStep p.val 1).getD s)
/-- READ (R301). -/
def execRead (p : Fin 16) (s : State) : Host.Outcome State Fault Refusal := .next ((s.packetStep p.val 2).getD s)
/-- READ_DATA (R301). -/
def execReadData (p : Fin 16) (s : State) : Host.Outcome State Fault Refusal := .next ((s.packetStep p.val 3).getD s)
/-- ATOMIC (R311). -/
def execAtomic (p : Fin 16) (s : State) : Host.Outcome State Fault Refusal := .next ((s.packetStep p.val 4).getD s)
/-- ATOMIC_DATA (R311). -/
def execAtomicData (p : Fin 16) (s : State) : Host.Outcome State Fault Refusal := .next ((s.packetStep p.val 5).getD s)
/-- WRITE_ACK (R301). -/
def execWriteAck (p : Fin 16) (s : State) : Host.Outcome State Fault Refusal := .next ((s.packetStep p.val 6).getD s)

/-! ### Registers (R313) -/

/-- Write a register of the port window: TLCTL takes a command (R313). -/
def State.setPortReg (s : State) (off : Nat) (v : X64) : State :=
  if off % 64 ≠ 8 then s
  else
    match fld v 0 2 with
    | 1 => s.train (off / 64)
    | 2 => s.release (off / 64)
    | 3 => s.disablePort (off / 64)
    | _ => s

end Sys2Proof.Machine
end

