-- ==== Sys2Proof/Machine/Service.lean ====
section
/-! DEFINITION. The I/O die (R331 to R340): windows and the host port, boot, identity, live update and errors. -/

namespace Sys2Proof.Machine

/-- Change the service registers. -/
def State.modSvc (s : State) (f : Service → Service) : State := { s with svc := f s.svc }

/-! ### Live update (R336 to R338) -/

/-- Is an update in states 1 to 3. -/
def UpdateState.busy : UpdateState → Bool
  | .verifying => true
  | .draining => true
  | .loading => true
  | _ => false

/-- A write of UPCTL: GO starts an update, but changes nothing while one is under way (R338). -/
def Service.setUpctl (v : Service) (w : X64) : Service :=
  if bitAt w 0 && v.upst.busy then v
  else
    let v := { v with ctlUnit := fld w 8 8, ctlPart := fld w 4 2 }
    if bitAt w 0 then { v with upst := .verifying, upUnit := v.ctlUnit, upPart := v.ctlPart, staged := [] } else v

/-- UPCTL_GO (R338). -/
def execUpctlGo (v : BitVec 64) (s : State) : Host.Outcome State Fault Refusal := .next (s.modSvc fun x => x.setUpctl (setFld v 0 1 1))

/-- An outcome of an update: its state, and a record in the error ring (R338, R339). -/
def State.updateEnds (s : State) (st : UpdateState) : State :=
  let s := s.modSvc fun v => { v with upst := st }
  s.addRecord 4 s.svc.upUnit 0 s.svc.upstat

/-- Length of an ML-DSA-44 signature (R336). -/
def sigLen : Nat := 2420

/-- The image staged at a physical address: header, body and signature; none when it does not lie in HBM or a line of it is
poisoned (R336). -/
def State.readImage (s : State) (pa : Nat) : Option (List Byte) :=
  if hbmBytes < pa + 64 then none
  else
    let n := 64 + ofBytes (s.readHome (pa + 16) 8) + sigLen
    if hbmBytes < pa + n ∨ s.poisonedRange pa n = true then none else some (s.readHome pa n)

/-- Does an image pass for a part: its signature, its PART and its VERSION (R336). -/
def imagePasses (part : Nat) (b : List Byte) : Bool :=
  let signed := b.take (b.length - sigLen)
  Config.verifies (Config.sha3 signed) (b.drop (b.length - sigLen)) && ofBytes (b.take 1) % 4 == part &&
    decide (Config.minVersion part ≤ ofBytes ((b.drop 8).take 8))

/-- The bound groups of a cluster. -/
def State.groupsOn (s : State) (cl : Nat) : List (Nat × Nat) :=
  s.ctxs.flatMap fun c => (c.2.groups.filter fun g => decide (g.2.cluster = cl) && g.2.st == .bound).map fun g => (c.1, g.1)

/-- The number of a drained part; the system-core firmware has no UNIT (R337). -/
def offKey (part unit : Nat) : Nat := part * 256 + (if part = 0 then 0 else unit)

/-- A part begins to drain (R337). -/
def State.drainPart (s : State) (part unit : Nat) : State :=
  let s := s.modSvc fun v =>
    { v with offParts := v.offParts.filter (fun u => u != offKey part unit) ++ [offKey part unit] }
  match part with
  | 1 => (s.groupsOn unit).foldl (fun s g => s.preemptGroup g.1 g.2 none) s
  | 2 => s.disablePort unit
  | _ => s

/-- Does a drained stack hold the read of an image (R337). -/
def State.imageHeld (s : State) (pa : Nat) : Bool :=
  s.rangeHeld pa 64 || s.rangeHeld pa (64 + ofBytes (s.readHome (pa + 16) 8) + sigLen)

/-- UPDATE_VERIFY_DONE: the image is read once, and passes or is rejected (R336, R338). -/
def execUpdateVerifyDone (s : State) : Host.Outcome State Fault Refusal :=
  if s.svc.upst ≠ .verifying ∨ s.imageHeld (fld s.svc.upsrc 0 52) = true then .next s
  else
    match s.readImage (fld s.svc.upsrc 0 52) with
    | none => .next (s.updateEnds .rejected)
    | some b =>
      if imagePasses s.svc.upPart b then
        .next ((s.modSvc fun v => { v with upst := .draining, staged := b }).drainPart s.svc.upPart s.svc.upUnit)
      else .next (s.updateEnds .rejected)

/-- Is the drain of a part complete (R337): a cluster holds no group that runs. -/
def State.drainDone (s : State) (part unit : Nat) : Bool :=
  part != 1 || s.ctxs.all fun c => c.2.groups.all fun g => g.2.cluster != unit || !(g.2.st == .bound || g.2.st == .saving)

/-- UPDATE_DRAIN_DONE (R337). -/
def execUpdateDrainDone (s : State) : Host.Outcome State Fault Refusal :=
  if s.svc.upst = .draining ∧ s.drainDone s.svc.upPart s.svc.upUnit = true then
    .next (s.modSvc fun v => { v with upst := .loading })
  else .next s

/-- The measurement index of a part's image (R335). -/
def measureIndex (part unit : Nat) : Option Nat :=
  match part with
  | 0 => some 2
  | 1 => if unit < 16 then some (3 + unit) else none
  | 2 => if unit < 16 then some (19 + unit) else none
  | _ => if unit < 8 then some (35 + unit) else none

/-- The part rejoins with its new image (R335, R337). -/
def Service.rejoin (v : Service) : Service :=
  { v with
    offParts := v.offParts.filter fun u => u != offKey v.upPart v.upUnit
    images := match measureIndex v.upPart v.upUnit with
      | some i => ainsert v.images i v.staged
      | none => v.images
    staged := [] }

/-- What a drained stack has held performs next, in arrival order, once the stack is back (R337). -/
def State.unhold (s : State) : State := { s with agenda := s.held ++ s.agenda, held := [] }

/-- UPDATE_LOAD_DONE: the image is loaded and the part rejoins, or the load fails and the part stays drained (R338). -/
def execUpdateLoadDone (ok : Bool) (s : State) : Host.Outcome State Fault Refusal :=
  if s.svc.upst ≠ .loading then .next s
  else if ok then .next ((s.modSvc Service.rejoin).unhold.updateEnds .done)
  else .next (s.updateEnds .loadFailed)

/-! ### Boot (R334) -/

/-- The image of a measurement index: the last one loaded, or the one the part came with (R335). -/
def Service.image (v : Service) (i : Nat) : List (BitVec 8) := alookup (Config.firstImage i) v.images i

/-- A step of the mask ROM: BOOT names it, and in RECOVERY and after the last nothing more happens (R334). Step 1 verifies the
firmware, whose stored copy reads as it was written if `intact`, and otherwise fails its signature (R336, log 105); step 2 loads the
sequencer microcode and the link controllers, and step 3 trains the HBM of every stack, of which none leaves service whatever its image
(R340) [DESIGN CHOICE, log 105]; step 4 enables the queue windows. -/
def Service.bootStep (intact : Bool) (v : Service) : Service :=
  match v.boot with
  | 0 => if intact && imagePasses 0 (v.image 2) then { v with boot := 1 } else { v with boot := 15 }
  | 1 => { v with boot := 2 }
  | 2 => { v with boot := 3 }
  | 3 => { v with boot := 4 }
  | _ => v

/-- COLD_RESET: every register at its reset value, and the mask ROM runs its four steps (R7, R334). The images and the host's memory
stay. -/
def execColdReset (intact : Bool) (s : State) : Host.Outcome State Fault Refusal :=
  let r := State.reset
  .next { r with
    svc := (List.range 4).foldl (fun v _ => v.bootStep intact) { r.svc with images := s.svc.images }
    hostMem := s.hostMem, agenda := s.agenda, turn := s.turn, free := s.free }

/-! ### Errors (R339) -/

/-- ECC_CORRECTED: only a record. -/
def execEccCorrected (unit : BitVec 16) (pa : BitVec 52) (s : State) : Host.Outcome State Fault Refusal :=
  .next (s.addRecord 1 unit.toNat (pa.setWidth 64) 0)

/-- A word of 16 bytes of a cluster's loft is damaged: the barrier in it, of the group whose area holds the word (R284, R292, R295,
R339). -/
def State.breakBarrier (s : State) (cl word : Nat) : State :=
  { s with
    ctxs := s.ctxs.map fun (c : Nat × Ctx) =>
      (c.1, { c.2 with
        groups := c.2.groups.map fun (g : Nat × Group) =>
          let off := 16 * word - g.2.area
          if g.2.cluster = cl ∧ g.2.onCluster = true ∧ g.2.area ≤ 16 * word ∧ off < c.2.loftg ∧ g.2.badBars.contains off = false then
            (g.1, { g.2 with badBars := g.2.badBars ++ [off] }) else g }) }

/-- Where the loft bytes of cluster c begin in the numbering of errors, past every physical address of R331: the model's own
(log 24). -/
def loftErrors : Nat := 2 ^ 51

/-- Does an element of register q of a slot have a half byte in a word of 16 bytes of its cluster's loft (R187, R349). -/
def Slot.inLoftWord (sl : Slot) (q word : Nat) (c : Cell) : Bool :=
  let r := sl.reg q
  let n := 2 * (sl.loft + r.ringBase) + r.desc.slotNibble r.lens c.co
  decide (n < 32 * (word + 1)) && decide (32 * word < n + r.desc.rtype.bits / 4)

/-- A word of a cluster's loft is damaged: the resident elements in it are failed, and trap POISON on use (R186, R253, R339). -/
def State.breakLoft (s : State) (cl word : Nat) : State :=
  { s with
    slots := s.slots.map fun (p : Nat × Slot) =>
      if clusterOf p.1 = cl then
        (p.1, (List.range 16).foldl (fun (sl : Slot) q =>
          if (sl.reg q).st = .retired then sl
          else sl.setCells q ((sl.cellsOf q).map fun c =>
            if sl.inLoftWord q word c then { c with dirty := false, fail := some { code := .poison, addr := none } } else c)) p.2)
      else p }

/-- ECC_UNCORRECTABLE: the line is poisoned, and a record written. An address from `loftErrors` on stands for a word of a loft, 32 MiB
for each cluster (log 24). -/
def execEccUncorrectable (unit : BitVec 16) (pa : BitVec 52) (s : State) : Host.Outcome State Fault Refusal :=
  let s := match placeOf pa.toNat with
    | .hbm =>
      let line := s.home pa.toNat / 128
      { s with poison := if s.poison.contains line then s.poison else s.poison ++ [line] }
    | _ =>
      let cl := (pa.toNat - loftErrors) / 2 ^ 25
      let word := pa.toNat % 2 ^ 25 / 16
      if loftErrors ≤ pa.toNat then (s.breakLoft cl word).breakBarrier cl word else s
  .next (s.addRecord 2 unit.toNat (pa.setWidth 64) 0)

/-- A write of ERCONS.IDX: never beyond ERPTR.IDX (R339). -/
def Service.setErcons (v : Service) (i : BitVec 32) : Service :=
  { v with ercons := if (v.eridx - v.ercons).toNat < (i - v.ercons).toNat then v.eridx else i }

/-- ERCONS_WRITE (R339). -/
def execErconsWrite (v : BitVec 64) (s : State) : Host.Outcome State Fault Refusal :=
  .next (s.modSvc fun x => x.setErcons (v.setWidth 32))

/-- ERPTR_LOST_CLEAR: a 1 written to ERPTR.LOST (R334). -/
def execErptrLostClear (s : State) : Host.Outcome State Fault Refusal := .next (s.modSvc fun x => { x with lost := false })

/-! ### Registers (R331, R333, R334) -/

/-- A write of QOWNn: nothing while queue n is not DISABLED (R333). -/
def State.setQown (s : State) (n : Nat) (v : BitVec 8) : State :=
  if (s.hqAt n).st = .disabled then s.modSvc fun x => { x with qown := x.qown.setIfInBounds n (v &&& 0xBF) } else s

/-- QOWN_WRITE (R333). -/
def execQownWrite (n : Fin 64) (v : BitVec 8) (s : State) : Host.Outcome State Fault Refusal := .next (s.setQown n.val v)

/-- Write a 64-bit register of the service window; one of the QOWN bytes' registers writes eight of them. Reserved and read-only
fields keep their values (R5, R6). -/
def State.setServiceReg (s : State) (off : Nat) (w : X64) : State :=
  match off with
  | 0x00 => s.modSvc fun v => { v with erbase := maskTo w [(12, 40), (0, 4)] }
  | 0x08 => if bitAt w 63 then s.modSvc fun v => { v with lost := false } else s
  | 0x10 => s.modSvc fun v => { v with upsrc := maskTo w [(0, 52)] }
  | 0x18 => s.modSvc fun v => v.setUpctl w
  | 0x28 => s.modSvc fun v => v.setErcons (w.setWidth 32)
  | 0x30 => s.modSvc fun v => { v with partid := fld w 0 12 }
  | _ =>
    if 0x100 ≤ off ∧ off < 0x140 then
      (List.range 8).foldl (fun s i => s.setQown (off / 8 * 8 - 0x100 + i) (BitVec.ofNat 8 (fld w (8 * i) 8))) s
    else s

/-- Write a register of a window of the service space (R331); an address that names no register changes nothing. A gated
cluster answers ASLEEP, and one that gates or wakes makes the writer send again, but for CPWR (R318) [log 86]. -/
def State.registerWrite (s : State) (pa : Nat) (v : X64) : State :=
  match placeOf pa with
  | .cluster n off =>
    if off < 8 then s.setWindowReg n off v
    else
      match (s.clusterAt n).st with
      | .running => s.setWindowReg n off v
      | .gated => s
      | .gating => s.writeLate n pa v
      | .waking => s.writeLate n pa v
  | .queue off => if s.svc.boot = 4 then s.setQueueReg off v else s
  | .port off => s.setPortReg off v
  | .service off => s.setServiceReg off v
  | .hbm => s
  | .host => s
  | .hole => s

/-- REGISTER_WRITE (R5, R331). -/
def execRegisterWrite (pa : BitVec 52) (v : BitVec 64) (s : State) : Host.Outcome State Fault Refusal :=
  .next (s.registerWrite pa.toNat v)

/-! ### The host port (R332) -/

/-- Is queue n owned by virtual function f + 1 (R333). -/
def Service.owns (v : Service) (f n : Nat) : Bool :=
  let o := vat v.qown n 0
  o.getLsbD 7 && decide (o.toNat % 64 = f)

/-- A register of BAR0: of the physical function (none), or of virtual function f + 1, which sees the blocks of its own
queues alone (R332). -/
def State.bar0Reg (s : State) (fn : Option Nat) (off : Nat) : X64 :=
  match fn with
  | none =>
    if off < 0x1000 then (if s.svc.boot = 4 then s.queueReg off else 0)
    else if 0x10000 ≤ off ∧ off < 0x11000 then s.svc.reg (off - 0x10000)
    else 0
  | some f => if off < 0x1000 ∧ s.svc.owns f (off / 64) = true ∧ s.svc.boot = 4 then s.queueReg off else 0

/-- Write a register of BAR0 (R332). -/
def State.setBar0Reg (s : State) (fn : Option Nat) (off : Nat) (v : X64) : State :=
  match fn with
  | none =>
    if off < 0x1000 then (if s.svc.boot = 4 then s.setQueueReg off v else s)
    else if 0x10000 ≤ off ∧ off < 0x11000 then s.setServiceReg (off - 0x10000) v
    else s
  | some f => if off < 0x1000 ∧ s.svc.owns f (off / 64) = true ∧ s.svc.boot = 4 then s.setQueueReg off v else s

/-- What a partial write leaves in the other bytes of a register of BAR0 (R5). -/
def State.bar0Kept (s : State) (fn : Option Nat) (off : Nat) : X64 :=
  if fn = none ∧ 0x10000 ≤ off then s.svc.kept (off - 0x10000) else s.bar0Reg fn off

/-- Write bytes through BAR0, over as many registers as they touch (R5, R332). -/
def State.bar0Write (s : State) (fn : Option Nat) (off : Nat) (data : List Byte) : State :=
  (windowRegs off data.length).foldl (fun s r => s.setBar0Reg fn r (windowMerge (s.bar0Kept fn r) r off data)) s

/-- The host receives an answer: bytes, or Unsupported Request. -/
def State.hostAnswer (s : State) (r : Option (List Byte)) : State := s.modSvc fun v => { v with hostReply := r }

/-- A read or write of device memory through BAR2: above its range it completes with Unsupported Request (R332). A byte of a
poisoned line reads as a free value (log 5). -/
def State.bar2 (s : State) (write : Bool) (a : Nat) (data : List Byte) : Option State :=
  if hbmBytes < a + data.length then some (s.hostAnswer none)
  else if (List.range data.length).any fun i => s.stackHeld (a + i) then none
  else if write then some (s.writeOver a data)
  else
    let b := (s.readHome a data.length).zipIdx.map fun p =>
      if s.poisoned (a + p.2) then (Config.freeBits (s.free + p.2)).setWidth 8 else p.1
    some { s.hostAnswer (some b) with free := s.free + data.length }

/-- An AtomicOp of the host: FetchAdd 0, Swap 1 or CAS 2, on 4 or 8 bytes; the old value is the answer (R332). -/
def State.bar2Atomic (s : State) (op a : Nat) (data : List Byte) : Option State :=
  let n := if op = 2 then data.length / 2 else data.length
  if hbmBytes < a + n ∨ (n ≠ 4 ∧ n ≠ 8) ∨ 2 < op ∨ a % n ≠ 0 ∨ s.poisoned a = true then some (s.hostAnswer none)
  else if s.stackHeld a then none
  else
    let s := s.lockLine a
    let old := ofBytes (s.readHome a n)
    let v := ofBytes (data.take n)
    let new := match op with
      | 0 => (old + v) % 2 ^ (8 * n)
      | 1 => v
      | _ => if old = v then ofBytes ((data.drop n).take n) else old
    some ((s.writeHome a (toBytes n new)).hostAnswer (some (toBytes n old)))

/-- HOST_MEMORY_REQUEST (R332). Bits 63:62 of the address name what the request goes to, the model's own numbering (log 25):
0 BAR2; 1 BAR0 of the physical function; 2 BAR0 of the virtual function that bits 61:56 name, less 1; 3 an AtomicOp on BAR2,
its operation in bits 61:60, of which 3 is no request but the host's own store to its memory behind a window. A read asks for as
many bytes as `data` has. A request to a drained stack is held there (R337). -/
def execHostMemoryRequest (write : Bool) (addr : BitVec 64) (data : List Byte) (s : State) : Host.Outcome State Fault Refusal :=
  let reg (fn : Option Nat) (off : Nat) : State :=
    if write then s.bar0Write fn off data else s.hostAnswer (some (windowBytes (s.bar0Reg fn) off data.length))
  let wait : State := { s with held := s.held ++ [.host write addr data] }
  match fld addr 62 2 with
  | 0 => .next ((s.bar2 write (fld addr 0 62) data).getD wait)
  | 1 => .next (reg none (fld addr 0 20))
  | 2 => .next (reg (some (fld addr 56 6)) (fld addr 0 12))
  | _ =>
    if fld addr 60 2 = 3 then .next (s.hostWrite (fld addr 0 60) data)
    else .next ((s.bar2Atomic (fld addr 60 2) (fld addr 0 60) data).getD wait)

/-! ### Identity (R335) -/

/-- The part answers an SPDM request. -/
def State.spdmAnswer (s : State) (a : SpdmAnswer) : State := { s with spdm := { s.spdm with answers := s.spdm.answers ++ [a] } }

/-- A request that needs the asymmetric algorithm: an ERROR when none was selected (R335). -/
def State.spdmFull (s : State) (a : SpdmAnswer) : State := s.spdmAnswer (if s.spdm.asymOk then a else .error)

/-- The SHA3-256 digest of the running image of a measurement index (R335). -/
def State.measure (s : State) (i : Nat) : BitVec 256 := Config.sha3 (s.svc.image i)

/-- The version number entry of SPDM 1.3 [PRESUMED, log 68] (R335). -/
def spdmVersion : BitVec 16 := 0x1300
/-- ML-DSA-44 as SPDM 1.3 can name it: under the IANA registry, with Camyon's enterprise number (R335). -/
def mlDsa44 : ExtAlg := { registry := .iana, vendor := Config.camyon, id := 0x0001 }

/-- GET_VERSION (R335). -/
def execGetVersion (s : State) : Host.Outcome State Fault Refusal := .next (s.spdmAnswer (.version spdmVersion))
/-- GET_CAPABILITIES (R335). -/
def execGetCapabilities (s : State) : Host.Outcome State Fault Refusal := .next (s.spdmAnswer (.capabilities Config.spdmCapabilities))
/-- NEGOTIATE_ALGORITHMS: SHA3-256 is selected when the requester offers it, no BaseAsymAlgo ever, and ML-DSA-44 as ExtAsym entry when
the requester offers that (R335). -/
def execNegotiateAlgorithms (sha3 mlDsa : Bool) (s : State) : Host.Outcome State Fault Refusal :=
  .next ({ s with spdm := { s.spdm with negotiated := true, asymOk := mlDsa } }.spdmAnswer (.algorithms sha3 0 (if mlDsa then [mlDsa44] else [])))
/-- GET_DIGESTS: the digest of the chain of slot 0 (R335). -/
def execGetDigests (s : State) : Host.Outcome State Fault Refusal := .next (s.spdmFull (.digests (Config.sha3 Config.certChain)))
/-- GET_CERTIFICATE: slot 0 alone holds a chain (R335). -/
def execGetCertificate (slot : Fin 8) (s : State) : Host.Outcome State Fault Refusal :=
  .next (s.spdmFull (if slot.val = 0 then .certificate Config.certChain else .error))
/-- CHALLENGE (R335). -/
def execChallenge (slot : Fin 8) (nonce : BitVec 256) (s : State) : Host.Outcome State Fault Refusal :=
  .next (s.spdmFull (if slot.val = 0 then .challengeAuth (Config.signature (toBytes 32 nonce.toNat ++ Config.certChain)) else .error))
/-- GET_MEASUREMENTS: one index, or all with 255 (R335). -/
def execGetMeasurements (index : BitVec 8) (s : State) : Host.Outcome State Fault Refusal :=
  let i := index.toNat
  .next (s.spdmFull (
    if i = 255 then .measurements i ((List.range 42).map fun j => s.measure (j + 1))
    else if 1 ≤ i ∧ i ≤ 42 then .measurements i [s.measure i]
    else if i = 0 then .measurements 0 []
    else .error))
/-- KEY_EXCHANGE: ERROR UnsupportedRequest (R335). -/
def execKeyExchange (s : State) : Host.Outcome State Fault Refusal := .next (s.spdmAnswer .unsupportedRequest)

end Sys2Proof.Machine
end

