-- ==== Sys2Proof/Machine/Dispatch.lean ====
section
/-! DEFINITION. The dispatcher: one arm per instruction, each a call of its meaning. -/

namespace Sys2Proof.Machine

/-- What each instruction and each step of the device does (R75). -/
def exec (i : Instr) (s : State) : Host.Outcome State Fault Refusal :=
  match i with
  | .addVv d a b t q c => Sys2Proof.Machine.execAddVv d a b t q c s
  | .addVs d a b t q => Sys2Proof.Machine.execAddVs d a b t q s
  | .addVi d a im t => Sys2Proof.Machine.execAddVi d a im t s
  | .addSc d a b t q => Sys2Proof.Machine.execAddSc d a b t q s
  | .subVv d a b t q c => Sys2Proof.Machine.execSubVv d a b t q c s
  | .subVs d a b t q => Sys2Proof.Machine.execSubVs d a b t q s
  | .subVi d a im t => Sys2Proof.Machine.execSubVi d a im t s
  | .subSc d a b t q => Sys2Proof.Machine.execSubSc d a b t q s
  | .mulVv d a b t q c => Sys2Proof.Machine.execMulVv d a b t q c s
  | .mulVs d a b t q => Sys2Proof.Machine.execMulVs d a b t q s
  | .mulVi d a im t => Sys2Proof.Machine.execMulVi d a im t s
  | .mulSc d a b t q => Sys2Proof.Machine.execMulSc d a b t q s
  | .mulhVv d a b t c => Sys2Proof.Machine.execMulhVv d a b t c s
  | .mulhVs d a b t => Sys2Proof.Machine.execMulhVs d a b t s
  | .mulhVi d a im t => Sys2Proof.Machine.execMulhVi d a im t s
  | .mulhSc d a b t => Sys2Proof.Machine.execMulhSc d a b t s
  | .minVv d a b t c => Sys2Proof.Machine.execMinVv d a b t c s
  | .minVs d a b t => Sys2Proof.Machine.execMinVs d a b t s
  | .minVi d a im t => Sys2Proof.Machine.execMinVi d a im t s
  | .minSc d a b t => Sys2Proof.Machine.execMinSc d a b t s
  | .maxVv d a b t c => Sys2Proof.Machine.execMaxVv d a b t c s
  | .maxVs d a b t => Sys2Proof.Machine.execMaxVs d a b t s
  | .maxVi d a im t => Sys2Proof.Machine.execMaxVi d a im t s
  | .maxSc d a b t => Sys2Proof.Machine.execMaxSc d a b t s
  | .andVv d a b t c => Sys2Proof.Machine.execAndVv d a b t c s
  | .andVs d a b t => Sys2Proof.Machine.execAndVs d a b t s
  | .andVi d a im t => Sys2Proof.Machine.execAndVi d a im t s
  | .andSc d a b t => Sys2Proof.Machine.execAndSc d a b t s
  | .orVv d a b t c => Sys2Proof.Machine.execOrVv d a b t c s
  | .orVs d a b t => Sys2Proof.Machine.execOrVs d a b t s
  | .orVi d a im t => Sys2Proof.Machine.execOrVi d a im t s
  | .orSc d a b t => Sys2Proof.Machine.execOrSc d a b t s
  | .xorVv d a b t c => Sys2Proof.Machine.execXorVv d a b t c s
  | .xorVs d a b t => Sys2Proof.Machine.execXorVs d a b t s
  | .xorVi d a im t => Sys2Proof.Machine.execXorVi d a im t s
  | .xorSc d a b t => Sys2Proof.Machine.execXorSc d a b t s
  | .shlVv d a b t q c => Sys2Proof.Machine.execShlVv d a b t q c s
  | .shlVs d a b t q => Sys2Proof.Machine.execShlVs d a b t q s
  | .shlVi d a im t => Sys2Proof.Machine.execShlVi d a im t s
  | .shlSc d a b t q => Sys2Proof.Machine.execShlSc d a b t q s
  | .shrVv d a b t c => Sys2Proof.Machine.execShrVv d a b t c s
  | .shrVs d a b t => Sys2Proof.Machine.execShrVs d a b t s
  | .shrVi d a im t => Sys2Proof.Machine.execShrVi d a im t s
  | .shrSc d a b t => Sys2Proof.Machine.execShrSc d a b t s
  | .shraVv d a b t c => Sys2Proof.Machine.execShraVv d a b t c s
  | .shraVs d a b t => Sys2Proof.Machine.execShraVs d a b t s
  | .shraVi d a im t => Sys2Proof.Machine.execShraVi d a im t s
  | .shraSc d a b t => Sys2Proof.Machine.execShraSc d a b t s
  | .maddVv d a b t q c => Sys2Proof.Machine.execMaddVv d a b t q c s
  | .maddVs d a b t q => Sys2Proof.Machine.execMaddVs d a b t q s
  | .maddVi d a im t => Sys2Proof.Machine.execMaddVi d a im t s
  | .divVv d a b t q c => Sys2Proof.Machine.execDivVv d a b t q c s
  | .divVs d a b t q => Sys2Proof.Machine.execDivVs d a b t q s
  | .divSc d a b t q => Sys2Proof.Machine.execDivSc d a b t q s
  | .remVv d a b t c => Sys2Proof.Machine.execRemVv d a b t c s
  | .remVs d a b t => Sys2Proof.Machine.execRemVs d a b t s
  | .remSc d a b t => Sys2Proof.Machine.execRemSc d a b t s
  | .rshrVv d a b t c => Sys2Proof.Machine.execRshrVv d a b t c s
  | .rshrVs d a b t => Sys2Proof.Machine.execRshrVs d a b t s
  | .rshrVi d a im t => Sys2Proof.Machine.execRshrVi d a im t s
  | .rshrSc d a b t => Sys2Proof.Machine.execRshrSc d a b t s
  | .andnVv d a b t c => Sys2Proof.Machine.execAndnVv d a b t c s
  | .andnVs d a b t => Sys2Proof.Machine.execAndnVs d a b t s
  | .andnVi d a im t => Sys2Proof.Machine.execAndnVi d a im t s
  | .andnSc d a b t => Sys2Proof.Machine.execAndnSc d a b t s
  | .clzVv d a t => Sys2Proof.Machine.execClzVv d a t s
  | .clzSc d a t => Sys2Proof.Machine.execClzSc d a t s
  | .popcVv d a t => Sys2Proof.Machine.execPopcVv d a t s
  | .popcSc d a t => Sys2Proof.Machine.execPopcSc d a t s
  | .pickVv d a b t c => Sys2Proof.Machine.execPickVv d a b t c s
  | .pickVs d a b t => Sys2Proof.Machine.execPickVs d a b t s
  | .pickVi d a im t => Sys2Proof.Machine.execPickVi d a im t s
  | .wmulVv d a b t c => Sys2Proof.Machine.execWmulVv d a b t c s
  | .wmacVv d a b t q c => Sys2Proof.Machine.execWmacVv d a b t q c s
  | .wmacVs d a b t q => Sys2Proof.Machine.execWmacVs d a b t q s
  | .nrshrVv d a b t c => Sys2Proof.Machine.execNrshrVv d a b t c s
  | .nrshrVs d a b t => Sys2Proof.Machine.execNrshrVs d a b t s
  | .nrshrVi d a im t => Sys2Proof.Machine.execNrshrVi d a im t s
  | .absVv d a t q => Sys2Proof.Machine.execAbsVv d a t q s
  | .absSc d a t q => Sys2Proof.Machine.execAbsSc d a t q s
  | .faddVv d a b t q c => Sys2Proof.Machine.execFaddVv d a b t q c s
  | .faddVs d a b t q => Sys2Proof.Machine.execFaddVs d a b t q s
  | .faddVi d a im t => Sys2Proof.Machine.execFaddVi d a im t s
  | .faddSc d a b t q => Sys2Proof.Machine.execFaddSc d a b t q s
  | .fsubVv d a b t q c => Sys2Proof.Machine.execFsubVv d a b t q c s
  | .fsubVs d a b t q => Sys2Proof.Machine.execFsubVs d a b t q s
  | .fsubVi d a im t => Sys2Proof.Machine.execFsubVi d a im t s
  | .fsubSc d a b t q => Sys2Proof.Machine.execFsubSc d a b t q s
  | .fmulVv d a b t q c => Sys2Proof.Machine.execFmulVv d a b t q c s
  | .fmulVs d a b t q => Sys2Proof.Machine.execFmulVs d a b t q s
  | .fmulVi d a im t => Sys2Proof.Machine.execFmulVi d a im t s
  | .fmulSc d a b t q => Sys2Proof.Machine.execFmulSc d a b t q s
  | .fmaVv d a b t q c => Sys2Proof.Machine.execFmaVv d a b t q c s
  | .fmaVs d a b t q => Sys2Proof.Machine.execFmaVs d a b t q s
  | .fmaVi d a im t => Sys2Proof.Machine.execFmaVi d a im t s
  | .fmaSc d a b t q => Sys2Proof.Machine.execFmaSc d a b t q s
  | .fnmsVv d a b t q c => Sys2Proof.Machine.execFnmsVv d a b t q c s
  | .fnmsVs d a b t q => Sys2Proof.Machine.execFnmsVs d a b t q s
  | .fnmsVi d a im t => Sys2Proof.Machine.execFnmsVi d a im t s
  | .fnmsSc d a b t q => Sys2Proof.Machine.execFnmsSc d a b t q s
  | .fnmaVv d a b t q c => Sys2Proof.Machine.execFnmaVv d a b t q c s
  | .fnmaVs d a b t q => Sys2Proof.Machine.execFnmaVs d a b t q s
  | .fnmaVi d a im t => Sys2Proof.Machine.execFnmaVi d a im t s
  | .fnmaSc d a b t q => Sys2Proof.Machine.execFnmaSc d a b t q s
  | .fminVv d a b t c => Sys2Proof.Machine.execFminVv d a b t c s
  | .fminVs d a b t => Sys2Proof.Machine.execFminVs d a b t s
  | .fminVi d a im t => Sys2Proof.Machine.execFminVi d a im t s
  | .fminSc d a b t => Sys2Proof.Machine.execFminSc d a b t s
  | .fmaxVv d a b t c => Sys2Proof.Machine.execFmaxVv d a b t c s
  | .fmaxVs d a b t => Sys2Proof.Machine.execFmaxVs d a b t s
  | .fmaxVi d a im t => Sys2Proof.Machine.execFmaxVi d a im t s
  | .fmaxSc d a b t => Sys2Proof.Machine.execFmaxSc d a b t s
  | .fdivVv d a b t q c => Sys2Proof.Machine.execFdivVv d a b t q c s
  | .fdivSc d a b t q => Sys2Proof.Machine.execFdivSc d a b t q s
  | .fsqrtVv d a t q => Sys2Proof.Machine.execFsqrtVv d a t q s
  | .fsqrtSc d a t q => Sys2Proof.Machine.execFsqrtSc d a t q s
  | .frcpVv d a t q => Sys2Proof.Machine.execFrcpVv d a t q s
  | .frcpSc d a t q => Sys2Proof.Machine.execFrcpSc d a t q s
  | .frsqVv d a t q => Sys2Proof.Machine.execFrsqVv d a t q s
  | .frsqSc d a t q => Sys2Proof.Machine.execFrsqSc d a t q s
  | .fscaleVv d a b t q c => Sys2Proof.Machine.execFscaleVv d a b t q c s
  | .fscaleVs d a b t q => Sys2Proof.Machine.execFscaleVs d a b t q s
  | .fscaleVi d a im t => Sys2Proof.Machine.execFscaleVi d a im t s
  | .frintVv d a t q => Sys2Proof.Machine.execFrintVv d a t q s
  | .fclassVv d a t => Sys2Proof.Machine.execFclassVv d a t s
  | .fclassSc d a t => Sys2Proof.Machine.execFclassSc d a t s
  | .fsgnAbs d a t => Sys2Proof.Machine.execFsgnAbs d a t s
  | .fsgnNeg d a t => Sys2Proof.Machine.execFsgnNeg d a t s
  | .fsgnCopy d a b t => Sys2Proof.Machine.execFsgnCopy d a b t s
  | .cvtVv d a u t m => Sys2Proof.Machine.execCvtVv d a u t m s
  | .cvtSc d a u t m => Sys2Proof.Machine.execCvtSc d a u t m s
  | .cvts d a u t m => Sys2Proof.Machine.execCvts d a u t m s
  | .cvtw d a u t m => Sys2Proof.Machine.execCvtw d a u t m s
  | .scld d a u t m => Sys2Proof.Machine.execScld d a u t m s
  | .cbld k a => Sys2Proof.Machine.execCbld k a s
  | .cmpEqVv d a b t c => Sys2Proof.Machine.execCmpEqVv d a b t c s
  | .cmpEqVs d a b t => Sys2Proof.Machine.execCmpEqVs d a b t s
  | .cmpEqVi d a im t => Sys2Proof.Machine.execCmpEqVi d a im t s
  | .cmpEqSc d a b t => Sys2Proof.Machine.execCmpEqSc d a b t s
  | .cmpNeVv d a b t c => Sys2Proof.Machine.execCmpNeVv d a b t c s
  | .cmpNeVs d a b t => Sys2Proof.Machine.execCmpNeVs d a b t s
  | .cmpNeVi d a im t => Sys2Proof.Machine.execCmpNeVi d a im t s
  | .cmpNeSc d a b t => Sys2Proof.Machine.execCmpNeSc d a b t s
  | .cmpLtVv d a b t c => Sys2Proof.Machine.execCmpLtVv d a b t c s
  | .cmpLtVs d a b t => Sys2Proof.Machine.execCmpLtVs d a b t s
  | .cmpLtVi d a im t => Sys2Proof.Machine.execCmpLtVi d a im t s
  | .cmpLtSc d a b t => Sys2Proof.Machine.execCmpLtSc d a b t s
  | .cmpLeVv d a b t c => Sys2Proof.Machine.execCmpLeVv d a b t c s
  | .cmpLeVs d a b t => Sys2Proof.Machine.execCmpLeVs d a b t s
  | .cmpLeVi d a im t => Sys2Proof.Machine.execCmpLeVi d a im t s
  | .cmpLeSc d a b t => Sys2Proof.Machine.execCmpLeSc d a b t s
  | .fcmpEqVv d a b t c => Sys2Proof.Machine.execFcmpEqVv d a b t c s
  | .fcmpEqVs d a b t => Sys2Proof.Machine.execFcmpEqVs d a b t s
  | .fcmpEqVi d a im t => Sys2Proof.Machine.execFcmpEqVi d a im t s
  | .fcmpEqSc d a b t => Sys2Proof.Machine.execFcmpEqSc d a b t s
  | .fcmpLtVv d a b t c => Sys2Proof.Machine.execFcmpLtVv d a b t c s
  | .fcmpLtVs d a b t => Sys2Proof.Machine.execFcmpLtVs d a b t s
  | .fcmpLtVi d a im t => Sys2Proof.Machine.execFcmpLtVi d a im t s
  | .fcmpLtSc d a b t => Sys2Proof.Machine.execFcmpLtSc d a b t s
  | .fcmpLeVv d a b t c => Sys2Proof.Machine.execFcmpLeVv d a b t c s
  | .fcmpLeVs d a b t => Sys2Proof.Machine.execFcmpLeVs d a b t s
  | .fcmpLeVi d a im t => Sys2Proof.Machine.execFcmpLeVi d a im t s
  | .fcmpLeSc d a b t => Sys2Proof.Machine.execFcmpLeSc d a b t s
  | .fcmpUnVv d a b t c => Sys2Proof.Machine.execFcmpUnVv d a b t c s
  | .fcmpUnVs d a b t => Sys2Proof.Machine.execFcmpUnVs d a b t s
  | .fcmpUnVi d a im t => Sys2Proof.Machine.execFcmpUnVi d a im t s
  | .fcmpUnSc d a b t => Sys2Proof.Machine.execFcmpUnSc d a b t s
  | .mlogAnd d a b => Sys2Proof.Machine.execMlogAnd d a b s
  | .mlogOr d a b => Sys2Proof.Machine.execMlogOr d a b s
  | .mlogXor d a b => Sys2Proof.Machine.execMlogXor d a b s
  | .msbf d a => Sys2Proof.Machine.execMsbf d a s
  | .msif d a => Sys2Proof.Machine.execMsif d a s
  | .mpopc d a => Sys2Proof.Machine.execMpopc d a s
  | .mfirst d a => Sys2Proof.Machine.execMfirst d a s
  | .msetAll d => Sys2Proof.Machine.execMsetAll d s
  | .msetNone d => Sys2Proof.Machine.execMsetNone d s
  | .msetVl d => Sys2Proof.Machine.execMsetVl d s
  | .compress d a t => Sys2Proof.Machine.execCompress d a t s
  | .expand d a t => Sys2Proof.Machine.execExpand d a t s
  | .iota d t => Sys2Proof.Machine.execIota d t s
  | .vperm d a b t => Sys2Proof.Machine.execVperm d a b t s
  | .vslupVs d a b t => Sys2Proof.Machine.execVslupVs d a b t s
  | .vslupVi d a im t => Sys2Proof.Machine.execVslupVi d a im t s
  | .vsldnVs d a b t => Sys2Proof.Machine.execVsldnVs d a b t s
  | .vsldnVi d a im t => Sys2Proof.Machine.execVsldnVi d a im t s
  | .vbcastVs d b t => Sys2Proof.Machine.execVbcastVs d b t s
  | .vbcastVi d im t => Sys2Proof.Machine.execVbcastVi d im t s
  | .bperm d a b t => Sys2Proof.Machine.execBperm d a b t s
  | .vzipZip d a b t => Sys2Proof.Machine.execVzipZip d a b t s
  | .vzipUnzip d a t => Sys2Proof.Machine.execVzipUnzip d a t s
  | .vmoveExt d a t => Sys2Proof.Machine.execVmoveExt d a t s
  | .vmoveIns d a t => Sys2Proof.Machine.execVmoveIns d a t s
  | .vmoveElt d a t => Sys2Proof.Machine.execVmoveElt d a t s
  | .redSum d a b t sat => Sys2Proof.Machine.execRedSum d a b t sat s
  | .redMin d a b t => Sys2Proof.Machine.execRedMin d a b t s
  | .redMax d a b t => Sys2Proof.Machine.execRedMax d a b t s
  | .redAnd d a b t => Sys2Proof.Machine.execRedAnd d a b t s
  | .redOr d a b t => Sys2Proof.Machine.execRedOr d a b t s
  | .redXor d a b t => Sys2Proof.Machine.execRedXor d a b t s
  | .fredOsum d a b t => Sys2Proof.Machine.execFredOsum d a b t s
  | .fredTsum d a b t => Sys2Proof.Machine.execFredTsum d a b t s
  | .fredMin d a b t => Sys2Proof.Machine.execFredMin d a b t s
  | .fredMax d a b t => Sys2Proof.Machine.execFredMax d a b t s
  | .vmrgLo d a b t => Sys2Proof.Machine.execVmrgLo d a b t s
  | .vmrgHi d a b t => Sys2Proof.Machine.execVmrgHi d a b t s
  | .vsort d a t => Sys2Proof.Machine.execVsort d a t s
  | .mmaAccResident d a q t m g => Sys2Proof.Machine.execMmaAccResident d a q t m g s
  | .mmaZeroResident d a q t m g => Sys2Proof.Machine.execMmaZeroResident d a q t m g s
  | .mmaAccRegister d a b t m g => Sys2Proof.Machine.execMmaAccRegister d a b t m g s
  | .mmaZeroRegister d a b t m g => Sys2Proof.Machine.execMmaZeroRegister d a b t m g s
  | .accrd d a t q sat => Sys2Proof.Machine.execAccrd d a t q sat s
  | .accwr d a t => Sys2Proof.Machine.execAccwr d a t s
  | .accz d => Sys2Proof.Machine.execAccz d s
  | .dfma d a b q => Sys2Proof.Machine.execDfma d a b q s
  | .ldr d q b t => Sys2Proof.Machine.execLdr d q b t s
  | .str d q b t => Sys2Proof.Machine.execStr d q b t s
  | .ldrx d q b t => Sys2Proof.Machine.execLdrx d q b t s
  | .strx d q b t => Sys2Proof.Machine.execStrx d q b t s
  | .ldf sc d a b t ord urg strm => Sys2Proof.Machine.execLdf sc d a b t ord urg strm s
  | .ldfx sc d a b t ord urg strm => Sys2Proof.Machine.execLdfx sc d a b t ord urg strm s
  | .stf sc d a b t ord urg strm => Sys2Proof.Machine.execStf sc d a b t ord urg strm s
  | .stfx sc d a b t ord urg strm => Sys2Proof.Machine.execStfx sc d a b t ord urg strm s
  | .stfm sc d a b t ord urg strm => Sys2Proof.Machine.execStfm sc d a b t ord urg strm s
  | .scaddInt sc d a b t => Sys2Proof.Machine.execScaddInt sc d a b t s
  | .scaddFlt sc d a b t => Sys2Proof.Machine.execScaddFlt sc d a b t s
  | .amoAdd sc d a b t => Sys2Proof.Machine.execAmoAdd sc d a b t s
  | .amoMin sc d a b t => Sys2Proof.Machine.execAmoMin sc d a b t s
  | .amoMax sc d a b t => Sys2Proof.Machine.execAmoMax sc d a b t s
  | .amoAnd sc d a b t => Sys2Proof.Machine.execAmoAnd sc d a b t s
  | .amoOr sc d a b t => Sys2Proof.Machine.execAmoOr sc d a b t s
  | .amoXor sc d a b t => Sys2Proof.Machine.execAmoXor sc d a b t s
  | .amoSwap sc d a b t => Sys2Proof.Machine.execAmoSwap sc d a b t s
  | .cas sc d a b t => Sys2Proof.Machine.execCas sc d a b t s
  | .setvl d a t => Sys2Proof.Machine.execSetvl d a t s
  | .ldsB d a b => Sys2Proof.Machine.execLdsB d a b s
  | .ldsH d a b => Sys2Proof.Machine.execLdsH d a b s
  | .ldsW d a b => Sys2Proof.Machine.execLdsW d a b s
  | .ldsD d a b => Sys2Proof.Machine.execLdsD d a b s
  | .ldsBz d a b => Sys2Proof.Machine.execLdsBz d a b s
  | .ldsHz d a b => Sys2Proof.Machine.execLdsHz d a b s
  | .ldsWz d a b => Sys2Proof.Machine.execLdsWz d a b s
  | .stsB d a b => Sys2Proof.Machine.execStsB d a b s
  | .stsH d a b => Sys2Proof.Machine.execStsH d a b s
  | .stsW d a b => Sys2Proof.Machine.execStsW d a b s
  | .stsD d a b => Sys2Proof.Machine.execStsD d a b s
  | .fenceSv sc => Sys2Proof.Machine.execFenceSv sc s
  | .fenceVs sc => Sys2Proof.Machine.execFenceVs sc s
  | .fenceVv sc => Sys2Proof.Machine.execFenceVv sc s
  | .fenceAll sc => Sys2Proof.Machine.execFenceAll sc s
  | .qset q a sc => Sys2Proof.Machine.execQset q a sc s
  | .qdrop q => Sys2Proof.Machine.execQdrop q s
  | .qwait q a => Sys2Proof.Machine.execQwait q a s
  | .qstat q d u => Sys2Proof.Machine.execQstat q d u s
  | .waitAny a => Sys2Proof.Machine.execWaitAny a s
  | .waitAll a => Sys2Proof.Machine.execWaitAll a s
  | .ffrdy a d => Sys2Proof.Machine.execFfrdy a d s
  | .launch a b => Sys2Proof.Machine.execLaunch a b s
  | .loop n x l u => Sys2Proof.Machine.execLoop n x l u s
  | .kadv k => Sys2Proof.Machine.execKadv k s
  | .krd k d => Sys2Proof.Machine.execKrd k d s
  | .kset k a => Sys2Proof.Machine.execKset k a s
  | .br o => Sys2Proof.Machine.execBr o s
  | .bc c o => Sys2Proof.Machine.execBc c o s
  | .bcClr c o => Sys2Proof.Machine.execBcClr c o s
  | .call o => Sys2Proof.Machine.execCall o s
  | .jmpRet => Sys2Proof.Machine.execJmpRet s
  | .jmpJr d => Sys2Proof.Machine.execJmpJr d s
  | .liLo d im => Sys2Proof.Machine.execLiLo d im s
  | .liHi d im => Sys2Proof.Machine.execLiHi d im s
  | .workid d im => Sys2Proof.Machine.execWorkid d im s
  | .endk sc => Sys2Proof.Machine.execEndk sc s
  | .wmark sc a b => Sys2Proof.Machine.execWmark sc a b s
  | .barInit sc a b => Sys2Proof.Machine.execBarInit sc a b s
  | .barArrive sc a => Sys2Proof.Machine.execBarArrive sc a s
  | .barWait sc a => Sys2Proof.Machine.execBarWait sc a s
  | .barTest sc d a => Sys2Proof.Machine.execBarTest sc d a s
  | .vpush d a b n => Sys2Proof.Machine.execVpush d a b n s
  | .trap im => Sys2Proof.Machine.execTrap im s
  | .svc im => Sys2Proof.Machine.execSvc im s
  | .eret => Sys2Proof.Machine.execEret s
  | .csrr d c => Sys2Proof.Machine.execCsrr d c s
  | .csrw a c => Sys2Proof.Machine.execCsrw a c s
  | .tlbi a => Sys2Proof.Machine.execTlbi a s
  | .tlbs => Sys2Proof.Machine.execTlbs s
  | .sweep d a => Sys2Proof.Machine.execSweep d a s
  | .relmove d a => Sys2Proof.Machine.execRelmove d a s
  | .vsave a => Sys2Proof.Machine.execVsave a s
  | .vrest a => Sys2Proof.Machine.execVrest a s
  | .idle => Sys2Proof.Machine.execIdle s
  | .vlcapWrite a => Sys2Proof.Machine.execVlcapWrite a s
  | .nestWrite a => Sys2Proof.Machine.execNestWrite a s
  | .femaskWrite a => Sys2Proof.Machine.execFemaskWrite a s
  | .ctxidWrite a => Sys2Proof.Machine.execCtxidWrite a s
  | .stallClears k => Sys2Proof.Machine.execStallClears k s
  | .passEnd k => Sys2Proof.Machine.execPassEnd k s
  | .counterEventRetire k => Sys2Proof.Machine.execCounterEventRetire k s
  | .issueOpportunity core => Sys2Proof.Machine.execIssueOpportunity core s
  | .farAccessComplete k => Sys2Proof.Machine.execFarAccessComplete k s
  | .deliveryLands k q => Sys2Proof.Machine.execDeliveryLands k q s
  | .watermarkReread k q => Sys2Proof.Machine.execWatermarkReread k q s
  | .elementRelease k q => Sys2Proof.Machine.execElementRelease k q s
  | .writebackAck k q => Sys2Proof.Machine.execWritebackAck k q s
  | .qdropComplete k q => Sys2Proof.Machine.execQdropComplete k q s
  | .trapEntry k => Sys2Proof.Machine.execTrapEntry k s
  | .preemptRequest k => Sys2Proof.Machine.execPreemptRequest k s
  | .preemptTaken k => Sys2Proof.Machine.execPreemptTaken k s
  | .droverCopyLine op => Sys2Proof.Machine.execDroverCopyLine op s
  | .droverInvalidateAck op => Sys2Proof.Machine.execDroverInvalidateAck op s
  | .sweepWord op => Sys2Proof.Machine.execSweepWord op s
  | .tlbiReceive core => Sys2Proof.Machine.execTlbiReceive core s
  | .tlbiAcknowledge => Sys2Proof.Machine.execTlbiAcknowledge s
  | .hqtailDoorbell n tail => Sys2Proof.Machine.execHqtailDoorbell n tail s
  | .hqctlResume n => Sys2Proof.Machine.execHqctlResume n s
  | .hqctlSkip n => Sys2Proof.Machine.execHqctlSkip n s
  | .hqcfgEnable n => Sys2Proof.Machine.execHqcfgEnable n s
  | .hqcfgDisable n => Sys2Proof.Machine.execHqcfgDisable n s
  | .packetLaunch n => Sys2Proof.Machine.execPacketLaunch n s
  | .packetWaitWord n => Sys2Proof.Machine.execPacketWaitWord n s
  | .packetWriteWord n => Sys2Proof.Machine.execPacketWriteWord n s
  | .packetMarker n => Sys2Proof.Machine.execPacketMarker n s
  | .waitWordReread n => Sys2Proof.Machine.execWaitWordReread n s
  | .groupPlace => Sys2Proof.Machine.execGroupPlace s
  | .mgmtReleaseRecord crec => Sys2Proof.Machine.execMgmtReleaseRecord crec s
  | .dhaltHalt core => Sys2Proof.Machine.execDhaltHalt core s
  | .dhaltResume core => Sys2Proof.Machine.execDhaltResume core s
  | .dhaltStep core thr => Sys2Proof.Machine.execDhaltStep core thr s
  | .convoyDrainLimit k => Sys2Proof.Machine.execConvoyDrainLimit k s
  | .traceSample core => Sys2Proof.Machine.execTraceSample core s
  | .bucketRefill core => Sys2Proof.Machine.execBucketRefill core s
  | .pressureWindowEnd core waited => Sys2Proof.Machine.execPressureWindowEnd core waited s
  | .laneGroupGate core lg => Sys2Proof.Machine.execLaneGroupGate core lg s
  | .laneGroupUngate core lg => Sys2Proof.Machine.execLaneGroupUngate core lg s
  | .clusterIdleTimeout cl => Sys2Proof.Machine.execClusterIdleTimeout cl s
  | .clusterGatingComplete cl => Sys2Proof.Machine.execClusterGatingComplete cl s
  | .cpwrWake cl => Sys2Proof.Machine.execCpwrWake cl s
  | .clusterWakeComplete cl => Sys2Proof.Machine.execClusterWakeComplete cl s
  | .ccurWrite core v => Sys2Proof.Machine.execCcurWrite core v s
  | .energyMeterUpdate cl v => Sys2Proof.Machine.execEnergyMeterUpdate cl v s
  | .portRefill core => Sys2Proof.Machine.execPortRefill core s
  | .pieceIssue core => Sys2Proof.Machine.execPieceIssue core s
  | .congestionWindowIncrease core marked => Sys2Proof.Machine.execCongestionWindowIncrease core marked s
  | .tlctlTrain p => Sys2Proof.Machine.execTlctlTrain p s
  | .tlctlRelease p => Sys2Proof.Machine.execTlctlRelease p s
  | .tlctlDisable p => Sys2Proof.Machine.execTlctlDisable p s
  | .trainingComplete p => Sys2Proof.Machine.execTrainingComplete p s
  | .trainingTimeout p => Sys2Proof.Machine.execTrainingTimeout p s
  | .flitSend p => Sys2Proof.Machine.execFlitSend p s
  | .flitReceive p flit => Sys2Proof.Machine.execFlitReceive p flit s
  | .linkAck p seq => Sys2Proof.Machine.execLinkAck p seq s
  | .linkNak p seq => Sys2Proof.Machine.execLinkNak p seq s
  | .linkCredit p cls n => Sys2Proof.Machine.execLinkCredit p cls n s
  | .linkDiscard p cls => Sys2Proof.Machine.execLinkDiscard p cls s
  | .linkKeepAlive p => Sys2Proof.Machine.execLinkKeepAlive p s
  | .peerErrorHeld p => Sys2Proof.Machine.execPeerErrorHeld p s
  | .ackTimeout p => Sys2Proof.Machine.execAckTimeout p s
  | .reassemblyTimeout p cls => Sys2Proof.Machine.execReassemblyTimeout p cls s
  | .responseTimeout p tag => Sys2Proof.Machine.execResponseTimeout p tag s
  | .keepAliveDue p => Sys2Proof.Machine.execKeepAliveDue p s
  | .keepAliveLoss p => Sys2Proof.Machine.execKeepAliveLoss p s
  | .write p => Sys2Proof.Machine.execWrite p s
  | .read p => Sys2Proof.Machine.execRead p s
  | .atomic p => Sys2Proof.Machine.execAtomic p s
  | .readData p => Sys2Proof.Machine.execReadData p s
  | .atomicData p => Sys2Proof.Machine.execAtomicData p s
  | .writeAck p => Sys2Proof.Machine.execWriteAck p s
  | .upctlGo v => Sys2Proof.Machine.execUpctlGo v s
  | .updateVerifyDone => Sys2Proof.Machine.execUpdateVerifyDone s
  | .updateDrainDone => Sys2Proof.Machine.execUpdateDrainDone s
  | .updateLoadDone ok => Sys2Proof.Machine.execUpdateLoadDone ok s
  | .coldReset intact => Sys2Proof.Machine.execColdReset intact s
  | .eccCorrected unit pa => Sys2Proof.Machine.execEccCorrected unit pa s
  | .eccUncorrectable unit pa => Sys2Proof.Machine.execEccUncorrectable unit pa s
  | .erconsWrite v => Sys2Proof.Machine.execErconsWrite v s
  | .erptrLostClear => Sys2Proof.Machine.execErptrLostClear s
  | .qownWrite n v => Sys2Proof.Machine.execQownWrite n v s
  | .registerWrite pa v => Sys2Proof.Machine.execRegisterWrite pa v s
  | .hostMemoryRequest write addr data => Sys2Proof.Machine.execHostMemoryRequest write addr data s
  | .getVersion => Sys2Proof.Machine.execGetVersion s
  | .getCapabilities => Sys2Proof.Machine.execGetCapabilities s
  | .negotiateAlgorithms sha3 mlDsa => Sys2Proof.Machine.execNegotiateAlgorithms sha3 mlDsa s
  | .getDigests => Sys2Proof.Machine.execGetDigests s
  | .getCertificate slot => Sys2Proof.Machine.execGetCertificate slot s
  | .challenge slot nonce => Sys2Proof.Machine.execChallenge slot nonce s
  | .getMeasurements index => Sys2Proof.Machine.execGetMeasurements index s
  | .keyExchange => Sys2Proof.Machine.execKeyExchange s
  | .threadStateWrite k reg v => Sys2Proof.Machine.execThreadStateWrite k reg v s

end Sys2Proof.Machine
end

