-- ==== Sys2Proof/Machine/Dump.lean ====
section
/-! DEFINITION. Dumps of a halted device (R329, R330): index blocks, an image of each stopped slot at full length, and copies of its
rings. What performs it is the debugger, so it stands in the agenda. -/

namespace Sys2Proof.Machine

/-- Bytes of a save image (R257). -/
def imageBytes : Nat := 610304

/-- The next multiple of m. -/
def roundUp (m n : Nat) : Nat := (n + m - 1) / m * m

/-- The half byte at a place of a ring, of the element that is held there: none where the ring holds none, or a failed one
(R187). -/
def Slot.ringNibble (sl : Slot) (q n : Nat) : Option Nat :=
  let r := sl.reg q
  let at_ (c : Cell) : Nat := r.desc.slotNibble r.lens c.co
  ((sl.cellsOf q).find? fun c => c.fail.isNone && decide (at_ c ≤ n) && decide (n < at_ c + r.desc.rtype.bits / 4)).map fun c =>
    c.val.toNat / 16 ^ (n - at_ c) % 16

/-- The ring of register q, QSTAT sel 2 bytes long (R197, R329). Bytes where no element is held, and the scale rows, whose place the
spec does not give, are free values from the number `first` on (log 100). -/
def Slot.ringCopy (sl : Slot) (q first : Nat) : List Byte :=
  (List.range (sl.reg q).ringBytes).map fun o =>
    let free : Nat := (Config.freeBits (first + o)).toNat
    BitVec.ofNat 8 ((sl.ringNibble q (2 * o)).getD (free % 16) + 16 * (sl.ringNibble q (2 * o + 1)).getD (free / 16 % 16))

/-- The rings of the LIVE registers in increasing q (R329). -/
def Slot.ringCopies (sl : Slot) (first : Nat) : List Byte :=
  ((List.range 16).filter fun q => (sl.reg q).st == .live).foldl (fun acc q => acc ++ sl.ringCopy q (first + acc.length)) []

/-- The image of a stopped slot at full length: VHOLD and AHOLD read all ones, nothing is written back, and the queue is whole
(R329). -/
def Slot.dumpImage (sl : Slot) (at_ : Nat) : List (Nat × List Byte) :=
  let whole := { sl with lane := { sl.lane with vdirty := BitVec.allOnes 32, adirty := BitVec.allOnes 32, vext := 32 } }
  (at_, List.replicate imageBytes 0) :: (whole.image 0 0).map fun p => (at_ + p.1.toNat, p.2)

/-- The state of a stopped slot's context and its record's address (R250, R329). -/
def State.dumpCtx (s : State) (sl : Slot) : Nat × Nat :=
  match s.ctxOf sl.ctx with
  | some c => (c.st.code, c.crec.toNat)
  | none => ((if sl.cst = .faulted then CtxState.faulted else .halted).code, 0)

/-- An entry of an index block (R329). -/
def State.dumpEntry (s : State) (k : Nat) (sl : Slot) (image rings : Nat) : List Byte :=
  let c := s.dumpCtx sl
  [k + sl.st.code * 65536 + c.1 * 2 ^ 24, c.2, image, image + imageBytes, rings, sl.tr.cause.toNat, sl.tr.epc.toNat, sl.pc.toNat].flatMap
    (toBytes 8)

/-- The slots of one index block at `block`, from a place on: their entries, what is written and the place after them. Images begin
at multiples of 256 (R257). -/
def State.dumpSlots (s : State) (block : Nat) : List (Nat × Slot) → Nat → List Byte × List (Nat × List Byte) × Nat
  | [], at_ => ([], [], at_)
  | (k, sl) :: t, at_ =>
    let rings := sl.ringCopies (s.free + at_)
    let r := s.dumpSlots block t (roundUp 256 (at_ + imageBytes + rings.length))
    (s.dumpEntry k sl (at_ - block) rings.length ++ r.1, sl.dumpImage at_ ++ [(at_ + imageBytes, rings)] ++ r.2.1, r.2.2)

/-- The first four words of an index block and its reserved bytes (R329). The device cycle is a free value (log 4). -/
def State.dumpHead (s : State) (count next : Nat) : List Byte :=
  [1 + count * 65536, next, (Config.freeCycle s.free).toNat, (s.coreAt s.haltCore).dbg.reason % 256 + s.haltCore * 256, 0, 0, 0, 0].flatMap
    (toBytes 8)

/-- The index blocks from a place on, each followed by its slots: at most 63 of them (R329). -/
def State.dumpBlocks (s : State) : List (List (Nat × Slot)) → Nat → List (Nat × List Byte) × Nat
  | [], at_ => ([], at_)
  | c :: t, at_ =>
    let d := s.dumpSlots at_ c (at_ + 4096)
    let next := roundUp 4096 d.2.2
    let r := s.dumpBlocks t next
    let index := s.dumpHead c.length (if t.isEmpty then 0 else next - at_) ++ d.1
    ((at_, index ++ List.replicate (4096 - index.length) 0) :: d.2.1 ++ r.1, r.2)

/-- The stopped slots, 63 in an index block. -/
def State.dumpChunks (s : State) : List (List (Nat × Slot)) :=
  let l := s.slots.filter fun p => p.2.st == .stop
  (List.range (max 1 ((l.length + 62) / 63))).map fun i => (l.drop (63 * i)).take 63

/-- Write a dump of the halted device into physical memory from a 4 KiB page on (R329, R330): where in it the images and further index
blocks lie is the model's choice [DESIGN CHOICE, log 100]. -/
def State.dump (s : State) (page : Nat) : Host.Outcome State Fault Refusal :=
  if !s.halted then .next s
  else
    let d := s.dumpBlocks s.dumpChunks (page * 4096)
    if hbmBytes < d.2 then .fault .noSuchPhysicalAddress
    else
      let lines := d.1.flatMap fun p => (List.range ((p.2.length + 127) / 128)).map fun i => (p.1 + 128 * i, (p.2.drop (128 * i)).take 128)
      let t := lines.foldl (fun s p => s.putPhys p.1 p.2) s
      .next { t with free := s.free + d.2 }

end Sys2Proof.Machine
end

