-- ==== Sys2Proof/Machine/Run.lean ====
section
/-! DEFINITION. What moves next: fetching a word (R31, R77), one instruction of a slice (R75, R85, R96), and the moves that the
device makes of its own accord. Which enabled move comes first the spec leaves open; the model takes them in turn (log 10). -/

namespace Sys2Proof.Machine

/-! ### Fetch -/

/-- Memory as fetch sees it at a PC: within the code image of its kernel as it was when the image was loaded (R31). -/
def State.codeAt (s : State) (k : Nat) : Option (List Host.Cell) :=
  let sl := s.slot k
  match s.ctxOf sl.ctx with
  | some c => if c.code.toNat ≤ sl.pc.toNat ∧ sl.pc.toNat < c.code.toNat + c.codelen then some c.codeMem else none
  | none => none

/-- The fetch of slot k as an agent of its own. -/
def State.fetchAgent (s : State) (k : Nat) : Agent := { s.sliceAgent k with owner := 4 * k + 3 }

/-- Where an address of slot k's code lay in a memory of its launch: translated by the tables that memory holds (R31, R245);
none where they give no such place. -/
def State.imagePlace (s : State) (k : Nat) (m : List Host.Cell) (va : X64) : Option Nat :=
  let g := s.fetchAgent k
  let old : State := { s.unheld with mem := m, poison := [], fwds := [] }
  match old.xlatFrom 64 g.pt true .fetch 2 va 0 none with
  | .ok (_, .ok (.loc pa) _ _ _) => if placeOf pa = .hbm then some pa else none
  | _ => none

/-- The bytes of a fetch at its place: in the code image of the slot's kernel those that the image held at the launch, wherever
its page has moved since (R31, R245). -/
def State.fetchBytes (s : State) (k : Nat) (t : Target) (va : X64) : Res (State × Got (List Byte)) :=
  match t, (s.codeAt k).bind fun m => (s.imagePlace k m (s.slot k).pc).map fun pa => (m, pa) with
  | .loc pa, some (m, ipa) =>
    if placeOf pa = .hbm ∧ s.poisoned pa = false then .ok (s, .ok ((List.range 4).map fun i => Memory.read m (ipa + i)))
    else s.readAt (s.fetchAgent k) true t 4 va
  | _, _ => s.readAt (s.fetchAgent k) true t 4 va

/-- Fetch the word at slot k's PC; a mark is followed, the PC is not rewritten and the thread's other stale copies are (R240,
R244, R245). -/
def State.fetch (s : State) (k : Nat) : Res (State × Got Word) :=
  let g := s.fetchAgent k
  match s.translate g.core g.pt g.priv .fetch 4 (s.slot k).pc with
  | .error e => .error e
  | .ok (u, .fail code a) => .ok (u.dropReqs g.owner, .trap code a)
  | .ok (u, .ok t va delta page) =>
    match u.fetchBytes k t va with
    | .error e => .error e
    | .ok (u, .ok b) => .ok ((u.rebase k page delta none false).dropReqs g.owner, .ok (BitVec.ofNat 32 (ofBytes b)))
    | .ok (u, .trap code a) => .ok (u.dropReqs g.owner, .trap code a)
    | .ok (u, .wait) => .ok (u.unfollow s k, .wait)

/-! ### One instruction of a slice -/

/-- A fetch breakpoint of the slot's core at its PC; a slot that has stopped at one passes it once (R321). -/
def State.breaks (s : State) (k : Nat) : Option Nat :=
  let sl := s.slot k
  if sl.bkPass then none else (s.coreAt (coreOf k)).dbg.fetchHit sl.pc.toNat

/-- A slice that STEP released stops after its instruction, unless it stalls (R324). -/
def State.afterStep (s : State) (k : Nat) : State :=
  let st := (s.slot k).st
  if s.halted ∧ (st = .run ∨ st = .drain) then s.endStep k else s

/-- The outcome of a slice's move, seen after it. -/
def onNext (f : State → State) (o : Host.Outcome State Fault Refusal) : Host.Outcome State Fault Refusal :=
  match o with
  | .next s => .next (f s)
  | .fault e => .fault e
  | .refused r => .refused r

/-- Run the word that slot k has fetched: a breakpoint stops before it, but for a step, which executes one instruction, a word that
decodes to nothing traps, and an instruction has its meaning (R77, R321, R324). -/
noncomputable def State.runWord (s : State) (k : Nat) (w : Word) : Host.Outcome State Fault Refusal :=
  match if s.halted then none else s.breaks k with
  | some i => .next ((s.modSlot k fun sl => { sl with bkPass := true }).haltDevice (coreOf k) 1 (k % 16) i)
  | none =>
    match decode w with
    | .error t => .next ((s.trapWord (decodeTrapCode t) w).afterStep k)
    | .ok i => onNext (fun s => s.afterStep k) (exec i s)

/-- Slot k at an instruction boundary of its slice: the base rewrites that waited for one are made (R244). -/
def State.atRebases (s : State) (k : Nat) : State :=
  if (s.slot k).busy || (s.slot k).rebases.isEmpty then s else s.modSlot k Slot.rebased

/-- The next thing that the slice of slot k does: it takes a pre-emption (R255), ends a pass (R96), or fetches and runs one
word; nothing unless it runs. -/
noncomputable def State.sliceStep (s : State) (k : Nat) : Host.Outcome State Fault Refusal :=
  match s.preemptTaken k with
  | some s => .next s
  | none =>
    if (s.slot k).st ≠ .run ∨ s.preemptDue k = true then .next s
    else
      let s := s.atRebases k
      if (s.slot k).atPassEnd then .next { s with cur := k }.passEnd
      else
      match { s with cur := k }.fetch k with
      | .error e => .fault e
      | .ok (s, .trap code a) => .next ((s.trapHere code 3 a).afterStep k)
      | .ok (s, .wait) => .next (s.setMe (s.me.stall 10))
      | .ok (s, .ok w) => s.runWord k w

/-! ### Moves -/

/-- A step of the device that is no word of a slice. -/
def isDevice (i : Instr) : Bool :=
  match i with
  | .vlcapWrite _ => false
  | .nestWrite _ => false
  | .femaskWrite _ => false
  | .ctxidWrite _ => false
  | i => i.isEvent

/-- Make one move. -/
noncomputable def State.move (s : State) (m : Move) : Host.Outcome State Fault Refusal :=
  match m with
  | .step i => if isDevice i then exec i s else .next s
  | .slice k => s.sliceStep k.val
  | .evict c line => .next (s.evictLine c.val line)
  | .register pa v => .next (s.registerWrite pa.toNat v)
  | .dump page => s.dump page.toNat
  | .store pa b => .next (s.putPhys pa.toNat b).settleWords
  | .host w a d => execHostMemoryRequest w a d s

/-- The moves of a bound slot and its sequencer. -/
noncomputable def slotMoves (k : Fin 1024) (sl : Slot) : List Move :=
  if sl.st = .vacant then []
  else
    [.slice k, .step (.stallClears k), .step (.trapEntry k), .step (.counterEventRetire k)] ++
      ((List.finRange 16).filter fun q => (vat sl.q q.val ResReg.reset).st != .retired).flatMap fun q =>
        [.step (.deliveryLands k q), .step (.watermarkReread k q), .step (.elementRelease k q), .step (.writebackAck k q),
          .step (.qdropComplete k q)]

/-- The moves of a core that holds a bound slot. -/
noncomputable def coreMoves (c : Fin 64) : List Move :=
  [.step (.issueOpportunity c), .step (.bucketRefill c), .step (.pieceIssue c), .step (.portRefill c), .step (.tlbiReceive c)]

/-- A gated lane group of a core is ungated for a thread that waits with none (R317). -/
noncomputable def State.ungateMoves (s : State) (c : Fin 64) : List Move :=
  let x := s.coreAt c.val
  match x.gatedLanes with
  | [] => []
  | g :: _ =>
    if (List.range 16).any fun t => !(s.slot (16 * c.val + t)).queue.isEmpty && decide (x.held t = 0) then
      [.step (.laneGroupUngate c (Fin.ofNat 32 g))] else []

/-- The moves of an enabled queue. -/
noncomputable def queueMoves (n : Fin 64) : List Move :=
  [.step (.packetLaunch n), .step (.packetWaitWord n), .step (.packetWriteWord n), .step (.packetMarker n)]

/-- The moves of a port that is UP. -/
noncomputable def portMoves (p : Fin 16) : List Move :=
  [.step (.flitSend p), .step (.write p), .step (.read p), .step (.atomic p), .step (.readData p), .step (.atomicData p),
    .step (.writeAck p)]

/-- Every move that the device may make of its own accord now, in a fixed order. What only the outside world, a timer or a
management command brings about stands in the agenda. -/
noncomputable def State.moves (s : State) : List Move :=
  (s.slots.flatMap fun p => slotMoves (Fin.ofNat 1024 p.1) p.2) ++
    ((List.finRange 64).filter fun c =>
      !s.tlbis.isEmpty || s.slots.any fun p => coreOf p.1 == c.val && p.2.st != .vacant).flatMap (fun c => coreMoves c ++ s.ungateMoves c) ++
    (List.finRange 4).flatMap (fun op =>
      if (vat s.drover op.val none).isSome then
        [.step (.droverCopyLine op), .step (.droverInvalidateAck op), .step (.sweepWord op)] else []) ++
    [.step .tlbiAcknowledge] ++
    ((List.finRange 64).filter fun n => (s.hqAt n.val).en || s.headOpen n.val).flatMap queueMoves ++
    [.step .groupPlace] ++
    (List.finRange 16).flatMap (fun cl => [.step (.clusterGatingComplete cl), .step (.clusterWakeComplete cl)]) ++
    ((List.finRange 16).filter fun p => (s.portAt p.val).st == .up).flatMap portMoves ++
    [.step .updateVerifyDone, .step .updateDrainDone]

/-- Make the first of some numbered moves that changes the machine; the turn then passes to the one after it. The state stays
as it is when none does. -/
noncomputable def State.firstMove (s : State) : List (Move × Nat) → Host.Outcome State Fault Refusal
  | [] => .next s
  | (m, i) :: t =>
    match s.move m with
    | .next s' => if { s' with cur := s.cur } = s then s.firstMove t else .next { s' with turn := i + 1 }
    | .fault e => .fault e
    | .refused r => .refused r

/-- The moves from the one whose turn it is on. -/
noncomputable def State.inTurn (s : State) : List (Move × Nat) :=
  let l := s.moves.zipIdx
  l.drop (s.turn % (l.length + 1)) ++ l.take (s.turn % (l.length + 1))

/-- A move of the device's own choosing. -/
noncomputable def State.freeMove (s : State) : Host.Outcome State Fault Refusal := s.firstMove s.inTurn

/-- The place where `withFetchWord` puts its word: a page in the middle of no window. -/
def fetchPlace : Nat := 0x10000

/-- Slot 0 runs, without an address space, at the place where its word stands. -/
def Slot.fetching (sl : Slot) : Slot :=
  { sl with
    st := .run, cause := 0, pc := BitVec.ofNat 64 fetchPlace, ptroot := 0, ctx := none, phase := .fresh, pend := none
    preempt := false, bkPass := true, rebases := [], nest := { sl.nest with act := false }, cst := .running }

/-- Store an instruction word where slot 0 fetches next, and make its slice the next move. -/
def State.placeWord (s : State) (w : Word) : State :=
  let s := { s with
    cores := s.cores.map fun (c : Core) => { c with l1 := c.l1.filter fun b => b.1 / 128 != fetchPlace / 128 }
    mem := (bytesOfWord w).zipIdx.foldl (fun m (b : Byte × Nat) => Memory.write m (fetchPlace + b.2) b.1) s.mem
    poison := s.poison.filter fun l => l != fetchPlace / 128
    fwds := s.fwds.filter fun (f : Fwd) => f.old != fetchPlace / 65536
    svc := { s.svc with offParts := s.svc.offParts.filter fun u => u / 256 != 3 }
    halted := false, agenda := [.slice 0] }
  s.modSlot 0 Slot.fetching

end Sys2Proof.Machine
end

