-- ==== Sys2Proof/Machine/Step.lean ====
section
/-! DEFINITION. One step of the machine, and an instruction put where the next step fetches. -/

namespace Sys2Proof.Machine

/-- One step: the first move of the agenda, or, with none there, a move of the device's own choosing. -/
noncomputable def step (s : State) : Host.Outcome State Fault Refusal :=
  match s.agenda with
  | m :: t => { s with agenda := t }.move m
  | [] => s.freeMove

/-- The state with the instruction of an opcode-table row placed where the next step fetches: slot 0 runs at it (log 26). -/
def State.withFetchWord (s : State) (_nbits w : Nat) : State := s.placeWord (BitVec.ofNat 32 w)

end Sys2Proof.Machine
end

