-- ==== Sys2Proof/Safety.lean ====
section
/-! DEFINITION. The terms in which the statements speak: states in which a word of a slice has its effect, states in which a
core's lanes begin the head entry of a queue, states whose memory is plain, what a meaning leaves as it was, and the invariants. -/

namespace Sys2Proof.Machine

/-! ### What stays as it was -/

/-- Every byte of physical memory reads as before. -/
def State.sameMemory (s t : State) : Prop := ∀ a, Memory.read t.mem a = Memory.read s.mem a

/-- Every slot but slot k is as before. -/
def State.sameSlotsBut (s t : State) (k : Nat) : Prop := ∀ j, j ≠ k → t.slot j = s.slot j

/-- Only slot k has changed. -/
def State.onlySlot (s t : State) (k : Nat) : Prop := t = s.setSlot k (t.slot k)

/-- Of slot k only its lanes, its queue and the queue's convoy have changed, of the core only its turn, its bucket and its lane
allocation table, and no byte of memory. -/
structure OnlyLanes (s t : State) (k : Nat) : Prop where
  slot : t.slot k =
    { s.slot k with
      lane := (t.slot k).lane, queue := (t.slot k).queue, lastCv := (t.slot k).lastCv, cvVl := (t.slot k).cvVl }
  others : s.sameSlotsBut t k
  memory : t.mem = s.mem
  cores : ∀ c, t.coreAt c =
    { s.coreAt c with
      rr := (t.coreAt c).rr, bal16 := (t.coreAt c).bal16, waiting := (t.coreAt c).waiting, lanes := (t.coreAt c).lanes }
  rest : t = { s with slots := t.slots, cores := t.cores }

/-- As `OnlyLanes`, but the access may have waited for banks of the loft: BANKSTALL of slot k and the count of free values used
are left open (R188, log 4). -/
def OnlyLanesAndStalls (s t : State) (k : Nat) : Prop :=
  ∃ stalls used, OnlyLanes { s.setSlot k { s.slot k with bankstall := stalls } with free := used } t k

/-! ### A word at a slice -/

/-- The slice goes on at the next word: nothing of it is begun there. -/
def Slot.onward (sl : Slot) : Slot :=
  { sl with pc := sl.pc + 4, phase := .fresh, st := .run, cause := 0, bkPass := false, jumped := false, busy := false }

/-- The word at the PC has its effect: outside a live nest, or in a live stage of one (R99). -/
def State.acts (s : State) : Prop := s.me.stageLive = true
/-- The PC is outside the body of every live nest (R100). -/
def State.outsideNest (s : State) : Prop := s.me.inBody = false

/-- The slice may push an entry: the thread has vector state, its queue is not frozen and not full (R24, R256, R258). -/
structure State.pushes (s : State) : Prop where
  unit : s.me.tr.vu = true
  thawed : s.me.tr.froz = false
  room : s.me.queue.length < 64

/-- A trap of the slice is entered at once: no entry has to drain first, no handler runs, and the core does not trace (R77,
R254, R325). -/
structure State.trapsAtOnce (s : State) : Prop where
  drained : s.me.queue = [] ∨ s.me.tr.froz = true
  outside : s.me.tr.inh = false
  untraced : bitAt (s.coreAt (coreOf s.cur)).dbg.trctl 0 = false

/-- The slice has taken a trap at its PC: the saved registers, the status and the place it goes on at (R252, R254). -/
def Slot.trapped (sl : Slot) (code : TrapCode) (kind : Nat) (val rpc : X64) : Slot :=
  { sl with
    pc := sl.tr.tvec, phase := .fresh, st := .run, cause := 0, bkPass := false, jumped := false, busy := false, pend := none
    tr := { sl.tr with
      cause := BitVec.ofNat 64 (kind * 256 + code.num), epc := sl.pc, tval := val, rpc := rpc
      froz := false, ppriv := sl.tr.priv, priv := true, inh := true } }

/-- The instruction at the slice's PC takes a trap that returns to it. -/
def trapsHere (i : Instr) (s : State) (code : TrapCode) (kind : Nat) (val : X64) : Prop :=
  exec i s = .next (s.setMe (s.me.trapped code kind val s.me.pc))

/-! ### The head entry of a queue -/

/-- No core of the part traces, and the core of slot k has no armed DPRE (R325, R358). -/
structure State.quiet (s : State) (k : Nat) : Prop where
  trace : bitAt (s.coreAt (coreOf k)).dbg.trctl 0 = false
  dpre : bitAt (s.coreAt (coreOf k)).dbg.dpre 63 = false

/-- The lanes of slot k may begin an element group, and its core has no other entry: the thread is neither frozen, faulted,
stopped nor about to be pre-empted, it holds a lane group or is granted one, and the core's bucket covers any chunk (R11, R25,
R85, R89, R255, R256, R275, R315). -/
structure State.lanesFree (s : State) (k : Nat) : Prop where
  inPart : k < 1024
  bound : (s.slot k).st ≠ .vacant ∧ (s.slot k).st ≠ .stop
  thawed : (s.slot k).tr.froz = false
  sound : (s.slot k).cst ≠ .faulted ∧ (s.slot k).pend = none ∧ (s.slot k).preempt = false
  alone : ∀ j, j ≠ k → coreOf j = coreOf k → (s.slot j).queue = []
  leave : (s.coreAt (coreOf k)).waiting = [] ∧ 16 * (s.coreAt (coreOf k)).capNow ≤ (s.coreAt (coreOf k)).bal16
  granted : ((s.trimLanes (coreOf k) 32).claimLanes k).isSome = true
  cap : (s.slot k).cap.toNat ≤ 5
  quiet : s.quiet k

/-- The entry e of the instruction i stands at the head of slot k's queue, in a live stage, and may begin: no register it
reads is armed empty (R25, R99, R288). -/
structure AtHead (s : State) (k : Nat) (i : Instr) (e : Entry) : Prop where
  free : s.lanesFree k
  head : (s.slot k).queue.head? = some e
  kind : e.kind = .instr
  ins : e.ins = some i
  stage : e.p = true
  full : ∀ r ∈ i.reads, r < 32 → (s.slot k).lane.femask.getLsbD r = false

/-- The entry at the PC `epc` has a lane fault: the lanes begin nothing more of slot k, its VSTART is v and its other lane state stays,
groups issued behind the head are discarded, a back-flow of the slice is settled, and the slice drains into the trap (R77, R85,
R103, R254, R255). -/
structure LaneFault (s t : State) (k : Nat) (code : TrapCode) (kind : Nat) (epc val : X64) (v : BitVec 12) : Prop where
  slot : let x := (s.slot k).recall.settle
    t.slot k =
      { x with
        st := .drain, cause := 6, lane := { (s.slot k).lane with vstart := v }
        pend := some { code := code, kind := kind, lane := true, epc := epc, tval := val, rpc := x.pc } }
  others : s.sameSlotsBut t k
  memory : t.mem = s.mem
  cores : ∀ c, t.coreAt c =
    { s.coreAt c with rr := (t.coreAt c).rr, waiting := (t.coreAt c).waiting, lanes := (t.coreAt c).lanes }
  rest : t = { s with slots := t.slots, cores := t.cores, reqs := t.reqs }

/-- VDIRTY and VEXT of the lanes l' follow the writes since l: `hit j p` says that position p of width w of v register j was
written (R23, R258). -/
structure Marks (w : Nat) (hit : Nat → Nat → Prop) (l l' : Lane) : Prop where
  written : ∀ j p, hit j p → l'.vdirty.getLsbD j = true ∧ (w * p + w - 1) / 512 + 1 ≤ l'.vext.toNat
  untouched : ∀ j, (∀ p, ¬ hit j p) → l'.vdirty.getLsbD j = l.vdirty.getLsbD j
  extent : l'.vext = l.vext ∨ l.vext.toNat < l'.vext.toNat ∧ ∃ j p, hit j p ∧ l'.vext.toNat = (w * p + w - 1) / 512 + 1

/-- What an instruction does to one active element: the elements of one element group and the most that VL may be (R14, R107),
the width it writes, the register and the position that element e has
there, the 64-bit lanes whose side byte position p sets and to what (R16), the mode it rounds in, and the value of element e
with the flags and the generator it leaves (R20, R45, R47, R105, R108). -/
structure ElemRule where
  group : Nat
  limit : LEnv → Nat
  w : Nat
  reg : LEnv → Nat → Nat
  pos : LEnv → Nat → Nat
  lanes : Nat → List Nat
  mark : Nat
  mode : Lane → RMode
  elem : LEnv → Nat → REnv → Nat × REnv

/-- A rule that writes element e of register d, of an unscaled type of width w, as element-wise instructions do. -/
def ElemRule.plain (w d : Nat) (mode : Lane → RMode) (elem : LEnv → Nat → REnv → Nat × REnv) : ElemRule :=
  { group := 512 / w, limit := fun n => perReg n.cap w, w := w, reg := fun _ _ => d, pos := fun _ e => e
    lanes := fun p => [w * p / 64], mark := 0, mode := mode, elem := elem }

/-- Element e of the rule lies in [lo, hi), is active, and its place is position p of register j. -/
def ElemRule.hits (r : ElemRule) (n : LEnv) (lo hi e j p : Nat) : Prop :=
  lo ≤ e ∧ e < hi ∧ n.l.gov e = true ∧ r.reg n e = j ∧ r.pos n e = p

/-- The lanes l' are those of n after elements lo to hi - 1 of a rule, in increasing order: active elements have their value,
every other element, register, mask and accumulator is as before, flags and generator run through the active elements, and VDIRTY
and VEXT follow (R15, R16, R23, R47, R105, R258). -/
structure Elements (r : ElemRule) (n : LEnv) (l' : Lane) (lo hi : Nat) (seed : Nat → X64) (flags : Nat → FlagWord) : Prop where
  start : seed lo = n.l.srseed ∧ flags lo = n.l.flags
  active : ∀ e, lo ≤ e → e < hi → n.l.gov e = true →
    let x := r.elem n e { mode := r.mode n.l, seed := seed e, flags := flags e }
    l'.rd (r.reg n e) r.w (r.pos n e) = x.1 % 2 ^ r.w ∧ seed (e + 1) = x.2.seed ∧ flags (e + 1) = x.2.flags
  inactive : ∀ e, lo ≤ e → e < hi → n.l.gov e = false → seed (e + 1) = seed e ∧ flags (e + 1) = flags e
  elsewhere : ∀ j p, (∀ e, ¬ r.hits n lo hi e j p) → l'.rd j r.w p = n.l.rd j r.w p
  marked : ∀ e, lo ≤ e → e < hi → n.l.gov e = true → ∀ q ∈ r.lanes (r.pos n e), l'.side (r.reg n e) q = r.mark
  kept : ∀ j q, q < 256 → (∀ e p, q ∈ r.lanes p → ¬ r.hits n lo hi e j p) → l'.side j q = n.l.side j q
  finish : l'.srseed = seed hi ∧ l'.flags = flags hi
  marks : Marks r.w (fun j p => ∃ e, r.hits n lo hi e j p) n.l l'
  rest : l' = { n.l with
    v := l'.v, flags := l'.flags, srseed := l'.srseed, vdirty := l'.vdirty, vext := l'.vext, vstart := l'.vstart }

/-! ### Plain memory -/

/-- Physical memory answers at its own place: nothing is poisoned, moving or drained. -/
structure State.settled (s : State) : Prop where
  clean : s.poison = []
  still : s.fwds = []
  drained : s.svc.offParts = []

/-- Memory is settled and no byte of it is dirty in a data L1. -/
structure State.plain (s : State) : Prop extends s.settled where
  caches : ∀ c, (s.coreAt c).l1 = []

/-- The byte of physical memory that the scalar agents see: a dirty byte of a data L1 first (R31). -/
def State.seen (s : State) (a : Nat) : Byte := (s.dirtyByte a).getD (Memory.read s.mem a)

/-- Slot k's addresses are physical ones, no link request is open, and no comparator watches its core (R234, R301, R321). -/
structure State.direct (s : State) (k : Nat) : Prop where
  inPart : k < 1024
  root : bitAt (s.slot k).ptroot 0 = false
  reqs : s.reqs = []
  watch : ∀ i, i < 8 → vat (s.coreAt (coreOf k)).dbg.dbk i 0 = 0

/-- An access of slot k to n bytes at an address reaches HBM: the address is a multiple of n there (R210, R221, R234). -/
structure State.reaches (s : State) (k : Nat) (va : X64) (n : Nat) : Prop where
  direct : s.direct k
  settled : s.settled
  implemented : va.toNat < 2 ^ 57
  aligned : va.toNat % n = 0
  inside : va.toNat % 2 ^ 52 + n ≤ hbmBytes

/-! ### Invariants -/

/-- The memory has its canonical form. -/
def State.memoryCanonical (s : State) : Prop := Memory.wf s.mem = true

/-- Every bound slot has a legal VLCAP.CAP (R23). -/
def State.capsLegal (s : State) : Prop := ∀ k, (s.slot k).cap.toNat ≤ 5

end Sys2Proof.Machine
end

