-- ==== Sys2Proof/Certificates/Slice0/Obligations.lean ====
section
/-! DEFINITION. The statements about the model: what the rules of the spec say that the part and its instructions do. Tables
name the instructions that a statement covers and give the value that the rule states. -/

namespace Sys2Proof.Machine

/-! ### Integer rules (R34, R111 to R113) -/

/-- The exact result of an integer operation on patterns a and b and the destination's pattern d of type t. -/
abbrev IntRule := Ty → Nat → Nat → Nat → Int

/-- ADD: a + b. -/
def addRule : IntRule := fun t a b _ => intVal t a + intVal t b
/-- SUB: a − b. -/
def subRule : IntRule := fun t a b _ => intVal t a - intVal t b
/-- MUL: a × b. -/
def mulRule : IntRule := fun t a b _ => intVal t a * intVal t b
/-- MULH: floor(a × b / 2^w). -/
def mulhRule : IntRule := fun t a b _ => (intVal t a * intVal t b).fdiv (2 ^ t.bits : Nat)
/-- MIN: the lesser. -/
def minRule : IntRule := fun t a b _ => min (intVal t a) (intVal t b)
/-- MAX: the greater. -/
def maxRule : IntRule := fun t a b _ => max (intVal t a) (intVal t b)
/-- AND, bitwise. -/
def andRule : IntRule := fun t a b _ => ((BitVec.ofNat t.bits a &&& BitVec.ofNat t.bits b).toNat : Int)
/-- OR, bitwise. -/
def orRule : IntRule := fun t a b _ => ((BitVec.ofNat t.bits a ||| BitVec.ofNat t.bits b).toNat : Int)
/-- XOR, bitwise. -/
def xorRule : IntRule := fun t a b _ => ((BitVec.ofNat t.bits a ^^^ BitVec.ofNat t.bits b).toNat : Int)
/-- ANDN: a and not b. -/
def andnRule : IntRule := fun t a b _ => ((BitVec.ofNat t.bits a &&& ~~~ BitVec.ofNat t.bits b).toNat : Int)
/-- SHL: a × 2^s, s = b modulo w. -/
def shlRule : IntRule := fun t a b _ => intVal t a * (2 ^ (b % t.bits) : Nat)
/-- SHR: floor(a / 2^s), a unsigned. -/
def shrRule : IntRule := fun t a b _ => ((BitVec.ofNat t.bits a).toNat / 2 ^ (b % t.bits) : Nat)
/-- SHRA: floor(a / 2^s), a signed. -/
def shraRule : IntRule := fun t a b _ => (BitVec.ofNat t.bits a).toInt.fdiv (2 ^ (b % t.bits) : Nat)
/-- MADD: D[e] + a × b. -/
def maddRule : IntRule := fun t a b d => intVal t d + intVal t a * intVal t b
/-- DIV: truncated; all ones for b = 0. -/
def divRule : IntRule := fun t a b _ =>
  if intVal t b = 0 then (if t.isSigned then -1 else intMax t) else (intVal t a).tdiv (intVal t b)
/-- REM: the sign of the dividend; a for b = 0. -/
def remRule : IntRule := fun t a b _ => if intVal t b = 0 then intVal t a else (intVal t a).tmod (intVal t b)
/-- RSHR: floor((a + 2^(s−1)) / 2^s), a for s = 0. -/
def rshrRule : IntRule := fun t a b _ =>
  if b % t.bits = 0 then intVal t a
  else (intVal t a + (2 ^ (b % t.bits - 1) : Nat)).fdiv (2 ^ (b % t.bits) : Nat)
/-- CLZ: the leading zero bits of the pattern. -/
def clzRule : IntRule := fun t a _ _ => (((List.range t.bits).reverse.takeWhile fun j => !a.testBit j).length : Int)
/-- POPC: the one bits of the pattern. -/
def popcRule : IntRule := fun t a _ _ => ((List.range t.bits).countP fun j => a.testBit j : Nat)
/-- ABS: |a|. -/
def absRule : IntRule := fun t a _ _ => ((intVal t a).natAbs : Int)

/-- Fit an exact result: wrap, or clamp to the type and say whether it was clamped (R34). -/
def fitted (t : Ty) (sat : Bool) (z : Int) : Nat × Bool :=
  if sat then (wrapTo t.bits (max (intMin t) (min (intMax t) z)), decide (z < intMin t ∨ intMax t < z))
  else (wrapTo t.bits z, false)

/-- Does an operation divide by zero with DZ (R112): its exact result is that of DIV or REM. -/
def dividesByZero (dz : Bool) (a b : Nat) : Bool := dz && decide (b = 0) && decide (a ≠ 0)

/-- An integer element: the fitted result, SAT when it was clamped, DZ when `dz` and the divisor is 0 (R34, R105, R112). -/
def intElem (t : Ty) (sat : Bool) (d a : Nat) (b : BOp) (f : IntRule) (dz : Bool := false) : ElemRule :=
  .plain t.bits d (fun _ => .rne) fun n e env =>
    let x := n.l.rd a t.bits e
    let y := n.bBits t (512 / t.bits) b e
    let r := fitted t sat (f t x y (n.l.rd d t.bits e))
    (r.1, (env.raiseSat r.2).raiseDz (dividesByZero dz x y))

/-- The value of an sc form: the fitted result extended to 64 bits (R110). -/
def intScalar (t : Ty) (sat : Bool) (a b : Nat) (f : IntRule) (s : State) : X64 :=
  let x := (s.me.rx a).toNat % 2 ^ t.bits
  let y := (s.me.rx b).toNat % 2 ^ t.bits
  let r := (fitted t sat (f t x y 0)).1
  if t.isSigned then (BitVec.ofNat t.bits r).signExtend 64 else (BitVec.ofNat t.bits r).setWidth 64

/-- The integer instructions of the lanes (R111). -/
def intRule : Instr → Option ElemRule
  | .addVv d a b t q c => some (intElem t (q.val == 1) d.val a.val (.reg b.val c) addRule)
  | .addVs d a _ t q => some (intElem t (q.val == 1) d.val a.val .scal addRule)
  | .addVi d a i t => some (intElem t false d.val a.val (.imm i false) addRule)
  | .subVv d a b t q c => some (intElem t (q.val == 1) d.val a.val (.reg b.val c) subRule)
  | .subVs d a _ t q => some (intElem t (q.val == 1) d.val a.val .scal subRule)
  | .subVi d a i t => some (intElem t false d.val a.val (.imm i false) subRule)
  | .mulVv d a b t q c => some (intElem t (q.val == 1) d.val a.val (.reg b.val c) mulRule)
  | .mulVs d a _ t q => some (intElem t (q.val == 1) d.val a.val .scal mulRule)
  | .mulVi d a i t => some (intElem t false d.val a.val (.imm i false) mulRule)
  | .mulhVv d a b t c => some (intElem t false d.val a.val (.reg b.val c) mulhRule)
  | .mulhVs d a _ t => some (intElem t false d.val a.val .scal mulhRule)
  | .mulhVi d a i t => some (intElem t false d.val a.val (.imm i false) mulhRule)
  | .minVv d a b t c => some (intElem t false d.val a.val (.reg b.val c) minRule)
  | .minVs d a _ t => some (intElem t false d.val a.val .scal minRule)
  | .minVi d a i t => some (intElem t false d.val a.val (.imm i false) minRule)
  | .maxVv d a b t c => some (intElem t false d.val a.val (.reg b.val c) maxRule)
  | .maxVs d a _ t => some (intElem t false d.val a.val .scal maxRule)
  | .maxVi d a i t => some (intElem t false d.val a.val (.imm i false) maxRule)
  | .andVv d a b t c => some (intElem t false d.val a.val (.reg b.val c) andRule)
  | .andVs d a _ t => some (intElem t false d.val a.val .scal andRule)
  | .andVi d a i t => some (intElem t false d.val a.val (.imm i true) andRule)
  | .orVv d a b t c => some (intElem t false d.val a.val (.reg b.val c) orRule)
  | .orVs d a _ t => some (intElem t false d.val a.val .scal orRule)
  | .orVi d a i t => some (intElem t false d.val a.val (.imm i true) orRule)
  | .xorVv d a b t c => some (intElem t false d.val a.val (.reg b.val c) xorRule)
  | .xorVs d a _ t => some (intElem t false d.val a.val .scal xorRule)
  | .xorVi d a i t => some (intElem t false d.val a.val (.imm i true) xorRule)
  | .shlVv d a b t q c => some (intElem t (q.val == 1) d.val a.val (.reg b.val c) shlRule)
  | .shlVs d a _ t q => some (intElem t (q.val == 1) d.val a.val .scal shlRule)
  | .shlVi d a i t => some (intElem t false d.val a.val (.imm i false) shlRule)
  | .shrVv d a b t c => some (intElem t false d.val a.val (.reg b.val c) shrRule)
  | .shrVs d a _ t => some (intElem t false d.val a.val .scal shrRule)
  | .shrVi d a i t => some (intElem t false d.val a.val (.imm i false) shrRule)
  | .shraVv d a b t c => some (intElem t false d.val a.val (.reg b.val c) shraRule)
  | .shraVs d a _ t => some (intElem t false d.val a.val .scal shraRule)
  | .shraVi d a i t => some (intElem t false d.val a.val (.imm i false) shraRule)
  | .maddVv d a b t q c => some (intElem t (q.val == 1) d.val a.val (.reg b.val c) maddRule)
  | .maddVs d a _ t q => some (intElem t (q.val == 1) d.val a.val .scal maddRule)
  | .maddVi d a i t => some (intElem t false d.val a.val (.imm i false) maddRule)
  | .divVv d a b t q c => some (intElem t (q.val == 1) d.val a.val (.reg b.val c) divRule true)
  | .divVs d a _ t q => some (intElem t (q.val == 1) d.val a.val .scal divRule true)
  | .remVv d a b t c => some (intElem t false d.val a.val (.reg b.val c) remRule true)
  | .remVs d a _ t => some (intElem t false d.val a.val .scal remRule true)
  | .rshrVv d a b t c => some (intElem t false d.val a.val (.reg b.val c) rshrRule)
  | .rshrVs d a _ t => some (intElem t false d.val a.val .scal rshrRule)
  | .rshrVi d a i t => some (intElem t false d.val a.val (.imm i false) rshrRule)
  | .andnVv d a b t c => some (intElem t false d.val a.val (.reg b.val c) andnRule)
  | .andnVs d a _ t => some (intElem t false d.val a.val .scal andnRule)
  | .andnVi d a i t => some (intElem t false d.val a.val (.imm i true) andnRule)
  | .clzVv d a t => some (intElem t false d.val a.val (.reg a.val .none) clzRule)
  | .popcVv d a t => some (intElem t false d.val a.val (.reg a.val .none) popcRule)
  | .absVv d a t q => some (intElem t (q.val == 1) d.val a.val (.reg a.val .none) absRule)
  | _ => none

/-- The integer instructions of the slice: destination and value (R110, R111). -/
def intScalarRule : Instr → Option (Nat × (State → X64))
  | .addSc d a b t q => some (d.val, intScalar t (q.val == 1) a.val b.val addRule)
  | .subSc d a b t q => some (d.val, intScalar t (q.val == 1) a.val b.val subRule)
  | .mulSc d a b t q => some (d.val, intScalar t (q.val == 1) a.val b.val mulRule)
  | .mulhSc d a b t => some (d.val, intScalar t false a.val b.val mulhRule)
  | .minSc d a b t => some (d.val, intScalar t false a.val b.val minRule)
  | .maxSc d a b t => some (d.val, intScalar t false a.val b.val maxRule)
  | .andSc d a b t => some (d.val, intScalar t false a.val b.val andRule)
  | .orSc d a b t => some (d.val, intScalar t false a.val b.val orRule)
  | .xorSc d a b t => some (d.val, intScalar t false a.val b.val xorRule)
  | .shlSc d a b t q => some (d.val, intScalar t (q.val == 1) a.val b.val shlRule)
  | .shrSc d a b t => some (d.val, intScalar t false a.val b.val shrRule)
  | .shraSc d a b t => some (d.val, intScalar t false a.val b.val shraRule)
  | .divSc d a b t q => some (d.val, intScalar t (q.val == 1) a.val b.val divRule)
  | .remSc d a b t => some (d.val, intScalar t false a.val b.val remRule)
  | .rshrSc d a b t => some (d.val, intScalar t false a.val b.val rshrRule)
  | .andnSc d a b t => some (d.val, intScalar t false a.val b.val andnRule)
  | .clzSc d a t => some (d.val, intScalar t false a.val a.val clzRule)
  | .popcSc d a t => some (d.val, intScalar t false a.val a.val popcRule)
  | .absSc d a t q => some (d.val, intScalar t (q.val == 1) a.val a.val absRule)
  | _ => none

/-- The entries of a table of rules run an element group each time the lanes are given an opportunity: from VSTART to the end
of its element group or to VL; the entry retires when VL is reached (R14, R15, R24, R105, R275). -/
def GroupsRun (rule : Instr → Option ElemRule) : Prop :=
  ∀ (s : State) (k : Nat) (i : Instr) (e : Entry) (r : ElemRule) (c : Fin 64),
    AtHead s k i e → c.val = coreOf k → rule i = some r → i.wf = true →
    (s.slot k).lane.vl.toNat ≤ r.limit (s.lenv k e) →
    (s.slot k).lane.vstart.toNat < (s.slot k).lane.vl.toNat →
    let vs := (s.slot k).lane.vstart.toNat
    let vl := (s.slot k).lane.vl.toNat
    let hi := min vl ((vs / r.group + 1) * r.group)
    ∃ u seed flags, exec (.issueOpportunity c) s = .next u ∧ OnlyLanes s u k ∧
      Elements r (s.lenv k e) (u.slot k).lane vs hi seed flags ∧
      (hi = vl → (u.slot k).lane.vstart = 0 ∧ (u.slot k).queue = (s.slot k).queue.tail) ∧
      (hi < vl → (u.slot k).lane.vstart.toNat = hi ∧ (u.slot k).queue.tail = (s.slot k).queue.tail)

/-! ### Float rules (R36, R43, R118 to R124) -/

/-- The exact result of a float operation on the values of a, b and D[e]: slice count and rounding down first. -/
abbrev FltRule := Nat → Bool → FVal → FVal → FVal → FExact

/-- FADD: a + b. -/
def faddRule : FltRule := fun _ rdn a b _ => .of (addExact rdn a b)
/-- FSUB: a − b. -/
def fsubRule : FltRule := fun _ rdn a b _ => .of (addExact rdn a b.neg)
/-- FMUL: a × b, of the kept slice products for F64S. -/
def fmulRule : FltRule := fun slices _ a b _ => .of (mulSlices slices a b)
/-- FMA: a × b + D[e], rounded once. -/
def fmaRule : FltRule := fun slices rdn a b d => fusedExact slices rdn false false a b d
/-- FNMS: −(a × b) + D[e]. -/
def fnmsRule : FltRule := fun slices rdn a b d => fusedExact slices rdn true false a b d
/-- FNMA: −(a × b) − D[e]. -/
def fnmaRule : FltRule := fun slices rdn a b d => fusedExact slices rdn true true a b d
/-- FDIV: a / b. -/
def fdivRule : FltRule := fun _ _ a b _ => divExact a b
/-- FSQRT: √a. -/
def fsqrtRule : FltRule := fun _ _ a _ _ => sqrtExact a
/-- FRCP: 1 / a. -/
def frcpRule : FltRule := fun _ _ a _ _ => divExact (.fin false 1 0) a
/-- FRSQ: 1 / √a. -/
def frsqRule : FltRule := fun _ _ a _ _ => rsqExact a

/-- One exact result rounded once to the type, with its flags and its draw (R43, R47, R118). -/
def roundedOnce (t : Ty) (env : REnv) (x : FExact) : Nat × REnv :=
  roundTo t false ((env.raiseNv x.nv).raiseDz x.dz) x.v x.sticky

/-- The slice count that a type multiplies with: every product but those of F64S is exact (R120). -/
def slicesOf (t : Ty) (n : Nat) : Nat := if t = .f64s then n else 7

/-- A rounded float element (R105, R118). -/
def fltElem (t : Ty) (q d a : Nat) (b : BOp) (f : FltRule) : ElemRule :=
  .plain t.bits d (fun l => l.mode q) fun n e env =>
    roundedOnce t env (f (slicesOf t n.l.slices.toNat) (decide (env.mode = .rdn)) (decodeFloat t (n.l.rd a t.bits e))
      (decodeFloat t (n.bBits t (512 / t.bits) b e)) (decodeFloat t (n.l.rd d t.bits e)))

/-- An element computed on bits, without rounding and without flags. -/
def bitElem (t : Ty) (d a : Nat) (b : BOp) (f : Nat → Nat → Nat) : ElemRule :=
  .plain t.bits d (fun _ => .rne) fun n e env => (f (n.l.rd a t.bits e) (n.bBits t (512 / t.bits) b e), env)

/-- FMIN: the other operand of a lone NaN, −0 below +0 (R119). -/
def fminRule (t : Ty) (a b : Nat) : Nat :=
  let x := decodeFloat t a
  let y := decodeFloat t b
  if x.isNan && y.isNan then canonNan t
  else if x.isNan then b
  else if y.isNan then a
  else if x.isZero && y.isZero then (if x.sign || y.sign then signBit t else 0)
  else if y.lt x then b else a
/-- FMAX: the other operand of a lone NaN, +0 above −0 (R119). -/
def fmaxRule (t : Ty) (a b : Nat) : Nat :=
  let x := decodeFloat t a
  let y := decodeFloat t b
  if x.isNan && y.isNan then canonNan t
  else if x.isNan then b
  else if y.isNan then a
  else if x.isZero && y.isZero then (if x.sign && y.sign then signBit t else 0)
  else if x.lt y then b else a

/-- FCLASS: the class bit (R123); a normal value has its hidden bit. -/
def fclassRule (t : Ty) (a : Nat) : Nat :=
  match decodeFloat t a with
  | .nan => 0x100
  | .inf neg => if neg then 0x001 else 0x080
  | .fin neg m _ =>
    if m = 0 then (if neg then 0x008 else 0x010)
    else if m < 2 ^ fracBits t then (if neg then 0x004 else 0x020)
    else (if neg then 0x002 else 0x040)

/-- FSGN: the magnitude with another sign; a NaN gives the positive canonical NaN (R124). -/
def signRule (t : Ty) (a : Nat) (neg : Bool) : Nat :=
  if decodeFloat t a = .nan then canonNan t else a % 2 ^ (t.bits - 1) + (if neg then 2 ^ (t.bits - 1) else 0)

/-- FSCALE: round(a × 2^n) (R121). -/
def scaleElem (t : Ty) (q d a : Nat) (k : LEnv → Nat → Int) : ElemRule :=
  .plain t.bits d (fun l => l.mode q) fun n e env =>
    roundTo t false env ((decodeFloat t (n.l.rd a t.bits e)).scale (k n e)) false

/-- FRINT: a finite value rounds to a multiple of 1 and keeps its sign, with NX when it differs; the rest pass, a NaN as the
canonical one (R122). -/
def rintElem (t : Ty) (q d a : Nat) : ElemRule :=
  .plain t.bits d (fun l => l.mode q) fun n e env =>
    let exact (v : FVal) : Nat := (roundTo t false { mode := .rne, seed := 1, flags := FlagWord.reset } v false).1
    let x := n.l.rd a t.bits e
    match decodeFloat t x with
    | .nan => (canonNan t, env.draw.1)
    | .inf _ => (x, env.draw.1)
    | .fin neg m p =>
      let r := roundMag env.mode neg env.draw.2 { m := m, e := p, sticky := false } 0
      (exact (.fin neg r.1 0), env.draw.1.raiseNx r.2)

/-- The value of an F32 sc form: in the low half, no flag kept (R110). -/
def fltScalar (q d a b : Nat) (f : FltRule) (s : State) : X64 :=
  let v (i : Nat) : FVal := decodeFloat .f32 ((s.me.rx i).toNat % 2 ^ 32)
  let mode : RMode := if q = 2 then .rtz else .rne
  BitVec.ofNat 64 (roundedOnce .f32 { mode := mode, seed := 1, flags := FlagWord.reset } (f 7 false (v a) (v b) (v d))).1

/-- The rounded float instructions of the lanes (R118). -/
def fltRule : Instr → Option ElemRule
  | .faddVv d a b t q c => some (fltElem t q.val d.val a.val (.reg b.val c) faddRule)
  | .faddVs d a _ t q => some (fltElem t q.val d.val a.val .scal faddRule)
  | .faddVi d a i t => some (fltElem t 0 d.val a.val (.imm i false) faddRule)
  | .fsubVv d a b t q c => some (fltElem t q.val d.val a.val (.reg b.val c) fsubRule)
  | .fsubVs d a _ t q => some (fltElem t q.val d.val a.val .scal fsubRule)
  | .fsubVi d a i t => some (fltElem t 0 d.val a.val (.imm i false) fsubRule)
  | .fmulVv d a b t q c => some (fltElem t q.val d.val a.val (.reg b.val c) fmulRule)
  | .fmulVs d a _ t q => some (fltElem t q.val d.val a.val .scal fmulRule)
  | .fmulVi d a i t => some (fltElem t 0 d.val a.val (.imm i false) fmulRule)
  | .fmaVv d a b t q c => some (fltElem t q.val d.val a.val (.reg b.val c) fmaRule)
  | .fmaVs d a _ t q => some (fltElem t q.val d.val a.val .scal fmaRule)
  | .fmaVi d a i t => some (fltElem t 0 d.val a.val (.imm i false) fmaRule)
  | .fnmsVv d a b t q c => some (fltElem t q.val d.val a.val (.reg b.val c) fnmsRule)
  | .fnmsVs d a _ t q => some (fltElem t q.val d.val a.val .scal fnmsRule)
  | .fnmsVi d a i t => some (fltElem t 0 d.val a.val (.imm i false) fnmsRule)
  | .fnmaVv d a b t q c => some (fltElem t q.val d.val a.val (.reg b.val c) fnmaRule)
  | .fnmaVs d a _ t q => some (fltElem t q.val d.val a.val .scal fnmaRule)
  | .fnmaVi d a i t => some (fltElem t 0 d.val a.val (.imm i false) fnmaRule)
  | .fdivVv d a b t q c => some (fltElem t q.val d.val a.val (.reg b.val c) fdivRule)
  | .fsqrtVv d a t q => some (fltElem t q.val d.val a.val (.reg a.val .none) fsqrtRule)
  | .frcpVv d a t q => some (fltElem t q.val d.val a.val (.reg a.val .none) frcpRule)
  | .frsqVv d a t q => some (fltElem t q.val d.val a.val (.reg a.val .none) frsqRule)
  | _ => none

/-- The float instructions of the lanes with rules of their own (R119, R121 to R124). -/
def fltOwnRule : Instr → Option ElemRule
  | .fminVv d a b t c => some (bitElem t d.val a.val (.reg b.val c) (fminRule t))
  | .fminVs d a _ t => some (bitElem t d.val a.val .scal (fminRule t))
  | .fminVi d a i t => some (bitElem t d.val a.val (.imm i false) (fminRule t))
  | .fmaxVv d a b t c => some (bitElem t d.val a.val (.reg b.val c) (fmaxRule t))
  | .fmaxVs d a _ t => some (bitElem t d.val a.val .scal (fmaxRule t))
  | .fmaxVi d a i t => some (bitElem t d.val a.val (.imm i false) (fmaxRule t))
  | .fclassVv d a t => some (bitElem t d.val a.val (.reg a.val .none) fun x _ => fclassRule t x)
  | .fsgnAbs d a t => some (bitElem t d.val a.val (.reg a.val .none) fun x _ => signRule t x false)
  | .fsgnNeg d a t => some (bitElem t d.val a.val (.reg a.val .none) fun x _ => signRule t x (!x.testBit (t.bits - 1)))
  | .fsgnCopy d a b t => some (bitElem t d.val a.val (.reg b.val .none) fun x y => signRule t x (y.testBit (t.bits - 1)))
  | .fscaleVv d a b t q c => some (scaleElem t q.val d.val a.val fun n e => toSigned t.bits (n.bBits t (512 / t.bits) (.reg b.val c) e))
  | .fscaleVs d a _ t q => some (scaleElem t q.val d.val a.val fun n _ => n.x.toInt)
  | .fscaleVi d a i t => some (scaleElem t 0 d.val a.val fun _ _ => i.toInt)
  | .frintVv d a t q => some (rintElem t q.val d.val a.val)
  | _ => none

/-! ### Conversions (R49, R125 to R127) -/

/-- Does a conversion have .SAT: never one with C4 (R125). -/
def satOf (t u : Ty) (m : Nat) : Bool := t != .c4 && u != .c4 && m % 2 == 1

/-- A value of the source type in the destination type (R49): `x` is the pattern of an integer source, `v` the value of a
float source. -/
def converted (t u : Ty) (sat : Bool) (env : REnv) (x : Nat) (v : FVal) : Nat × REnv :=
  if u.isInt then
    if t.isInt then ((fitted t sat (intVal u x)).1, env.raiseSat (fitted t sat (intVal u x)).2)
    else roundTo t sat env (.fin (decide (intVal u x < 0)) (intVal u x).natAbs 0) false
  else if t.isInt then (wrapTo t.bits (roundToInt t env v).1, (roundToInt t env v).2)
  else roundTo t sat env v false

/-- An element of a conversion into the register group that starts at d; an F8 block gets scale 0x7F, and a C4 source goes
through codebook m modulo 8 (R16, R41, R108, R126, R127). -/
def cvtElem (t u : Ty) (m d a group : Nat) (limit : LEnv → Nat) : ElemRule :=
  { group := group, limit := limit, w := t.bits
    reg := fun n e => d + e / perReg n.cap t.bits, pos := fun n e => e % perReg n.cap t.bits
    lanes := fun p => if t.isF8 then [2 * (p / 16), 2 * (p / 16) + 1] else [t.bits * p / 64]
    mark := if t.isF8 then 0x7F else 0
    mode := fun l => l.mode (if t == .c4 || u == .c4 then 0 else m / 4)
    elem := fun n e env => converted t u (satOf t u m) env (n.l.rd a u.bits e) (n.l.val u (m % 8) a e) }

/-- CVT: within single registers; VL fits both (R126). CVTW: into a group, VL bounded by the source (R127). -/
def cvtRule : Instr → Option ElemRule
  | .cvtVv d a u t m =>
    some (cvtElem t u m.val d.val a.val (512 / max t.bits u.bits) fun n => min (perReg n.cap t.bits) (perReg n.cap u.bits))
  | .cvtw d a u t m => some (cvtElem t u m.val d.val a.val (512 / t.bits) fun n => perReg n.cap u.bits)
  | _ => none

/-- The value of CVT's sc form: an F32 source is read from the low half, an F32 result lies in it (R110, R126). -/
def cvtScalar (t u : Ty) (m a : Nat) (s : State) : X64 :=
  let x := (s.me.rx a).toNat
  let mode : RMode := if m / 4 = 2 then .rtz else .rne
  let r := (converted t u (m % 2 == 1) { mode := mode, seed := 1, flags := FlagWord.reset } (x % 2 ^ u.bits)
    (decodeFloat .f32 (x % 2 ^ 32))).1
  if t.isSigned then (BitVec.ofNat t.bits r).signExtend 64 else (BitVec.ofNat t.bits r).setWidth 64

/-- The F32 instructions and conversions of the slice: destination and value (R110, R118, R126). -/
def fltScalarRule : Instr → Option (Nat × (State → X64))
  | .faddSc d a b _ q => some (d.val, fltScalar q.val d.val a.val b.val faddRule)
  | .fsubSc d a b _ q => some (d.val, fltScalar q.val d.val a.val b.val fsubRule)
  | .fmulSc d a b _ q => some (d.val, fltScalar q.val d.val a.val b.val fmulRule)
  | .fmaSc d a b _ q => some (d.val, fltScalar q.val d.val a.val b.val fmaRule)
  | .fnmsSc d a b _ q => some (d.val, fltScalar q.val d.val a.val b.val fnmsRule)
  | .fnmaSc d a b _ q => some (d.val, fltScalar q.val d.val a.val b.val fnmaRule)
  | .fdivSc d a b _ q => some (d.val, fltScalar q.val d.val a.val b.val fdivRule)
  | .fsqrtSc d a _ q => some (d.val, fltScalar q.val d.val a.val a.val fsqrtRule)
  | .frcpSc d a _ q => some (d.val, fltScalar q.val d.val a.val a.val frcpRule)
  | .frsqSc d a _ q => some (d.val, fltScalar q.val d.val a.val a.val frsqRule)
  | .fminSc d a b _ => some (d.val, fun s => BitVec.ofNat 64 (fminRule .f32 ((s.me.rx a.val).toNat % 2 ^ 32) ((s.me.rx b.val).toNat % 2 ^ 32)))
  | .fmaxSc d a b _ => some (d.val, fun s => BitVec.ofNat 64 (fmaxRule .f32 ((s.me.rx a.val).toNat % 2 ^ 32) ((s.me.rx b.val).toNat % 2 ^ 32)))
  | .fclassSc d a _ => some (d.val, fun s => BitVec.ofNat 64 (fclassRule .f32 ((s.me.rx a.val).toNat % 2 ^ 32)))
  | .cvtSc d a u t m => some (d.val, cvtScalar t u m.val a.val)
  | _ => none

/-- WMUL: the exact double-width product, into the register pair at d (R115). -/
def wmulRule : Instr → Option ElemRule
  | .wmulVv d a b t c =>
    some
      { group := 512 / (2 * t.bits), limit := fun n => perReg n.cap t.bits, w := 2 * t.bits
        reg := fun n e => d.val + e / perReg n.cap (2 * t.bits), pos := fun n e => e % perReg n.cap (2 * t.bits)
        lanes := fun p => [2 * t.bits * p / 64], mark := 0, mode := fun _ => .rne
        elem := fun n e env =>
          (wrapTo (2 * t.bits) (intVal t (n.l.rd a.val t.bits e) *
            intVal t (n.bBits t (512 / (2 * t.bits)) (.reg b.val c) e)), env) }
  | _ => none

/-- NRSHR: a rounding shift of an S32 accumulator, clamped (R117); s is read by form. -/
def nrshrElem (t : Ty) (d g : Nat) (s : LEnv → Nat → Nat) : ElemRule :=
  { ElemRule.plain t.bits d (fun _ => .rne) fun n e env =>
      let z := (BitVec.ofNat 32 (n.rdA g 32 e)).toInt
      let x := if s n e = 0 then z else (z + (2 ^ (s n e - 1) : Nat)).fdiv (2 ^ s n e : Nat)
      ((fitted t true x).1, env.raiseSat (fitted t true x).2) with
    group := 512 / 32, limit := fun n => if g < n.agrp then perReg n.cap t.bits else 0 }

/-- NRSHR's forms (R117). -/
def nrshrRule : Instr → Option ElemRule
  | .nrshrVv d a b t c => some (nrshrElem t d.val a.val fun n e => n.bBits t 16 (.reg b.val c) e % 32)
  | .nrshrVs d a _ t => some (nrshrElem t d.val a.val fun n _ => n.x.toNat % 32)
  | .nrshrVi d a i t => some (nrshrElem t d.val a.val fun _ _ => i.toNat % 32)
  | _ => none

/-! ### Comparisons (R134 to R136) -/

/-- Integer relations under the type's signedness. -/
def eqRule (t : Ty) (a b : Nat) : Bool := decide (intVal t a = intVal t b)
def neRule (t : Ty) (a b : Nat) : Bool := decide (intVal t a ≠ intVal t b)
def ltRule (t : Ty) (a b : Nat) : Bool := decide (intVal t a < intVal t b)
def leRule (t : Ty) (a b : Nat) : Bool := decide (intVal t a ≤ intVal t b)
/-- Float relations: a NaN operand makes EQ, LT and LE false and UN true; −0 equals +0. -/
def ordered (t : Ty) (a b : Nat) : Bool := !(decodeFloat t a).isNan && !(decodeFloat t b).isNan
def feqRule (t : Ty) (a b : Nat) : Bool :=
  ordered t a b && !(decodeFloat t a).lt (decodeFloat t b) && !(decodeFloat t b).lt (decodeFloat t a)
def fltBelow (t : Ty) (a b : Nat) : Bool := ordered t a b && (decodeFloat t a).lt (decodeFloat t b)
def fleRule (t : Ty) (a b : Nat) : Bool := ordered t a b && !(decodeFloat t b).lt (decodeFloat t a)
def funRule (t : Ty) (a b : Nat) : Bool := !ordered t a b

/-- A comparison of the lanes: the mask it writes, its type, and the bit of element e. -/
structure MaskRule where
  d : Nat
  t : Ty
  bit : LEnv → Nat → Bool

/-- A comparison of A[e] with operand B (R106, R135). -/
def cmpBit (d : Nat) (t : Ty) (a : Nat) (b : BOp) (f : Nat → Nat → Bool) : MaskRule :=
  { d := d, t := t, bit := fun n e => f (n.l.rd a t.bits e) (n.bBits t (512 / t.bits) b e) }

/-- CMP and FCMP in the lanes (R134). -/
def cmpRule : Instr → Option MaskRule
  | .cmpEqVv d a b t c => some (cmpBit d.val t a.val (.reg b.val c) (eqRule t))
  | .cmpEqVs d a _ t => some (cmpBit d.val t a.val .scal (eqRule t))
  | .cmpEqVi d a i t => some (cmpBit d.val t a.val (.imm i false) (eqRule t))
  | .cmpNeVv d a b t c => some (cmpBit d.val t a.val (.reg b.val c) (neRule t))
  | .cmpNeVs d a _ t => some (cmpBit d.val t a.val .scal (neRule t))
  | .cmpNeVi d a i t => some (cmpBit d.val t a.val (.imm i false) (neRule t))
  | .cmpLtVv d a b t c => some (cmpBit d.val t a.val (.reg b.val c) (ltRule t))
  | .cmpLtVs d a _ t => some (cmpBit d.val t a.val .scal (ltRule t))
  | .cmpLtVi d a i t => some (cmpBit d.val t a.val (.imm i false) (ltRule t))
  | .cmpLeVv d a b t c => some (cmpBit d.val t a.val (.reg b.val c) (leRule t))
  | .cmpLeVs d a _ t => some (cmpBit d.val t a.val .scal (leRule t))
  | .cmpLeVi d a i t => some (cmpBit d.val t a.val (.imm i false) (leRule t))
  | .fcmpEqVv d a b t c => some (cmpBit d.val t a.val (.reg b.val c) (feqRule t))
  | .fcmpEqVs d a _ t => some (cmpBit d.val t a.val .scal (feqRule t))
  | .fcmpEqVi d a i t => some (cmpBit d.val t a.val (.imm i false) (feqRule t))
  | .fcmpLtVv d a b t c => some (cmpBit d.val t a.val (.reg b.val c) (fltBelow t))
  | .fcmpLtVs d a _ t => some (cmpBit d.val t a.val .scal (fltBelow t))
  | .fcmpLtVi d a i t => some (cmpBit d.val t a.val (.imm i false) (fltBelow t))
  | .fcmpLeVv d a b t c => some (cmpBit d.val t a.val (.reg b.val c) (fleRule t))
  | .fcmpLeVs d a _ t => some (cmpBit d.val t a.val .scal (fleRule t))
  | .fcmpLeVi d a i t => some (cmpBit d.val t a.val (.imm i false) (fleRule t))
  | .fcmpUnVv d a b t c => some (cmpBit d.val t a.val (.reg b.val c) (funRule t))
  | .fcmpUnVs d a _ t => some (cmpBit d.val t a.val .scal (funRule t))
  | .fcmpUnVi d a i t => some (cmpBit d.val t a.val (.imm i false) (funRule t))
  | _ => none

/-- CMP and FCMP at the slice: the condition bit and its value (R136). -/
def cmpScalarRule : Instr → Option (Nat × (State → Bool))
  | .cmpEqSc d a b t => some (d.val, fun s => eqRule t ((s.me.rx a.val).toNat % 2 ^ t.bits) ((s.me.rx b.val).toNat % 2 ^ t.bits))
  | .cmpNeSc d a b t => some (d.val, fun s => neRule t ((s.me.rx a.val).toNat % 2 ^ t.bits) ((s.me.rx b.val).toNat % 2 ^ t.bits))
  | .cmpLtSc d a b t => some (d.val, fun s => ltRule t ((s.me.rx a.val).toNat % 2 ^ t.bits) ((s.me.rx b.val).toNat % 2 ^ t.bits))
  | .cmpLeSc d a b t => some (d.val, fun s => leRule t ((s.me.rx a.val).toNat % 2 ^ t.bits) ((s.me.rx b.val).toNat % 2 ^ t.bits))
  | .fcmpEqSc d a b _ => some (d.val, fun s => feqRule .f32 ((s.me.rx a.val).toNat % 2 ^ 32) ((s.me.rx b.val).toNat % 2 ^ 32))
  | .fcmpLtSc d a b _ => some (d.val, fun s => fltBelow .f32 ((s.me.rx a.val).toNat % 2 ^ 32) ((s.me.rx b.val).toNat % 2 ^ 32))
  | .fcmpLeSc d a b _ => some (d.val, fun s => fleRule .f32 ((s.me.rx a.val).toNat % 2 ^ 32) ((s.me.rx b.val).toNat % 2 ^ 32))
  | .fcmpUnSc d a b _ => some (d.val, fun s => funRule .f32 ((s.me.rx a.val).toNat % 2 ^ 32) ((s.me.rx b.val).toNat % 2 ^ 32))
  | _ => none

/-! ### Masks and whole registers (R132, R137 to R153) -/

/-- The least p below VL with a set bit in mask a, or VL. -/
def firstSet (n : LEnv) (a : Nat) : Nat :=
  ((List.range n.l.vl.toNat).find? fun p => n.l.maskBit a p).getD n.l.vl.toNat

/-- The mask instructions: the mask written and bit p of it (R137 to R139). -/
def maskRule : Instr → Option (Nat × (LEnv → Nat → Bool))
  | .mlogAnd d a b => some (d.val, fun n p =>
    if p < n.l.vl.toNat then n.l.maskBit a.val p && n.l.maskBit b.val p else n.l.maskBit d.val p)
  | .mlogOr d a b => some (d.val, fun n p =>
    if p < n.l.vl.toNat then n.l.maskBit a.val p || n.l.maskBit b.val p else n.l.maskBit d.val p)
  | .mlogXor d a b => some (d.val, fun n p =>
    if p < n.l.vl.toNat then xor (n.l.maskBit a.val p) (n.l.maskBit b.val p) else n.l.maskBit d.val p)
  | .msbf d a => some (d.val, fun n p => if p < n.l.vl.toNat then decide (p < firstSet n a.val) else n.l.maskBit d.val p)
  | .msif d a => some (d.val, fun n p => if p < n.l.vl.toNat then decide (p ≤ firstSet n a.val) else n.l.maskBit d.val p)
  | .msetAll d => some (d.val, fun _ _ => true)
  | .msetNone d => some (d.val, fun _ _ => false)
  | .msetVl d => some (d.val, fun n p => decide (p < n.l.vl.toNat))
  | _ => none

/-- What a whole-register instruction leaves: whether it ignores VL and VSTART, the element width and the most elements, 0 where its
operands allow none, the value put at position p of register j (none where it stays), the side byte put in lane q, and the flags and generator. -/
structure WholeRule where
  free : Bool := false
  limit : LEnv → Nat
  w : Nat
  put : LEnv → Nat → Nat → Option Nat
  side : LEnv → Nat → Nat → Option Nat
  leaves : LEnv → FlagWord × X64 := fun n => (n.l.flags, n.l.srseed)

/-- The side bytes of an unscaled destination: 0x00 in every lane written (R16). -/
def zeroSides (w : Nat) (put : LEnv → Nat → Nat → Option Nat) (n : LEnv) (j q : Nat) : Option Nat :=
  if (List.range (64 / w)).any fun i => (put n j (q * (64 / w) + i)).isSome then some 0 else none

/-- A whole-register rule on an unscaled type. -/
def WholeRule.unscaled (t : Ty) (put : LEnv → Nat → Nat → Option Nat) : WholeRule :=
  { limit := fun n => perReg n.cap t.bits, w := t.bits, put := put, side := zeroSides t.bits put }

/-- The active positions below VL, in order. -/
def activeList (n : LEnv) : List Nat := (List.range n.l.vl.toNat).filter fun e => n.l.gov e
/-- How many positions below e are active. -/
def rank (n : LEnv) (e : Nat) : Nat := (List.range e).countP fun i => n.l.gov i

/-- The element that a slide puts at e: from e − s, or from e + s and zero beyond the register (R145). -/
def slid (up : Bool) (s cnt e : Nat) : Option (Option Nat) :=
  if up then (if s ≤ e then some (some (e - s)) else none) else some (if e + s < cnt then some (e + s) else none)

/-- VSLUP and VSLDN: active elements of unscaled types, every element and whole blocks with their scales on scaled ones. -/
def slideRule (up : Bool) (t : Ty) (d a : Nat) (s : LEnv → Nat) : WholeRule :=
  let src (n : LEnv) (j e : Nat) : Option (Option Nat) :=
    if j = d ∧ e < n.l.vl.toNat ∧ (t.isBlock = true ∨ n.l.gov e = true) then slid up (s n) (perReg n.cap t.bits) e else none
  let put (n : LEnv) (j e : Nat) : Option Nat := (src n j e).map fun x => x.elim 0 fun i => n.l.rd a t.bits i
  { limit := fun n => if t.isBlock ∧ (s n % 16 ≠ 0 ∨ n.l.vl.toNat % 16 ≠ 0) then 0 else perReg n.cap t.bits
    w := t.bits, put := put
    side := fun n j q =>
      if t.isBlock then (src n j (64 / t.bits * q)).map fun x => x.elim 0x7F fun i => n.l.scaleOf t a i
      else zeroSides t.bits put n j q }

/-- Keys and payloads of [lo, hi) of a pair, and the pair at position e of a list. -/
def keyed (n : LEnv) (a lo hi : Nat) : List (Nat × Nat) :=
  (List.range' lo (hi - lo)).map fun e => (n.l.rd a 64 e, n.l.rd (a + 1) 64 e)

/-- VMRG's output from run positions i and j on (R153). -/
def mergedFrom (t : Ty) (vl : Nat) (ka kb : List (Nat × Nat)) : Nat → Nat → Nat → List (Nat × Nat)
  | 0, _, _ => []
  | c + 1, i, j =>
    if j = vl ∨ (i < vl ∧ ¬ intVal t (kb.getD j (0, 0)).1 < intVal t (ka.getD i (0, 0)).1) then
      ka.getD i (0, 0) :: mergedFrom t vl ka kb c (i + 1) j
    else kb.getD j (0, 0) :: mergedFrom t vl ka kb c i (j + 1)

/-- A pair of registers that takes position e of a list of keys and payloads. -/
def pairRule (t : Ty) (d : Nat) (at_ : LEnv → Nat → Nat × Nat) : WholeRule :=
  .unscaled t fun n j e =>
    if e < n.l.vl.toNat then (if j = d then some (at_ n e).1 else if j = d + 1 then some (at_ n e).2 else none) else none

/-- Moves across registers (R142 to R149, R152, R153). -/
def moveRule : Instr → Option WholeRule
  | .compress d a t => some (.unscaled t fun n j p =>
    if j = d.val then ((activeList n)[p]?).map fun e => n.l.rd a.val t.bits e else none)
  | .expand d a t => some (.unscaled t fun n j e =>
    if j = d.val ∧ e < n.l.vl.toNat ∧ n.l.gov e = true then some (n.l.rd a.val t.bits (rank n e)) else none)
  | .vperm d a b t => some (.unscaled t fun n j e =>
    let i := if t.bits = 8 then n.l.rd (b.val + e / perReg n.cap 16) 16 (e % perReg n.cap 16) else n.l.rd b.val t.bits e
    if j = d.val ∧ e < n.l.vl.toNat ∧ n.l.gov e = true then some (if i < n.l.vl.toNat then n.l.rd a.val t.bits i else 0)
    else none)
  | .vslupVs d a _ t => some (slideRule true t d.val a.val fun n => n.x.toNat)
  | .vslupVi d a i t => some (slideRule true t d.val a.val fun _ => i.toNat)
  | .vsldnVs d a _ t => some (slideRule false t d.val a.val fun n => n.x.toNat)
  | .vsldnVi d a i t => some (slideRule false t d.val a.val fun _ => i.toNat)
  | .vzipZip d a b t => some (.unscaled t fun n j p =>
    let q := p + (j - d.val) * perReg n.cap t.bits
    if (j = d.val ∨ j = d.val + 1) ∧ p < perReg n.cap t.bits ∧ q / 2 < n.l.vl.toNat ∧ n.l.gov (q / 2) = true then
      some (n.l.rd (if q % 2 = 0 then a.val else b.val) t.bits (q / 2))
    else none)
  | .vzipUnzip d a t => some (.unscaled t fun n j e =>
    let src (q : Nat) : Nat := n.l.rd (a.val + q / perReg n.cap t.bits) t.bits (q % perReg n.cap t.bits)
    if e < n.l.vl.toNat ∧ n.l.gov e = true then
      (if j = d.val then some (src (2 * e)) else if j = d.val + 1 then some (src (2 * e + 1)) else none)
    else none)
  | .vmoveIns d a t => some
    { WholeRule.unscaled t fun n j e => if j = d.val ∧ e = 0 then some (n.l.rd a.val t.bits 0) else none with free := true }
  | .bperm d a b t => some
    { limit := fun n => if n.l.vl.toNat * t.bits % 128 = 0 then perReg n.cap t.bits else 0
      w := 128
      put := fun n j u =>
        let i := n.l.rd b.val 16 u
        if j = d.val ∧ u < n.l.vl.toNat * t.bits / 128 then
          some (if i < n.l.vl.toNat * t.bits / 128 then n.l.rd a.val 128 i else 0)
        else none
      side := fun n j q =>
        let i := n.l.rd b.val 16 (q / 2)
        if j = d.val ∧ q / 2 < n.l.vl.toNat * t.bits / 128 then
          some (if t.isBlock = false then 0
            else if i < n.l.vl.toNat * t.bits / 128 then n.l.side a.val (if t = .c4 then 2 * i + q % 2 else 2 * i) else 0x7F)
        else none }
  | .vsort d a t => some (pairRule t d.val fun n e =>
    (((keyed n a.val (e / 8 * 8) (min (e / 8 * 8 + 8) n.l.vl.toNat)).mergeSort
      fun p q => decide (intVal t p.1 ≤ intVal t q.1))[e % 8]?).getD (0, 0))
  | .vmrgLo d a b t => some (pairRule t d.val fun n e =>
    (mergedFrom t n.l.vl.toNat (keyed n a.val 0 n.l.vl.toNat) (keyed n b.val 0 n.l.vl.toNat) (2 * n.l.vl.toNat) 0 0).getD e (0, 0))
  | .vmrgHi d a b t => some (pairRule t d.val fun n e =>
    (mergedFrom t n.l.vl.toNat (keyed n a.val 0 n.l.vl.toNat) (keyed n b.val 0 n.l.vl.toNat) (2 * n.l.vl.toNat) 0 0).getD
      (n.l.vl.toNat + e) (0, 0))
  | _ => none

/-- A reduction of type t into element 0 of d: `f` gives the value and what rounding leaves; none with VL = 0 (R11, R150). -/
def reduction (t : Ty) (d : Nat) (f : LEnv → Nat × REnv) : WholeRule :=
  { WholeRule.unscaled t fun n j e => if j = d ∧ e = 0 ∧ n.l.vl ≠ 0 then some (f n).1 else none with
    leaves := fun n => if n.l.vl = 0 then (n.l.flags, n.l.srseed) else ((f n).2.flags, (f n).2.seed) }

/-- RED: B[0] and the active elements in increasing order, fitted at each step (R56, R150). -/
def redSteps (t : Ty) (sat : Bool) (a b : Nat) (f : IntRule) (n : LEnv) : Nat × REnv :=
  (activeList n).foldl (fun acc e =>
    let r := fitted t sat (f t acc.1 (n.l.rd a t.bits e) 0)
    (r.1, acc.2.raiseSat r.2)) (n.l.rd b t.bits 0, { mode := .rne, seed := n.l.srseed, flags := n.l.flags })

/-- One rounded addition of two encodings. -/
def rounds (t : Ty) (env : REnv) (x y : Nat) : Nat × REnv :=
  roundedOnce t env (.of (addExact (decide (env.mode = .rdn)) (decodeFloat t x) (decodeFloat t y)))

/-- What the rounding of a reduction starts from: the mode of VTYPE. -/
def reduceEnv (n : LEnv) : REnv := { mode := n.l.mode 0, seed := n.l.srseed, flags := n.l.flags }

/-- FRED.OSUM (R54). -/
def osumSteps (t : Ty) (a b : Nat) (n : LEnv) : Nat × REnv :=
  (activeList n).foldl (fun acc e => rounds t acc.2 acc.1 (n.l.rd a t.bits e)) (n.l.rd b t.bits 0, reduceEnv n)

/-- One level of the tree: adjacent sums, left to right (R55). -/
def treeLevel (t : Ty) (p : List Nat × REnv) : List Nat × REnv :=
  (List.range (p.1.length / 2)).foldl (fun acc i =>
    let r := rounds t acc.2 (p.1.getD (2 * i) 0) (p.1.getD (2 * i + 1) 0)
    (acc.1 ++ [r.1], r.2)) ([], p.2)

/-- FRED.TSUM: 2^h positions, the least power of two at or above VL; B[0] is added last (R55). -/
def tsumSteps (t : Ty) (a b h : Nat) (n : LEnv) : Nat × REnv :=
  let ident := if n.l.mode 0 = .rdn then 0 else signBit t
  let leaves := (List.range (2 ^ h)).map fun e => if e < n.l.vl.toNat ∧ n.l.gov e = true then n.l.rd a t.bits e else ident
  let root := (List.range h).foldl (fun p _ => treeLevel t p) (leaves, reduceEnv n)
  rounds t root.2 (n.l.rd b t.bits 0) (root.1.getD 0 0)

/-- FRED.MIN and FRED.MAX (R151). -/
def foldBits (t : Ty) (a b : Nat) (f : Nat → Nat → Nat) (n : LEnv) : Nat × REnv :=
  ((activeList n).foldl (fun acc e => f acc (n.l.rd a t.bits e)) (n.l.rd b t.bits 0), reduceEnv n)

/-- Reductions (R150, R151). -/
def reduceRule : Instr → Option WholeRule
  | .redSum d a b t sat => some (reduction t d.val (redSteps t sat a.val b.val addRule))
  | .redMin d a b t => some (reduction t d.val (redSteps t false a.val b.val minRule))
  | .redMax d a b t => some (reduction t d.val (redSteps t false a.val b.val maxRule))
  | .redAnd d a b t => some (reduction t d.val (redSteps t false a.val b.val andRule))
  | .redOr d a b t => some (reduction t d.val (redSteps t false a.val b.val orRule))
  | .redXor d a b t => some (reduction t d.val (redSteps t false a.val b.val xorRule))
  | .fredOsum d a b t => some (reduction t d.val (osumSteps t a.val b.val))
  | .fredTsum d a b t => some (reduction t d.val fun n => tsumSteps t a.val b.val (((List.range 14).find? fun h => n.l.vl.toNat ≤ 2 ^ h).getD 0) n)
  | .fredMin d a b t => some (reduction t d.val (foldBits t a.val b.val (fminRule t)))
  | .fredMax d a b t => some (reduction t d.val (foldBits t a.val b.val (fmaxRule t)))
  | _ => none

/-- IOTA, VBCAST and VMOVE.ELT (R141, R146, R149). -/
def placeRule : Instr → Option ElemRule
  | .iota d t => some (.plain t.bits d.val (fun _ => .rne) fun _ e env => (e, env))
  | .vbcastVs d _ t => some (bitElem t d.val d.val .scal fun _ y => y)
  | .vbcastVi d i t => some (bitElem t d.val d.val (.imm i false) fun _ y => y)
  | .vmoveElt d a t => some (bitElem t d.val a.val (.reg a.val .none) fun x _ => x)
  | _ => none

/-- PICK: the selected source (R114). -/
def pickRule : Instr → Option (Nat × Ty × (LEnv → Nat → Nat))
  | .pickVv d a b t c => some (d.val, t, fun n e =>
    if n.l.gov e then n.l.rd a.val t.bits e else n.bBits t (512 / t.bits) (.reg b.val c) e)
  | .pickVs d a _ t => some (d.val, t, fun n e => if n.l.gov e then n.l.rd a.val t.bits e else n.x.toNat % 2 ^ t.bits)
  | .pickVi d a i t => some (d.val, t, fun n e => if n.l.gov e then n.l.rd a.val t.bits e else immBits t false i)
  | _ => none

/-- Whole-register entries of a table complete at once, all reads before all writes, and VDIRTY and VEXT follow (R23, R132,
R258). -/
def WholesRun (rule : Instr → Option WholeRule) : Prop :=
  ∀ (s : State) (k : Nat) (i : Instr) (e : Entry) (r : WholeRule) (c : Fin 64),
    AtHead s k i e → c.val = coreOf k → rule i = some r → i.wf = true →
    (r.free = true ∨ (s.slot k).lane.vstart = 0 ∧ 0 < r.limit (s.lenv k e) ∧
      (s.slot k).lane.vl.toNat ≤ r.limit (s.lenv k e)) →
    let n := s.lenv k e
    ∃ u, exec (.issueOpportunity c) s = .next u ∧ OnlyLanes s u k ∧ (u.slot k).queue = (s.slot k).queue.tail ∧
      (∀ j p, (u.slot k).lane.rd j r.w p = (r.put n j p).elim (n.l.rd j r.w p) fun v => v % 2 ^ r.w) ∧
      (∀ j q, q < 256 → (u.slot k).lane.side j q = (r.side n j q).getD (n.l.side j q)) ∧
      Marks r.w (fun j p => (r.put n j p).isSome = true) n.l (u.slot k).lane ∧
      ((u.slot k).lane.flags, (u.slot k).lane.srseed) = r.leaves n ∧
      (u.slot k).lane = { n.l with
        v := (u.slot k).lane.v, flags := (u.slot k).lane.flags, srseed := (u.slot k).lane.srseed
        vdirty := (u.slot k).lane.vdirty, vext := (u.slot k).lane.vext, vstart := 0 }

/-! ### Block scales and codebooks (R51, R128 to R130) -/

/-- An instruction that derives block scales: destination type, codebook, mode, destination, and the value of source element e. -/
structure BlockRule where
  group : Nat
  limit : LEnv → Nat
  t : Ty
  book : Nat
  mode : Lane → RMode
  d : Nat
  val : LEnv → Nat → FVal

/-- CVTS and SCLD (R128, R129). -/
def blockRule : Instr → Option BlockRule
  | .cvts d a u t m => some
    { group := 512 / u.bits, limit := fun n => perReg n.cap t.bits, t := t, book := m.val % 8
      mode := fun l => l.mode (if t == .c4 then 0 else m.val / 4), d := d.val
      val := fun n e => decodeFloat u (n.l.rd (a.val + e / perReg n.cap u.bits) u.bits (e % perReg n.cap u.bits)) }
  | .scld d a u t m => some
    { group := 64, limit := fun n => min (perReg n.cap t.bits) (perReg n.cap 8), t := t, book := m.val % 8
      mode := fun l => l.mode (if t == .c4 then 0 else m.val / 4), d := d.val
      val := fun n e => applyScale (n.l.side a.val (2 * (e / 16))) (decodeFloat u (n.l.rd a.val 8 e)) }
  | _ => none

/-- The active elements of block j among [lo, hi). -/
def activeOfBlock (n : LEnv) (lo hi j : Nat) : List Nat :=
  (List.range' (16 * j) 16).filter fun e => decide (lo ≤ e) && decide (e < hi) && n.l.gov e

/-- The code of active element e of a block, with the draw and the flags it leaves: encoded under the scale of the active elements of
its block (R47, R49, R50, R51, R128). -/
def BlockRule.code (r : BlockRule) (n : LEnv) (lo hi e : Nat) (env : REnv) : Nat × REnv :=
  let vals := (activeOfBlock n lo hi (e / 16)).map (r.val n)
  let book := vat n.l.b r.book (Vector.replicate 16 0)
  encodeBlockElem r.t book (blockScale r.t book vals) (vals.all fun v => v.isZero) env (r.val n e)

/-- Block j after its encoding: with no active element it stays; otherwise its scale follows from the active elements, which are
encoded under it, and every other element is the zero code (R51, R128). -/
def BlockEncoded (r : BlockRule) (n : LEnv) (l' : Lane) (lo hi j : Nat) (seed : Nat → X64)
    (flags : Nat → FlagWord) : Prop :=
  let act := activeOfBlock n lo hi j
  let vals := act.map (r.val n)
  let book := vat n.l.b r.book (Vector.replicate 16 0)
  let scale := blockScale r.t book vals
  let lanes := if r.t = .c4 then [j] else [2 * j, 2 * j + 1]
  if act = [] then
    (∀ e, e / 16 = j → l'.rd r.d r.t.bits e = n.l.rd r.d r.t.bits e) ∧ ∀ q ∈ lanes, l'.side r.d q = n.l.side r.d q
  else
    (∀ q ∈ lanes, l'.side r.d q = scale) ∧
    ∀ e, e / 16 = j → l'.rd r.d r.t.bits e =
      if e ∈ act then
        (r.code n lo hi e { mode := r.mode n.l, seed := seed e, flags := flags e }).1 % 2 ^ r.t.bits
      else if r.t = .c4 then nearestCode book (.fin false 0 0) else 0

/-- The generator and the flags run through the active elements of [lo, hi) in rising order, and the lanes l' hold what the last one
leaves (R46, R47, R51, R105, R128). -/
structure BlockFlags (r : BlockRule) (n : LEnv) (l' : Lane) (lo hi : Nat) (seed : Nat → X64) (flags : Nat → FlagWord) : Prop where
  start : seed lo = n.l.srseed ∧ flags lo = n.l.flags
  active : ∀ e, lo ≤ e → e < hi → n.l.gov e = true →
    let x := r.code n lo hi e { mode := r.mode n.l, seed := seed e, flags := flags e }
    seed (e + 1) = x.2.seed ∧ flags (e + 1) = x.2.flags
  inactive : ∀ e, lo ≤ e → e < hi → n.l.gov e = false → seed (e + 1) = seed e ∧ flags (e + 1) = flags e
  finish : l'.srseed = seed hi ∧ l'.flags = flags hi

/-! ### Accumulators (R116, R155 to R168) -/

/-- Position p of width w of accumulator register i. -/
def Lane.acc (l : Lane) (i w p : Nat) : Nat := (vat l.a i 0).toNat / 2 ^ (w * p) % 2 ^ w

/-- An instruction that writes elements of accumulator group g in the layout of width w: the value of element e with what
rounding leaves. -/
structure AccRule where
  group : Nat
  limit : LEnv → Nat
  g : Nat
  w : Nat
  mode : Lane → RMode
  elem : LEnv → Nat → REnv → Nat × REnv

/-- Element e of group g lies in register 8g + e / n at position e mod n (R155). -/
def AccRule.reads (r : AccRule) (n : LEnv) (l : Lane) (e : Nat) : Nat :=
  l.acc (8 * r.g + e / perReg n.cap r.w) r.w (e % perReg n.cap r.w)

/-- How far the write of accumulator element e reaches, in 512-bit groups of its register (R258). -/
def AccRule.reach (r : AccRule) (n : LEnv) (e : Nat) : Nat := (r.w * (e % perReg n.cap r.w) + r.w - 1) / 512 + 1

/-- The lanes l' are those of n after the active elements of [lo, hi) of an accumulator rule, and nothing else but the group's
ADIRTY bit, VEXT, the flags and the generator differs (R23, R258). -/
structure AccElements (r : AccRule) (n : LEnv) (l' : Lane) (lo hi : Nat) (seed : Nat → X64) (flags : Nat → FlagWord) :
    Prop where
  start : seed lo = n.l.srseed ∧ flags lo = n.l.flags
  active : ∀ e, lo ≤ e → e < hi → n.l.gov e = true →
    let x := r.elem n e { mode := r.mode n.l, seed := seed e, flags := flags e }
    r.reads n l' e = x.1 % 2 ^ r.w ∧ seed (e + 1) = x.2.seed ∧ flags (e + 1) = x.2.flags
  inactive : ∀ e, lo ≤ e → e < hi → n.l.gov e = false → seed (e + 1) = seed e ∧ flags (e + 1) = flags e
  elsewhere : ∀ i p, p < perReg n.cap r.w →
    (∀ e, lo ≤ e → e < hi → n.l.gov e = true → ¬ (8 * r.g + e / perReg n.cap r.w = i ∧ e % perReg n.cap r.w = p)) →
    l'.acc i r.w p = n.l.acc i r.w p
  finish : l'.srseed = seed hi ∧ l'.flags = flags hi
  dirty : l'.adirty = n.l.adirty ||| 1#32 <<< r.g
  reached : ∀ e, lo ≤ e → e < hi → n.l.gov e = true → r.reach n e ≤ l'.vext.toNat
  extent : l'.vext = n.l.vext ∨ n.l.vext.toNat < l'.vext.toNat ∧
    ∃ e, lo ≤ e ∧ e < hi ∧ n.l.gov e = true ∧ l'.vext.toNat = r.reach n e
  rest : l' = { n.l with
    a := l'.a, flags := l'.flags, srseed := l'.srseed, adirty := l'.adirty, vext := l'.vext, vstart := l'.vstart }

/-- One block of R53: acc + s exactly, wrapped or clamped to S32. -/
def blockInt (sat : Bool) (old : Nat) (s : Int) (env : REnv) : Nat × REnv :=
  let r := fitted .s32 sat ((BitVec.ofNat 32 old).toInt + s)
  (r.1, env.raiseSat r.2)
/-- One block of R53: round(acc + round(s)), two roundings and two draws; `s` with its NV. -/
def blockFloat (old : Nat) (s : FVal × Bool) (env : REnv) : Nat × REnv :=
  let p := roundedOnce .f32 env (.of s)
  roundedOnce .f32 p.2 (.of (addExact (decide (env.mode = .rdn)) (decodeFloat .f32 old) (decodeFloat .f32 p.1)))

/-- WMAC: A[e] × opB(e) added as one block (R116). -/
def wmacElem (t : Ty) (q g a : Nat) (b : BOp) : AccRule :=
  { group := 16, limit := fun n => if g < n.agrp then perReg n.cap t.bits else 0, g := g, w := 32, mode := fun l => l.mode q
    elem := fun n e env =>
      if t.isInt then
        blockInt (q == 1) (n.rdA g 32 e) (intVal t (n.l.rd a t.bits e) * intVal t (n.bBits t 16 b e)) env
      else blockFloat (n.rdA g 32 e) (mulExact (n.l.val t 0 a e) (n.bVal t 16 b e)) env }

/-- WMAC, ACCWR and DFMA: the writers of accumulator elements that run element groups (R116, R165, R168). -/
def accRule : Instr → Option AccRule
  | .wmacVv d a b t q c => some (wmacElem t q.val d.val a.val (.reg b.val c))
  | .wmacVs d a _ t q => some (wmacElem t q.val d.val a.val .scal)
  | .accwr d a t => some
    { group := if t = .f64s then 8 else 16
      limit := fun n => if d.val < n.agrp then (if t.isHalf then 4 else 8) * perReg n.cap t.bits else 0
      g := d.val, w := if t = .f64s then 64 else 32, mode := fun _ => .rne
      elem := fun n e env =>
        let x := n.l.rd (a.val + e / perReg n.cap t.bits) t.bits (e % perReg n.cap t.bits)
        (if t.isHalf then (roundTo .f32 false { mode := .rne, seed := 1, flags := FlagWord.reset } (decodeFloat t x) false).1
          else x, env) }
  | .dfma d a b q => some
    { group := 8
      limit := fun n => if d.val < n.agrp ∧ 3 ≤ n.cap ∧ n.l.vl.toNat % 8 = 0 then 8 * 2 ^ n.cap else 0
      g := d.val, w := 64, mode := fun l => l.mode q.val
      elem := fun n e env =>
        let prods := (List.range 8).map fun k =>
          mulSlices n.l.slices.toNat (decodeFloat .f64s (n.l.rd a.val 64 (8 * (e / 8) + k)))
            (decodeFloat .f64s (n.l.rd b.val 64 (8 * (e % 8) + k)))
        roundedOnce .f64s env (.of (sumProducts (decide (env.mode = .rdn))
          ((decodeFloat .f64s (n.rdA d.val 64 e), false) :: prods))) }
  | _ => none

/-- K-block i of a register form of MMA (R159, R160): A is element 32r + kk of register a + i, B element 32c + kk of register
b + i; a C4 operand goes through codebook 2m or 2m + 1. -/
def mmaElem (t : Ty) (m d a b i : Nat) (fresh : Bool) : AccRule :=
  { group := 1, limit := fun _ => 0, g := d, w := 32, mode := fun l => l.mode (if t = .c4 then 0 else m)
    elem := fun n e env =>
      let old := if fresh && i == 0 then 0 else n.rdA d 32 e
      if t.isInt then
        blockInt (m == 1) old (((List.range 32).map fun kk =>
          intVal t (n.l.rd (a + i) t.bits (32 * (e / 32) + kk)) * intVal t (n.l.rd (b + i) t.bits (32 * (e % 32) + kk))).sum) env
      else
        blockFloat old (sumProducts (decide (env.mode = .rdn)) ((List.range 32).map fun kk =>
          mulExact (n.l.val t (2 * m) (a + i) (32 * (e / 32) + kk)) (n.l.val t (2 * m + 1) (b + i) (32 * (e % 32) + kk)))) env }

/-- The register forms of MMA: type, group, the number of k-blocks and the rule of k-block i. -/
def mmaRule : Instr → Option (Ty × Nat × Nat × (Nat → AccRule))
  | .mmaAccRegister d a b t m g => some (t, d.val, 2 ^ g.val, fun i => mmaElem t m.val d.val a.val b.val i false)
  | .mmaZeroRegister d a b t m g => some (t, d.val, 2 ^ g.val, fun i => mmaElem t m.val d.val a.val b.val i true)
  | _ => none

/-- ACCRD: a copy of accumulator elements into a register group, or a conversion of F32 into a 16-bit type (R164). -/
def accrdRule : Instr → Option ElemRule
  | .accrd d g t q sat => some
    { group := if t = .f64s then 8 else 16
      limit := fun n => if g.val < n.agrp then (if t.isHalf then 4 else 8) * perReg n.cap t.bits else 0
      w := t.bits, reg := fun n e => d.val + e / perReg n.cap t.bits, pos := fun n e => e % perReg n.cap t.bits
      lanes := fun p => [t.bits * p / 64], mark := 0, mode := fun l => if t.isHalf then l.mode q.val else .rne
      elem := fun n e env =>
        if t.isHalf then roundTo t sat env (decodeFloat .f32 (n.rdA g.val 32 e)) false
        else (n.rdA g.val t.bits e, env) }
  | _ => none

/-! ### Entries of the control queue (R24, R28, R62, R99) -/

/-- The scalar value that an entry carries: x[b] of a vs form, the address operands of memory instructions, else 0 (R24, R62,
R203, R209). -/
def scalarOf (sl : Slot) : Instr → X64
  | .addVs _ _ b _ _ | .subVs _ _ b _ _ | .mulVs _ _ b _ _ | .shlVs _ _ b _ _ | .maddVs _ _ b _ _ | .divVs _ _ b _ _
  | .wmacVs _ _ b _ _ | .faddVs _ _ b _ _ | .fsubVs _ _ b _ _ | .fmulVs _ _ b _ _ | .fmaVs _ _ b _ _ | .fnmsVs _ _ b _ _
  | .fnmaVs _ _ b _ _ | .fscaleVs _ _ b _ _ => sl.rx b.val
  | .mulhVs _ _ b _ | .minVs _ _ b _ | .maxVs _ _ b _ | .andVs _ _ b _ | .orVs _ _ b _ | .xorVs _ _ b _ | .shrVs _ _ b _
  | .shraVs _ _ b _ | .remVs _ _ b _ | .rshrVs _ _ b _ | .andnVs _ _ b _ | .pickVs _ _ b _ | .nrshrVs _ _ b _
  | .fminVs _ _ b _ | .fmaxVs _ _ b _ | .vslupVs _ _ b _ | .vsldnVs _ _ b _ => sl.rx b.val
  | .cmpEqVs _ _ b _ | .cmpNeVs _ _ b _ | .cmpLtVs _ _ b _ | .cmpLeVs _ _ b _ | .fcmpEqVs _ _ b _ | .fcmpLtVs _ _ b _
  | .fcmpLeVs _ _ b _ | .fcmpUnVs _ _ b _ => sl.rx b.val
  | .vbcastVs _ b _ => sl.rx b.val
  | .ldr _ _ b _ | .str _ _ b _ => sl.rx b.val
  | .ldf _ _ a b _ _ _ _ | .stf _ _ a b _ _ _ _ | .stfm _ _ a b _ _ _ _ => sl.rx a.val + sl.rx b.val
  | .ldfx _ _ a _ _ _ _ _ | .stfx _ _ a _ _ _ _ _ => sl.rx a.val
  | .scaddInt _ _ a _ _ | .scaddFlt _ _ a _ _ => sl.rx a.val
  | _ => 0

/-- The memory and matrix instructions that run at the lanes in a way of their own. -/
def entersOwn : Instr → Bool
  | .cbld .. | .accz .. | .ldr .. | .str .. | .ldrx .. | .strx .. | .mmaAccResident .. | .mmaZeroResident .. | .ldf ..
  | .ldfx .. | .stf .. | .stfx .. | .stfm .. | .scaddInt .. | .scaddFlt .. => true
  | _ => false

/-- The instructions that enter the control queue and return nothing to the slice (R24). -/
def entersQueue (i : Instr) : Bool :=
  (intRule i).isSome || (fltRule i).isSome || (fltOwnRule i).isSome || (cvtRule i).isSome || (wmulRule i).isSome ||
    (nrshrRule i).isSome || (cmpRule i).isSome || (maskRule i).isSome || (moveRule i).isSome || (reduceRule i).isSome ||
    (placeRule i).isSome || (pickRule i).isSome || (blockRule i).isSome || (accRule i).isSome || (mmaRule i).isSome ||
    (accrdRule i).isSome || entersOwn i

/-- The convoy of a new entry: that of the entry before it, while it reads a register which that one writes, its governing mask and
codebooks among them, and the convoy holds fewer than eight entries; otherwise a new one (R28, R132). -/
def inConvoy (sl : Slot) (e : Entry) : X64 × Nat :=
  match sl.lastCv with
  | none => (sl.pc, 0)
  | some p => if sl.chains p e = true ∧ p.cvPos + 1 < 8 then (p.cvHead, p.cvPos + 1) else (sl.pc, 0)

/-- The slice has pushed the entry e of the instruction i, with its scalar value and VL, and its PC is at the next word. -/
structure Enters (sl : Slot) (i : Instr) (x : X64) (vl : BitVec 13) (e : Entry) (sl' : Slot) : Prop where
  slot : sl' = { sl.onward with
    queue := sl.queue ++ [e], lastCv := some e, x := sl'.x, svl := sl'.svl, swidth := sl'.swidth, share := sl'.share }
  what : e.kind = .instr ∧ e.ins = some i ∧ encode i = [e.word]
  carries : e.scalar = x ∧ e.vl = vl ∧ e.pc = sl.pc ∧ e.p = sl.stageLive ∧ e.leave = 0 ∧ e.ahead = 0
  stages : ∀ j, j < 4 → e.stages.getLsbD j = vat sl.c (8 + j) false
  convoy : (e.cvHead, e.cvPos) = inConvoy sl e

/-- The grant of a SETVL for n elements of width w (R87, R88): no more than VLMAX and the thread's share of the core. -/
def grantFor (s : State) (n w : Nat) : Nat :=
  let bound := (s.slots.filter fun p => coreOf p.1 == coreOf s.cur && p.2.st != .vacant).length
  let groups := (s.coreAt (coreOf s.cur)).plim / max 1 bound
  let share := if groups = 0 then 1 else 2 ^ Nat.log2 groups
  min n (min (512 * 2 ^ s.me.cap.toNat / w) (2048 * share / w))

/-- What the back-flow instructions return (R138, R152): the set bits among the first VL of a mask, the first of them or all
ones, the element of least index. -/
def backValue (n : LEnv) : Instr → Option (Nat × X64)
  | .mpopc d a => some (d.val, BitVec.ofNat 64 (((List.range n.l.vl.toNat).countP fun e => (vat n.l.m a.val 0).getLsbD e) : Nat))
  | .mfirst d a => some (d.val,
      match (List.range n.l.vl.toNat).find? fun e => (vat n.l.m a.val 0).getLsbD e with
      | some e => BitVec.ofNat 64 e
      | none => BitVec.allOnes 64)
  | .vmoveExt d a t => some (d.val,
      let v := n.l.rd a.val t.bits 0
      if t.isSigned then (BitVec.ofNat t.bits v).signExtend 64 else BitVec.ofNat 64 v)
  | _ => none

/-! ### Branches, nests and counters (R93 to R102) -/

/-- Is a target the address after the body of a live nest: a jump there from outside falls through no body (R96). -/
def Slot.afterBody (sl : Slot) (target : X64) : Bool :=
  decide (sl.nest.act = true ∧ sl.nest.own = sl.tr.inh ∧
    target = sl.nest.nbody + 4 * BitVec.ofNat 64 (sl.nest.lenm1.toNat + 1))

/-- A branch of the slice to a target: from the body of a live nest to a target outside it, it ends the nest and clears c8 to c15
(R100). -/
def Slot.branched (sl : Slot) (target : X64) : Slot :=
  let inside (a : X64) : Prop := (a - sl.nest.nbody).toNat < 4 * (sl.nest.lenm1.toNat + 1)
  let leaves := sl.nest.act = true ∧ sl.nest.own = sl.tr.inh ∧ inside sl.pc ∧ ¬ inside target
  { sl.onward with
    pc := target
    nest := if leaves then { sl.nest with act := false } else sl.nest
    c := if leaves then Vector.ofFn fun j => decide (j.val < 8) && vat sl.c j.val false else sl.c
    jumped := decide (¬ leaves) && sl.afterBody target }

/-- The target of an offset in words (R93). -/
def offsetFrom (pc : X64) (o : BitVec 20) : X64 := pc + 4 * BitVec.ofInt 64 o.toInt

/-- c0 to c15 in pass p of a nest whose counter k0 holds a value (R98). -/
def passConds (sl : Slot) (n : Nest) (p : Nat) (k0 : BitVec 32) : Vector Bool 16 :=
  let total := n.total
  let stages := n.sm1.toNat + 1
  Vector.ofFn fun j =>
    if j.val < 8 then vat sl.c j.val false
    else if j.val < 12 then decide (j.val - 8 < stages ∧ j.val - 8 ≤ p ∧ p < total + (j.val - 8))
    else if j.val = 12 then decide (k0 = 0)
    else if j.val = 13 then decide (k0.toNat + 1 = (vat n.trip 0 0).toNat)
    else if j.val = 14 then decide (p = 0)
    else decide (p + 2 = total + stages)

/-- The nest that a LOOP opens, of trip counts ts (R95). -/
def loopNest (sl : Slot) (n l st : Nat) (ts : Nat → Nat) : Nest :=
  { act := true, own := sl.tr.inh, n := BitVec.ofNat 3 n, sm1 := BitVec.ofNat 2 st, lenm1 := BitVec.ofNat 6 l
    nbody := sl.pc + 4, npass := 0, trip := Vector.ofFn fun i => if i.val < n then BitVec.ofNat 32 (ts i.val) else 0 }

/-- The entry of a counter event: the counters it names, as bits, how they change and the value they take (R97, R257). -/
def eventEntry (sl : Slot) (named : BitVec 6) (kind value : Nat) (pc : X64) : Entry :=
  { kind := .counter, ins := none, word := 0, scalar := BitVec.ofNat 64 (kind * 2 ^ 32 + value), pc := pc
    stages := sl.predicates, named := named, vl := sl.svl, p := true, cvHead := pc, cvPos := 0, leave := 0 }

/-- A counter event may be emitted, and no residency register is live that it could advance (R97). -/
structure Slot.emits (sl : Slot) : Prop where
  unit : sl.tr.vu = true
  thawed : sl.tr.froz = false
  room : sl.queue.length < 64
  none : ∀ q, q < 16 → (sl.reg q).st ≠ .live

/-- The slice with a counter event pushed and its counters at new values. -/
def Slot.emitted (sl : Slot) (ks : Vector (BitVec 32) 6) (e : Entry) : Slot :=
  { sl with k := ks, queue := sl.queue ++ [e], lastCv := some e }

/-- No core traces the slice that acts (R325). -/
def State.untraced (s : State) : Prop := bitAt (s.coreAt (coreOf s.cur)).dbg.trctl 0 = false

/-- The slice `x` after a LOOP of `sl` whose counters it holds: it opens the nest or, with no pass to make, goes past the body
(R95, R98). -/
def loopDone (sl x : Slot) (n l st : Nat) (ts : Nat → Nat) : Slot :=
  let total := (List.range n).foldl (fun acc i => acc * ts i) 1
  let past := sl.pc + 4 + BitVec.ofNat 64 (4 * (l + 1))
  { x.onward with
    pc := if total = 0 then past else sl.pc + 4
    nest := if total = 0 then sl.nest else loopNest sl n l st ts
    c := if total = 0 then sl.c else passConds sl (loopNest sl n l st ts) 0 (vat x.k 0 0)
    jumped := decide (total = 0) && sl.afterBody past }

/-- The slice `x` after the end of a pass of `sl` whose counters it holds: the next pass begins at NBODY, or the nest ends after the
last epilogue pass (R96, R98). -/
def passDone (sl x : Slot) : Slot :=
  let nest := sl.nest
  let p := nest.npass.toNat
  if p + 1 < nest.total + nest.sm1.toNat then
    { x.onward with
      pc := nest.nbody, nest := { nest with npass := BitVec.ofNat 48 (p + 1) }
      c := passConds sl { nest with npass := BitVec.ofNat 48 (p + 1) } (p + 1) (vat x.k 0 0) }
  else
    { x.onward with
      pc := sl.pc, nest := { nest with act := false }
      c := Vector.ofFn fun j => decide (j.val < 8) && vat sl.c j.val false }

/-- k0 to k5 after a pass whose carry reaches counter i (R96). -/
def carried (sl : Slot) (i : Nat) : Vector (BitVec 32) 6 :=
  Vector.ofFn fun j => if j.val < i then 0 else if j.val = i then vat sl.k i 0 + 1 else vat sl.k j.val 0

/-- k0 to k5 after a LOOP of n counters (R95). -/
def zeroedBy (sl : Slot) (n : Nat) : Vector (BitVec 32) 6 := Vector.ofFn fun j => if j.val < n then 0 else vat sl.k j.val 0

/-- The slice of sl has fallen through the end of a live body, outside of which it came to no jump, and the carry of the pass stops at
counter i (R96). -/
structure Slot.endsPass (sl : Slot) (i : Nat) : Prop where
  run : sl.st = .run
  fell : sl.jumped = false
  live : sl.nest.act = true ∧ sl.nest.own = sl.tr.inh
  here : sl.pc = sl.nest.nbody + 4 * BitVec.ofNat 64 (sl.nest.lenm1.toNat + 1)
  inside : i < 6 ∧ i < sl.nest.n.toNat
  carry : ∀ j, j < i → vat sl.k j 0 + 1 = vat sl.nest.trip j 0
  stops : i + 1 = sl.nest.n.toNat ∨ vat sl.k i 0 + 1 ≠ vat sl.nest.trip i 0

/-- A live register that an event advances (R97). -/
def Slot.moves (sl : Slot) (named : BitVec 6) (q : Nat) : Prop := (sl.reg q).st = .live ∧ (sl.reg q).desc.advancedBy named = true

/-- The number of deliveries that a register has been given (R197). -/
def deliveriesOf (r : ResReg) : Nat := match r.gens.getLast? with | some g => g.n + 1 | none => r.created

/-- Deliveries of a register that have not landed (R185). -/
def unlandedOf (r : ResReg) : Nat := (r.gens.filter fun g => !g.landed).length

/-- An event that names some counters has given each live register that it advances its next delivery under the counters ks, caused
at pc, whose bit of LANDED is clear, and no other register has changed (R97, R182). -/
structure Delivered (sl sl' : Slot) (named : BitVec 6) (ks : Vector (BitVec 32) 6) (pc : X64) : Prop where
  others : ∀ q, q < 16 → ¬ sl.moves named q → sl'.reg q = sl.reg q ∧
    ∀ j, j < 4 → sl'.landed.getLsbD (4 * q + j) = sl.landed.getLsbD (4 * q + j)
  advanced : ∀ q, q < 16 → sl.moves named q →
    let x := sl.reg q
    let n := deliveriesOf x
    ∃ g slabs, sl'.reg q = { x with
        gens := x.gens ++ [g], created := if x.created = n then n + 1 else x.created, slabs := slabs } ∧
      g.n = n ∧ g.ks = ks ∧ g.old = x.gens.getLast?.map (·.ks) ∧ g.landed = false ∧ g.causePc = pc ∧
      (x.desc.wme = false → g.gate = true) ∧
      ∀ j, j < 4 → sl'.landed.getLsbD (4 * q + j) =
        (sl.landed.getLsbD (4 * q + j) && !decide (x.created = n ∧ j = n % 4))

/-- An event may be emitted, whatever registers it advances: none of them would hold more unlanded deliveries than its depth (R24,
R185, R256). -/
structure Slot.advances (sl : Slot) (named : BitVec 6) : Prop where
  unit : sl.tr.vu = true
  thawed : sl.tr.froz = false
  room : sl.queue.length < 64
  depth : ∀ q, q < 16 → sl.moves named q → unlandedOf (sl.reg q) < (sl.reg q).desc.depth ∧ (sl.reg q).gens ≠ []

/-- A register that an event would advance has as many unlanded deliveries as its depth (R185). -/
structure Slot.deep (sl : Slot) (named : BitVec 6) : Prop where
  unit : sl.tr.vu = true
  thawed : sl.tr.froz = false
  reached : ∃ q, q < 16 ∧ sl.moves named q ∧ (sl.reg q).desc.depth ≤ unlandedOf (sl.reg q)

/-- The slice stalls with cause 5 before an event (R86, R185). -/
def Slot.depthStall (sl : Slot) (named : BitVec 6) : Slot := { sl with st := .wait, cause := 5, busy := true, phase := .depth named }

/-! ### Traps and control registers (R5, R17 to R23, R77, R101, R251 to R254) -/

/-- The instructions that no body of a live nest may hold (R100). -/
def forbiddenInNest : Instr → Bool
  | .loop .. | .call .. | .jmpRet | .jmpJr .. | .kadv .. | .kset .. => true
  | _ => false

/-- The CSR numbers of registers that hold a PRW or PRO field (R5). -/
def privilegedCsrs : List Nat :=
  [0x020, 0x021, 0x024, 0x030, 0x031, 0x032, 0x038, 0x039, 0x03A, 0x03B, 0x03C, 0x03D, 0x040, 0x050, 0x051, 0x052, 0x053, 0x054,
    0x100, 0x101, 0x111, 0x120, 0x121, 0x122, 0x123, 0x124, 0x125, 0x126, 0x127, 0x129, 0x12A, 0x12B]

/-- The other CSR numbers that the part has. -/
def openCsrs : List Nat :=
  [0x000, 0x001, 0x002, 0x003, 0x004, 0x005, 0x006, 0x010, 0x011, 0x012, 0x013, 0x014, 0x015, 0x016, 0x017, 0x018, 0x019, 0x01A,
    0x01B, 0x01C, 0x01D, 0x01E, 0x01F, 0x022, 0x023, 0x041, 0x128, 0x180, 0x181, 0x182, 0x183]

/-- The CSRW that an instruction is: its register and its CSR number. -/
def csrwOf : Instr → Option (Nat × Nat)
  | .csrw a c => some (a.val, c.toNat)
  | .vlcapWrite a => some (a.val, 0x100)
  | .nestWrite a => some (a.val, 0x030)
  | .femaskWrite a => some (a.val, 0x022)
  | .ctxidWrite a => some (a.val, 0x12A)
  | _ => none

/-- The CSR that an instruction reads or writes. -/
def csrOf (i : Instr) : Option Nat :=
  match i with
  | .csrr _ c => some c.toNat
  | i => (csrwOf i).map (·.2)

/-- The instructions of privileged mode (R5, R74). -/
def privilegedInstr (i : Instr) : Bool :=
  match i with
  | .eret | .vsave .. | .vrest .. | .idle | .tlbi .. | .tlbs | .sweep .. | .relmove .. => true
  | i => (csrOf i).any privilegedCsrs.contains

/-- The word of an instruction, that of the CSRW for the writes with a name of their own. -/
def sliceWord (i : Instr) : Word :=
  match csrwOf i with
  | some (a, c) => BitVec.ofNat 32 (0x7F * 2 ^ 25 + 4 * 2 ^ 21 + a * 2 ^ 11 + c)
  | none => (encode i).headD 0

/-- The trap that the slice raises for a word that decodes to an instruction, in the order of R77. -/
def sliceTrapOf (s : State) (i : Instr) : Option TrapCode :=
  if (csrOf i).any fun c => !privilegedCsrs.contains c && !openCsrs.contains c then some .undefinedInstruction
  else if forbiddenInNest i && s.me.inBody then some .undefinedInstruction
  else if privilegedInstr i && !s.me.tr.priv then some .privilege
  else if i.typeTrap = some .illegalType then some .illegalType
  else if i.typeTrap = some .illegalOperand then some .illegalOperand
  else none

/-- A slice trap waits for the entries before it (R77). -/
structure State.drainsFirst (s : State) : Prop where
  entries : s.me.queue ≠ []
  thawed : s.me.tr.froz = false

/-- The value of a lane-state register (R17, R19, R20, R48, R79, R258). -/
def laneCsr (l : Lane) : Nat → Option X64
  | 0x000 => some (BitVec.ofNat 64 l.msel.toNat)
  | 0x001 => some (BitVec.ofNat 64 l.vl.toNat)
  | 0x002 => some l.vstride
  | 0x003 => some (BitVec.ofNat 64 ((if l.sre then 2 ^ 8 else 0) + l.slices.toNat * 2 ^ 4 + l.rm.code))
  | 0x004 => some (BitVec.ofNat 64 l.vstart.toNat)
  | 0x006 => some l.srseed
  | 0x020 => some (BitVec.ofNat 64 l.vdirty.toNat)
  | 0x021 => some (BitVec.ofNat 64 l.adirty.toNat)
  | 0x022 => some (BitVec.ofNat 64 l.femask.toNat)
  | 0x024 => some (BitVec.ofNat 64 l.vext.toNat)
  | 0x128 => some (BitVec.ofNat 64 l.flags.bits)
  | _ => none

/-- The lanes once a value has been written to a lane-state register; VL and FLAGS keep theirs (R5, R19, R48). -/
def laneCsrSet (l : Lane) (v : X64) : Nat → Option Lane
  | 0x000 => some { l with msel := BitVec.ofNat 3 v.toNat }
  | 0x001 => some l
  | 0x002 => some { l with vstride := v }
  | 0x003 =>
    let slices := v.toNat / 2 ^ 4 % 2 ^ 4
    let rm := v.toNat % 2 ^ 3
    if slices < 3 ∨ 8 < slices ∨ 4 < rm then none
    else some { l with
      sre := decide (v.toNat / 2 ^ 8 % 2 = 1), slices := BitVec.ofNat 4 slices
      rm := if rm = 0 then .rne else if rm = 1 then .rtz else if rm = 2 then .rdn else if rm = 3 then .rup else .rsr }
  | 0x004 => some { l with vstart := BitVec.ofNat 12 v.toNat }
  | 0x006 => some { l with srseed := v }
  | 0x020 => some { l with vdirty := BitVec.ofNat 32 v.toNat }
  | 0x021 => some { l with adirty := BitVec.ofNat 32 v.toNat }
  | 0x022 => some { l with femask := BitVec.ofNat 32 v.toNat }
  | 0x024 => some { l with vext := BitVec.ofNat 6 v.toNat }
  | 0x128 => some l
  | _ => none

/-- A Bool as a bit at a place. -/
def bitOf (b : Bool) (i : Nat) : Nat := if b then 2 ^ i else 0

/-- The value of a register of the slice or the sequencer (R79, R91, R101, R188, R234, R247, R251 to R253, R263); the counts of
lane-cycles are not among them. -/
def sliceCsrValue (s : State) (sl : Slot) (c : Nat) : Option X64 :=
  if 0x010 ≤ c ∧ c < 0x020 then some (vat sl.qdone (c - 0x010) 0)
  else if 0x038 ≤ c ∧ c < 0x03E then some (BitVec.ofNat 64 (vat sl.nest.trip (c - 0x038) 0).toNat)
  else
    match c with
    | 0x005 => some sl.landed
    | 0x023 => some sl.bankstall
    | 0x030 => some (BitVec.ofNat 64 (bitOf sl.nest.act 31 + bitOf sl.nest.own 30 + sl.nest.n.toNat * 2 ^ 16 +
        sl.nest.sm1.toNat * 2 ^ 12 + sl.nest.lenm1.toNat))
    | 0x031 => some sl.nest.nbody
    | 0x032 => some (BitVec.ofNat 64 sl.nest.npass.toNat)
    | 0x040 => some 1
    | 0x041 =>
      let c := s.coreAt (coreOf s.cur)
      some (BitVec.ofNat 64 (c.plim * 2 ^ 16 + sl.share * 2 ^ 8 + c.lanes.countP fun p => p.2 == s.cur % 16))
    | 0x100 => some (BitVec.ofNat 64 sl.cap.toNat)
    | 0x101 => some (sl.ptroot &&& 0xFFFFFFFFFFFF0001#64)
    | 0x111 => some (s.coreAt (coreOf s.cur)).rlate
    | 0x120 => some (BitVec.ofNat 64 (bitOf sl.tr.froz 7 + bitOf sl.tr.vu 6 + bitOf sl.tr.inh 2 + bitOf sl.tr.ppriv 1 +
        bitOf sl.tr.priv 0))
    | 0x121 => some sl.tr.cause
    | 0x122 => some sl.tr.epc
    | 0x123 => some sl.tr.tval
    | 0x124 => some sl.tr.rpc
    | 0x125 => some sl.tr.tvec
    | 0x126 => some sl.tr.tscr0
    | 0x127 => some sl.tr.tscr1
    | 0x129 => some sl.tr.acct
    | 0x12A => some sl.ctxid
    | 0x12B => some sl.tr.cimg
    | 0x180 => some 0
    | 0x181 => some 0x01040205#64
    | 0x182 => some 0
    | 0x183 => some 0
    | _ => none

/-- A value without the bits of a mask. -/
def without (v : X64) (m : X64) : X64 := v &&& ~~~m

/-- The nest registers with a value in NEST (R101). -/
def nestOf (n : Nest) (v : X64) : Nest :=
  { n with
    act := decide (v.toNat / 2 ^ 31 % 2 = 1), own := decide (v.toNat / 2 ^ 30 % 2 = 1)
    n := BitVec.ofNat 3 (v.toNat / 2 ^ 16), sm1 := BitVec.ofNat 2 (v.toNat / 2 ^ 12), lenm1 := BitVec.ofNat 6 v.toNat }

/-- Is NEST with ACT = 1 illegal beside the other nest registers (R101). -/
def nestIllegal (n : Nest) : Bool :=
  n.act && (decide (n.n.toNat = 0 ∨ n.n.toNat = 7 ∨ (n.lenm1.toNat + 1) % (n.sm1.toNat + 1) ≠ 0 ∨ n.total = 0 ∨
    2 ^ 47 < n.total ∨ n.total + n.sm1.toNat ≤ n.npass.toNat))

/-- The slot once a value has been written to a register of the slice; none when the value is illegal. Read-only fields keep
their values (R5, R21, R90, R101, R251 to R253, R263, R357). -/
def sliceCsrSet (sl : Slot) (energy : X64) (v : X64) (c : Nat) : Option (Option Slot) :=
  if 0x010 ≤ c ∧ c < 0x020 then some (some sl)
  else if 0x038 ≤ c ∧ c < 0x03E then
    some (some { sl with nest := { sl.nest with trip := sl.nest.trip.setIfInBounds (c - 0x038) (BitVec.ofNat 32 v.toNat) } })
  else if 0x050 ≤ c ∧ c < 0x055 then some (some { sl with lc := sl.lc.setIfInBounds (c - 0x050) v })
  else
    match c with
    | 0x023 => some (some { sl with bankstall := v })
    | 0x005 | 0x040 | 0x041 | 0x101 | 0x180 | 0x181 | 0x182 | 0x183 => some (some sl)
    | 0x030 =>
      let n := nestOf sl.nest v
      some (if nestIllegal n then none
      else some { sl with
        nest := n
        c := if n.act then passConds sl n n.npass.toNat (vat sl.k 0 0)
          else Vector.ofFn fun j => decide (j.val < 8) && vat sl.c j.val false })
    | 0x031 => some (some { sl with nest := { sl.nest with nbody := without v 3 } })
    | 0x032 => some (some { sl with nest := { sl.nest with npass := BitVec.ofNat 48 v.toNat } })
    | 0x100 =>
      let cap := min (v.toNat % 16) 5
      let most := 512 * 2 ^ cap / (match sl.swidth with | some t => t.setvlBits | none => 8)
      some (some (
        if cap < sl.cap.toNat then
          { sl with
            cap := BitVec.ofNat 4 cap, svl := BitVec.ofNat 13 (min sl.svl.toNat most)
            lane := { sl.lane with vl := BitVec.ofNat 13 (min sl.lane.vl.toNat most) } }
        else { sl with cap := BitVec.ofNat 4 cap }))
    | 0x120 => some (some { sl with tr := { sl.tr with
        vu := decide (v.toNat / 2 ^ 6 % 2 = 1), ppriv := decide (v.toNat / 2 % 2 = 1) } })
    | 0x121 => some (some { sl with tr := { sl.tr with cause := v &&& 0xC0000000000003FF#64 } })
    | 0x122 => some (some { sl with tr := { sl.tr with epc := v } })
    | 0x123 => some (some { sl with tr := { sl.tr with tval := v } })
    | 0x124 => some (some { sl with tr := { sl.tr with rpc := without v 3 } })
    | 0x125 => some (some { sl with tr := { sl.tr with tvec := without v 3 } })
    | 0x126 => some (some { sl with tr := { sl.tr with tscr0 := v } })
    | 0x127 => some (some { sl with tr := { sl.tr with tscr1 := v } })
    | 0x129 => some (some { sl with tr := { sl.tr with acct := v } })
    | 0x12A =>
      let w := v &&& 0x0000FF01FFFFFFFF#64
      some (
        if v.toNat / 2 ^ 40 % 2 ^ 8 = 0 then none
        else if w.setWidth 32 = sl.ctxid.setWidth 32 then some { sl with ctxid := w }
        else some { sl with
          ctxid := w, elast := energy
          tr := if sl.ctxid.getLsbD 32 then { sl.tr with acct := sl.tr.acct + (energy - sl.elast) } else sl.tr })
    | 0x12B => some (some { sl with tr := { sl.tr with cimg := without v 255 } })
    | _ => none

/-! ### Memory at the slice (R221 to R223, R230, R231) -/

/-- The physical address of an access without translation (R234). -/
def physOf (va : X64) : Nat := va.toNat % 2 ^ 52

/-- A word of memory as the scalar agents see it, least significant byte first (R3, R31). -/
def State.seenNat (s : State) (pa : Nat) : Nat → Nat
  | 0 => 0
  | n + 1 => (s.seen pa).toNat + 256 * State.seenNat s (pa + 1) n

/-- A word of memory at its home place (R3). -/
def memNat (m : List Host.Cell) (pa : Nat) : Nat → Nat
  | 0 => 0
  | n + 1 => (Memory.read m pa).toNat + 256 * memNat m (pa + 1) n

/-- Byte j of a number (R3). -/
def byteOf (v j : Nat) : Byte := BitVec.ofNat 8 (v / 256 ^ j)

/-- A number of w bits as a signed or unsigned 64-bit value. -/
def extended (signed : Bool) (w v : Nat) : X64 := if signed then (BitVec.ofNat w v).signExtend 64 else BitVec.ofNat 64 v

/-- The loads of the slice: bytes, sign, destination and address registers (R221). -/
def loadOf : Instr → Option (Nat × Bool × Fin 32 × Fin 32 × Fin 32)
  | .ldsB d a b => some (1, true, d, a, b)
  | .ldsH d a b => some (2, true, d, a, b)
  | .ldsW d a b => some (4, true, d, a, b)
  | .ldsD d a b => some (8, true, d, a, b)
  | .ldsBz d a b => some (1, false, d, a, b)
  | .ldsHz d a b => some (2, false, d, a, b)
  | .ldsWz d a b => some (4, false, d, a, b)
  | _ => none

/-- The stores of the slice (R221). -/
def storeOf : Instr → Option (Nat × Fin 32 × Fin 32 × Fin 32)
  | .stsB d a b => some (1, d, a, b)
  | .stsH d a b => some (2, d, a, b)
  | .stsW d a b => some (4, d, a, b)
  | .stsD d a b => some (8, d, a, b)
  | _ => none

/-- The atomics: destination and address register, type, and the value left in memory for an old value, none when it stays
(R222, R223). -/
def atomicOf : Instr → Option (Fin 32 × Fin 32 × Ty × (Slot → Nat → Option Nat))
  | .amoAdd _ d a b t => some (d, a, t, fun sl old => some ((old + (sl.rx b.val).toNat % 2 ^ t.bits) % 2 ^ t.bits))
  | .amoMin _ d a b t => some (d, a, t, fun sl old =>
      let v := (sl.rx b.val).toNat % 2 ^ t.bits
      some (if intVal t v < intVal t old then v else old))
  | .amoMax _ d a b t => some (d, a, t, fun sl old =>
      let v := (sl.rx b.val).toNat % 2 ^ t.bits
      some (if intVal t old < intVal t v then v else old))
  | .amoAnd _ d a b t => some (d, a, t, fun sl old => some (Nat.land old ((sl.rx b.val).toNat % 2 ^ t.bits)))
  | .amoOr _ d a b t => some (d, a, t, fun sl old => some (Nat.lor old ((sl.rx b.val).toNat % 2 ^ t.bits)))
  | .amoXor _ d a b t => some (d, a, t, fun sl old => some (Nat.xor old ((sl.rx b.val).toNat % 2 ^ t.bits)))
  | .amoSwap _ d a b t => some (d, a, t, fun sl _ => some ((sl.rx b.val).toNat % 2 ^ t.bits))
  | .cas _ d a b t => some (d, a, t, fun sl old =>
      if old = (sl.rx d.val).toNat % 2 ^ t.bits then some ((sl.rx b.val).toNat % 2 ^ t.bits) else none)
  | _ => none

/-- Every writeback of the thread's registers is acknowledged, and no element that has left a set at an event which the lanes have
passed is still to be released (R184, R230). -/
def Slot.written (sl : Slot) : Prop :=
  ∀ q, q < 16 → (sl.reg q).wbs = [] ∧ ∀ g ∈ (sl.reg q).gens.take ((sl.reg q).past + 1), g.released = true

/-- Nothing of the thread's vector accesses and writebacks is left for a release to wait for (R230). -/
structure Slot.performed (sl : Slot) : Prop where
  entries : sl.queue = []
  written : sl.written

/-- At most one data L1 of the part holds a dirty byte of an address, and holds it once (R31). -/
def State.dirtyOnce (s : State) (x : Nat) : Prop :=
  ((List.range 64).map fun c => ((s.coreAt c).l1.filter fun b => b.1 == x).length).sum ≤ 1

/-- A data L1 has room for the line of an address: it holds dirty bytes of that line already, or of fewer than 512 lines (R2,
R31). -/
def Core.hasRoom (c : Core) (a : Nat) : Prop :=
  (∃ b ∈ c.l1, b.1 / 128 = a / 128) ∨ (c.l1.map fun b => b.1 / 128).eraseDups.length < 512

/-- The marker entry of a word at the slice's PC (R231, R257). -/
def markerEntry (sl : Slot) (kind : EntryKind) (w : Word) : Entry :=
  { kind := kind, ins := none, word := w, scalar := 0, pc := sl.pc, stages := sl.predicates, named := 0, vl := sl.svl
    p := true, cvHead := sl.pc, cvPos := 0, leave := 0 }

/-- The slice with a marker pushed. -/
def Slot.marked (sl : Slot) (w : Word) : Slot :=
  { sl with queue := sl.queue ++ [markerEntry sl .marker w], lastCv := some (markerEntry sl .marker w) }

/-- The dirty bytes of core c are in memory, but for those of a drained stack, which stay (R337), and nothing else of memory has
changed (R31, R231). -/
structure WrittenBack (s t : State) (c : Nat) : Prop where
  clean : (t.coreAt c).l1 = (s.coreAt c).l1.filter fun p => s.stackHeld p.1
  others : ∀ j, j ≠ c → (t.coreAt j).l1 = (s.coreAt j).l1
  bytes : ∀ p ∈ (s.coreAt c).l1, s.stackHeld p.1 = false → (∀ q ∈ (s.coreAt c).l1, q.1 = p.1 → q = p) →
    Memory.read t.mem p.1 = p.2
  kept : ∀ a, (∀ p ∈ (s.coreAt c).l1, p.1 = a → s.stackHeld a = true) → Memory.read t.mem a = Memory.read s.mem a

/-- No drained stack keeps a dirty byte of core c from its home slice (R337). -/
def State.flushes (s : State) (c : Nat) : Prop := ∀ b ∈ (s.coreAt c).l1, s.stackHeld b.1 = false

/-! ### Resident access (R203 to R208) and the resident forms of MMA (R161 to R163) -/

/-- The generation of a register that the entry at the head of the queue sees: that of the last counter event which the lanes have
passed (R97). -/
def ResReg.atHead (r : ResReg) : Option Gen := r.gens[r.past]?

/-- The value and scale of the element of register q's current set at some box-relative offsets: FILL outside the tensor,
otherwise what the loft holds; the set is readable (R176, R205, R206). -/
structure ResidentAt (sl : Slot) (q : Nat) (o : List Int) (v scale : Nat) : Prop where
  readable : (sl.reg q).desc.accR = true
  element : ∃ g, (sl.reg q).atHead = some g ∧
    let d := (sl.reg q).desc
    let a := (List.range 6).map fun i => d.lower g.ks i + coordAt o i
    d.inSet g.ks a = true ∧
    (d.isFill a = true → v = d.fillBits ∧ scale = 0x7F) ∧
    (d.isFill a = false → ∃ c, (sl.cellsOf q).find? (fun c => c.co == a.take d.rank) = some c ∧ c.fail = none ∧
      v = c.val.toNat ∧ scale = c.scale.toNat)

/-- The absolute coordinates that a store to box-relative offsets names: a member of a writable set that is no fill element
and has not failed (R186, R206). -/
structure StorableAt (sl : Slot) (q : Nat) (o co : List Int) : Prop where
  writable : (sl.reg q).desc.accW = true
  element : ∃ g, (sl.reg q).atHead = some g ∧
    let d := (sl.reg q).desc
    let a := (List.range 6).map fun i => d.lower g.ks i + coordAt o i
    d.inSet g.ks a = true ∧ d.isFill a = false ∧ co = a.take d.rank ∧
    ∃ c, (sl.cellsOf q).find? (fun c => c.co == co) = some c ∧ c.fail = none

/-- A signed 16-bit field of a packed offset word (R205). -/
def packedAt (w : X64) (i : Nat) : Int := (BitVec.ofNat 16 (w.toNat / 2 ^ (16 * i))).toInt

/-- The offsets of element x of an LDR or STR, or of an LDRX or STRX with its index register (R205). -/
def offsetsOf (n : LEnv) (ix : Option Nat) (x : Nat) : List Int :=
  match ix with
  | none =>
    let str : Int := if n.l.vstride = 0 then 1 else n.l.vstride.toInt
    [packedAt n.x 0 + (x : Int) * str, packedAt n.x 1, packedAt n.x 2, packedAt n.x 3]
  | some b =>
    let w := BitVec.ofNat 64 (n.l.rd b 64 x)
    [packedAt w 0, packedAt w 1, packedAt w 2, packedAt w 3]

/-- The resident instructions: store, data register, residency register, type and index register (R204). -/
def residentOf : Instr → Option (Bool × Fin 32 × Fin 16 × Ty × Option Nat)
  | .ldr d q _ t => some (false, d, q, t, none)
  | .str d q _ t => some (true, d, q, t, none)
  | .ldrx d q b t => some (false, d, q, t, some b.val)
  | .strx d q b t => some (true, d, q, t, some b.val)
  | _ => none

/-- A resident entry may begin: VL fits its registers, the register is one of the launch's, LIVE at the lanes with the type T and
its delivery has landed; the block rule of a scaled type holds (R25, R107, R203, R206). -/
structure ResidentReady (s : State) (k : Nat) (e : Entry) (store : Bool) (q : Nat) (t : Ty) (ix : Option Nat) : Prop where
  count : (s.slot k).lane.vl.toNat ≤ perReg (s.slot k).cap.toNat t.bits
  indexes : ix ≠ none → (s.slot k).lane.vl.toNat ≤ perReg (s.slot k).cap.toNat 64
  owned : q < (s.limits k).2.1
  live : ((s.slot k).reg q).lanesSee = true
  type : ((s.slot k).reg q).desc.rtype = t
  landed : ∀ g, ((s.slot k).reg q).atHead = some g → g.landed = true
  blocks : t.isBlock = true →
    packedAt e.scalar 0 % 16 = 0 ∧ ((s.slot k).lane.vstride = 0 ∨ (s.slot k).lane.vstride = 1) ∧
    (s.slot k).lane.vl.toNat % 16 = 0 ∧
    (store = true → ∀ x y, x < (s.slot k).lane.vl.toNat → y < (s.slot k).lane.vl.toNat → x / 16 = y / 16 →
      (s.slot k).lane.gov x = (s.slot k).lane.gov y)

/-- The end of the element group that VSTART lies in: at 64-bit granularity for an index register (R14). -/
def groupEnd (l : Lane) (w : Nat) : Nat :=
  min l.vl.toNat ((l.vstart.toNat / (512 / w) + 1) * (512 / w))

/-- The element width by which a resident or indexed entry counts its groups. -/
def groupWidth (t : Ty) (ix : Option Nat) : Nat := if ix = none then t.bits else max t.bits 64

/-- Where an entry has come to: VSTART at the group's end, or 0 and the entry retired (R14, R15). -/
def Advanced (s u : State) (k hi : Nat) : Prop :=
  (hi = (s.slot k).lane.vl.toNat → (u.slot k).lane.vstart = 0 ∧ (u.slot k).queue = (s.slot k).queue.tail) ∧
  (hi < (s.slot k).lane.vl.toNat → (u.slot k).lane.vstart.toNat = hi ∧ (u.slot k).queue = (s.slot k).queue)

/-- The 64-bit lanes whose side bytes the write of element x of type t sets: those of its block, or its own (R16). -/
def sideLanes (t : Ty) (x : Nat) : List Nat :=
  if t = .c4 then [x / 16] else if t.isBlock then [2 * (x / 16), 2 * (x / 16) + 1] else [t.bits * x / 64]

/-- The lanes l' hold in register d the active elements of [lo, hi) with values and, for a scaled type, scales; every other
element of d, every other side byte and every other register is as before, and VDIRTY and VEXT follow (R15, R16, R23, R206,
R258). -/
structure LoadedInto (n : LEnv) (l' : Lane) (d : Nat) (t : Ty) (lo hi : Nat) (v scale : Nat → Nat) : Prop where
  active : ∀ x, lo ≤ x → x < hi → n.l.gov x = true → l'.rd d t.bits x = v x % 2 ^ t.bits ∧
    ∀ q ∈ sideLanes t x, l'.side d q = if t.isBlock then scale x else 0
  sides : ∀ q, q < 256 → (∀ x, lo ≤ x → x < hi → n.l.gov x = true → q ∉ sideLanes t x) → l'.side d q = n.l.side d q
  marks : Marks t.bits (fun j p => j = d ∧ lo ≤ p ∧ p < hi ∧ n.l.gov p = true) n.l l'
  elsewhere : ∀ p, (p < lo ∨ hi ≤ p ∨ n.l.gov p = false) → l'.rd d t.bits p = n.l.rd d t.bits p
  registers : ∀ j, j ≠ d → vat l'.v j VReg.reset = vat n.l.v j VReg.reset
  rest : l' = { n.l with v := l'.v, vdirty := l'.vdirty, vext := l'.vext, vstart := l'.vstart }

/-- The last active element of [lo, lo + n) that names some coordinates (R206). -/
def lastAt (gov : Nat → Bool) (co : Nat → List Int) (lo : Nat) (c : List Int) : Nat → Option Nat
  | 0 => none
  | n + 1 => if gov (lo + n) = true ∧ co (lo + n) = c then some (lo + n) else lastAt gov co lo c n

/-- K-block i of a resident form of MMA: B(kk, c) is the element of q's set at offsets (32i + kk, c, 0, 0), with its scale and,
for C4, the codebook of the set (R160, R161). -/
def mmaResidentElem (t : Ty) (m d a i : Nat) (fresh : Bool) (book : Nat) (bv : Nat → Nat → Nat × Nat) : AccRule :=
  { group := 1, limit := fun _ => 0, g := d, w := 32, mode := fun l => l.mode (if t = .c4 then 0 else m)
    elem := fun n e env =>
      let old := if fresh && i == 0 then 0 else n.rdA d 32 e
      let bVal : Nat → FVal := fun kk =>
        let x := bv kk (e % 32)
        if t = .c4 then decodeC4 (vat n.l.b book (Vector.replicate 16 0)) x.2 x.1
        else if t.isF8 then applyScale x.2 (decodeFloat t x.1) else decodeFloat t x.1
      if t.isInt then
        blockInt (m == 1) old (((List.range 32).map fun kk =>
          intVal t (n.l.rd (a + i) t.bits (32 * (e / 32) + kk)) * intVal t (bv kk (e % 32)).1).sum) env
      else
        blockFloat old (sumProducts (decide (env.mode = .rdn)) ((List.range 32).map fun kk =>
          mulExact (n.l.val t (2 * m) (a + i) (32 * (e / 32) + kk)) (bVal kk))) env }

/-- Every form of MMA: type, group, the number of k-blocks, and q of a resident form (R157, R163). -/
def mmaFormOf (i : Instr) : Option (Ty × Nat × Nat × Option Nat) :=
  match i with
  | .mmaAccRegister d _ _ t _ g => some (t, d.val, 2 ^ g.val, none)
  | .mmaZeroRegister d _ _ t _ g => some (t, d.val, 2 ^ g.val, none)
  | .mmaAccResident d _ q t _ g => some (t, d.val, 2 ^ g.val, some q.val)
  | .mmaZeroResident d _ q t _ g => some (t, d.val, 2 ^ g.val, some q.val)
  | _ => none

/-- An MMA of type t into group d is an illegal operand: VL is no multiple of 32 or above one register's elements, the launch has no
such group or no such register, a register form finds fewer than 1,024 elements in a register, or a resident form another type (R107,
R163, R278). -/
def mmaRefused (s : State) (k : Nat) (e : Entry) (t : Ty) (d : Nat) (q : Option Nat) : Prop :=
  let vl := (s.slot k).lane.vl.toNat
  let most := perReg (s.slot k).cap.toNat t.bits
  vl % 32 ≠ 0 ∨ most < vl ∨ (s.lenv k e).agrp ≤ d ∨
    match q with
    | none => most < 1024
    | some q => (s.limits k).2.1 ≤ q ∨ ((s.slot k).reg q).lanesSee = true ∧ ((s.slot k).reg q).desc.rtype ≠ t

/-- The resident forms of MMA: type, group, codebook or rounding, A, q, the number of k-blocks, ZERO. -/
def mmaResidentOf : Instr → Option (Ty × Nat × Nat × Nat × Nat × Nat × Bool)
  | .mmaAccResident d a q t m g => some (t, d.val, m.val, a.val, q.val, 2 ^ g.val, false)
  | .mmaZeroResident d a q t m g => some (t, d.val, m.val, a.val, q.val, 2 ^ g.val, true)
  | _ => none

/-! ### Far access (R178, R209 to R213, R218 to R220) -/

/-- The address of element x of an unscaled far entry: by VSTRIDE, or by element x of the index register (R210). -/
def elementAddr (n : LEnv) (w : Nat) (ix : Option Nat) (base : X64) (x : Nat) : X64 :=
  match ix with
  | some b => base + BitVec.ofNat 64 (n.l.rd b 64 x)
  | none => base + BitVec.ofNat 64 x * (if n.l.vstride = 0 then BitVec.ofNat 64 (w / 8) else n.l.vstride)

/-- The byte of a scaled region that holds the element at an offset (R178). -/
def scaledByte (t : Ty) (base : X64) (x : Nat) : X64 :=
  if t = .c4 then base + BitVec.ofNat 64 (144 * (x / 256) + x % 256 / 2) else base + BitVec.ofNat 64 (272 * (x / 256) + x % 256)
/-- The scale byte of the element at an offset of a scaled region (R178). -/
def scaleByte (t : Ty) (base : X64) (x : Nat) : X64 :=
  if t = .c4 then base + BitVec.ofNat 64 (144 * (x / 256) + 128 + x % 256 / 16)
  else base + BitVec.ofNat 64 (272 * (x / 256) + 256 + x % 256 / 16)

/-- The runs of bytes that element x, or for a scaled type its block, has in memory: address and length (R178, R210). -/
def runsOf (n : LEnv) (t : Ty) (ix : Option Nat) (base : X64) (x : Nat) : List (X64 × Nat) :=
  if t.isBlock then [(scaledByte t base (x / 16 * 16), 2 * t.bits), (scaleByte t base x, 1)]
  else [(elementAddr n t.bits ix base x, t.bits / 8)]

/-- A run of bytes may be accessed: its address is implemented, aligned for an unscaled element, and HBM is there (R210, R240). -/
def runOk (t : Ty) (r : X64 × Nat) : Prop :=
  r.1.toNat < 2 ^ 57 ∧ (t.isBlock = false → r.1.toNat % r.2 = 0) ∧ physOf r.1 + r.2 ≤ hbmBytes

/-- What element x reads as in memory: its bytes, or its byte or nibble of the scaled region (R178). -/
def valueIn (m : List Host.Cell) (n : LEnv) (t : Ty) (ix : Option Nat) (x : Nat) : Nat :=
  if t = .c4 then (Memory.read m (physOf (scaledByte t n.x (x / 16 * 16)) + x % 16 / 2)).toNat / 16 ^ (x % 2) % 16
  else if t.isBlock then (Memory.read m (physOf (scaledByte t n.x (x / 16 * 16)) + x % 16)).toNat
  else memNat m (physOf (elementAddr n t.bits ix n.x x)) (t.bits / 8)

/-- The bytes that element x stores, in order: its own, or those of its block when it is the block's first element (R178,
R210). -/
def bytesOf (n : LEnv) (d : Nat) (t : Ty) (ix : Option Nat) (base : X64) (x : Nat) : List (Nat × Byte) :=
  if t.isBlock then
    if x % 16 = 0 then
      ((List.range (2 * t.bits)).map fun j => (physOf (scaledByte t base x) + j, byteOf (n.l.rd d (16 * t.bits) (x / 16)) j)) ++
        [(physOf (scaleByte t base x), BitVec.ofNat 8 (n.l.scaleOf t d x))]
    else []
  else (List.range (t.bits / 8)).map fun j => (physOf (elementAddr n t.bits ix base x) + j, byteOf (n.l.rd d t.bits x) j)

/-- The active elements of [lo, hi), in order. -/
def activesIn (n : LEnv) (lo hi : Nat) : List Nat := (List.range' lo (hi - lo)).filter n.l.gov

/-- Memory is as before but for a list of stored bytes, of which the last at an address remains. -/
def StoredBytes (s u : State) (l : List (Nat × Byte)) : Prop :=
  ∀ a, Memory.read u.mem a = ((l.reverse.find? fun p => p.1 == a).map (·.2)).getD (Memory.read s.mem a)

/-- The far loads: destination, type, index register (R209). -/
def farLoadOf : Instr → Option (Fin 32 × Ty × Option Nat)
  | .ldf _ d _ _ t _ _ _ => some (d, t, none)
  | .ldfx _ d _ b t _ _ _ => some (d, t, some b.val)
  | _ => none

/-- The far stores: source, type, index register, .RL (R209). -/
def farStoreOf : Instr → Option (Fin 32 × Ty × Option Nat × Bool)
  | .stf _ d _ _ t ord _ _ => some (d, t, none, ord)
  | .stfx _ d _ b t ord _ _ => some (d, t, some b.val, ord)
  | _ => none

/-- Nothing is owed to memory that a FENCE.VV which the lanes have passed orders before the far accesses behind it (R231). -/
def Slot.fenced (sl : Slot) : Prop :=
  ∀ q, q < 16 → (∀ w ∈ (sl.reg q).wbs, sl.fences ≤ w.epoch) ∧
    ∀ g ∈ (sl.reg q).gens.take ((sl.reg q).past + 1), g.released = true ∨ sl.fences ≤ g.epoch

/-- A far entry may begin: memory is settled and addressed directly, VL fits, a scaled region is whole and aligned, and nothing is owed
to memory that a FENCE.VV before the entry orders before it (R203, R210, R231). -/
structure FarReady (s : State) (k : Nat) (n : LEnv) (t : Ty) (ix : Option Nat) (store : Bool) : Prop where
  direct : s.direct k
  plain : s.plain
  count : n.l.vl.toNat ≤ perReg n.cap t.bits
  indexes : ix ≠ none → n.l.vl.toNat ≤ perReg n.cap 64
  fenced : (s.slot k).fenced
  blocks : t.isBlock = true → n.l.vstride = 0 ∧ n.l.vl.toNat % 16 = 0 ∧
    (store = true → ∀ x y, x < n.l.vl.toNat → y < n.l.vl.toNat → x / 16 = y / 16 → n.l.gov x = n.l.gov y)

/-- Of slot k only its lanes, its queue and the queue's convoy have changed, of the cores only the turn, the lane allocation table
and the network port, and of memory what is said beside this. -/
structure FarFrame (s u : State) (k : Nat) : Prop where
  slot : u.slot k = { s.slot k with
    lane := (u.slot k).lane, queue := (u.slot k).queue, lastCv := (u.slot k).lastCv, cvVl := (u.slot k).cvVl }
  others : s.sameSlotsBut u k
  cores : ∀ c, u.coreAt c = { s.coreAt c with rr := (u.coreAt c).rr, lanes := (u.coreAt c).lanes, pieces := (u.coreAt c).pieces }
  rest : u = { s with slots := u.slots, cores := u.cores, mem := u.mem }

/-- A far entry has come to the end of a group, or has retired. -/
def FarAdvanced (s u : State) (k hi : Nat) : Prop :=
  (hi = (s.slot k).lane.vl.toNat → (u.slot k).lane.vstart = 0 ∧ (u.slot k).queue = (s.slot k).queue.tail) ∧
  (hi < (s.slot k).lane.vl.toNat → (u.slot k).lane.vstart.toNat = hi ∧ (u.slot k).queue.tail = (s.slot k).queue.tail ∧
    ((u.slot k).queue.head?.map (·.ins)) = ((s.slot k).queue.head?.map (·.ins)))

/-- One addition of SCADD (R219). -/
def scaddSum (flt : Bool) (t : Ty) (env : REnv) (x y : Nat) : Nat × REnv :=
  if flt then roundedOnce t env (faddRule 7 (decide (env.mode = .rdn)) (decodeFloat t x) (decodeFloat t y) .nan)
  else ((x + y) % 2 ^ t.bits, env)

/-- The combining network: one sum for each address, in the order of A (R220). -/
def scaddCombined (flt : Bool) (t : Ty) (els : List (X64 × Nat)) : REnv → List X64 → List (X64 × Nat) × REnv
  | env, [] => ([], env)
  | env, p :: rest =>
    let vs := (els.filter fun x => x.1 == p).map (·.2)
    let r := vs.tail.foldl (fun (acc : Nat × REnv) v => scaddSum flt t acc.2 acc.1 v) (vs.headD 0, env)
    let more := scaddCombined flt t els r.2 rest
    ((p, r.1) :: more.1, more.2)

/-- Store a number of n bytes. -/
def storeNat (m : List Host.Cell) (pa n v : Nat) : List Host.Cell :=
  (List.range n).foldl (fun m j => Memory.write m (pa + j) (byteOf v j)) m

/-- The updates of memory, in the order of A (R220). -/
def scaddUpdated (flt : Bool) (t : Ty) : REnv → List Host.Cell → List (X64 × Nat) → List Host.Cell × REnv
  | env, m, [] => (m, env)
  | env, m, (p, v) :: rest =>
    let r := scaddSum flt t env (memNat m (physOf p) (t.bits / 8)) v
    scaddUpdated flt t r.2 (storeNat m (physOf p) (t.bits / 8) r.1) rest

/-- SCADD: values, index register, type, FLT (R219). -/
def scaddOf : Instr → Option (Fin 32 × Fin 32 × Ty × Bool)
  | .scaddInt _ d _ b t => some (d, b, t, false)
  | .scaddFlt _ d _ b t => some (d, b, t, true)
  | _ => none

/-! ### Residency registers (R171 to R202) -/

/-- The registers may be set up and dropped: vector state, an unfrozen queue with room, and q is one of the launch's (R24,
R256, R258, R276). -/
structure State.setsUp (s : State) (q : Nat) : Prop where
  acts : s.acts
  pushes : s.pushes
  owned : q < (s.limits s.cur).2.1

/-- The 128 bytes of a descriptor as QSET reads them (R171, R194). -/
def descriptorAt (s : State) (va : X64) : Desc := Desc.parse ((List.range 128).map fun j => s.seen (physOf va + j))

/-- LANDED with the four bits of register q clear (R182, R193). -/
def landedWithout (x : X64) (q : Nat) : X64 := x &&& ~~~(0xF#64 <<< (4 * q))

/-- The qMarker entry of a word. -/
def Slot.qMarked (sl : Slot) (w : Word) : Slot :=
  { sl with queue := sl.queue ++ [markerEntry sl .qMarker w], lastCv := some (markerEntry sl .qMarker w) }

/-- The sequencer may issue fills and watermark reads for slot k: outside a halt, and in one while the slot is not stopped or its
convoy drains (R322 to R324; log 101). -/
def State.fills (s : State) (k : Nat) : Prop :=
  s.halted = false ∨ (s.slot k).st ≠ .stop ∨ (s.slot k).stopping = true

/-- Register q of slot k has one delivery left, which may land: it is created, past its gate, and nothing of the thread is still
to be written back or to be passed by the lanes (R182, R184, R185). -/
structure LandsNext (s : State) (k q : Nat) (g : Gen) : Prop where
  direct : s.direct k
  plain : s.plain
  state : ((s.slot k).reg q).st = .live ∧ (s.slot k).cst ≠ .faulted
  runs : s.fills k
  only : ((s.slot k).reg q).gens = [g] ∧ ((s.slot k).reg q).past = 0 ∧ ((s.slot k).reg q).cells = [] ∧
    ((s.slot k).reg q).paired = false
  fresh : g.landed = false ∧ g.old = none ∧ g.gate = true ∧ g.gateFail = none ∧ g.released = true
  created : g.n < ((s.slot k).reg q).created ∧ ((s.slot k).reg q).created = g.n + 1
  written : (s.slot k).written
  entries : (s.slot k).queue = []

/-- The instruction takes a trap as `trapsHere` says, after reads of the scalar agent whose pieces may have reached the core's port
(R264). -/
def trapsAsking (i : Instr) (s : State) (code : TrapCode) (kind : Nat) (val : X64) : Prop :=
  ∃ t, exec i s = .next t ∧ t = { s.setMe (s.me.trapped code kind val s.me.pc) with cores := t.cores } ∧
    ∀ c, t.coreAt c = { s.coreAt c with pieces := (t.coreAt c).pieces }

/-- A plain, unindexed set that holds the stored type (R177, R180). -/
structure Desc.plainSet (d : Desc) : Prop where
  format : d.mfc = 0
  unindexed : d.ixd = 7
  same : d.rtype = d.stored
  integer : d.rtype.isUnscaled = true

/-- Where element a of a plain set lies: BASE + offset × element size (R177). -/
def elementOf (d : Desc) (a : List Int) : X64 := d.base + BitVec.ofInt 64 (d.offset a * (d.stored.bits / 8 : Nat))

/-- An element of a plain set is a whole, aligned word of HBM. -/
def elementOk (d : Desc) (a : List Int) : Prop :=
  (elementOf d a).toNat % (d.stored.bits / 8) = 0 ∧ (elementOf d a).toNat < 2 ^ 57 ∧
    physOf (elementOf d a) + d.stored.bits / 8 ≤ hbmBytes

/-- STATUS of QSTAT (R197). -/
def statusOf (r : ResReg) : Nat :=
  if r.st = .retired then 0
  else
    let waiting := (r.gens.find? fun g => !g.landed).any fun g => !g.gate
    (r.slabs % 256) * 2 ^ 16 + ((r.gens.filter fun g => !g.landed && decide (g.n < r.created)).length % 16) * 2 ^ 8 +
      bitOf waiting 5 + bitOf r.paired 4 + (r.desc.depth - 1) * 2 ^ 2 + (if r.st = .live then 1 else 2)

/-- The value of a QSTAT (R197). -/
def qstatOf (r : ResReg) (sel : Nat) : X64 :=
  if sel = 0 then BitVec.ofNat 64 (statusOf r)
  else if r.st = .retired then 0
  else if sel = 1 then BitVec.ofNat 64 (deliveriesOf r)
  else if sel = 2 then BitVec.ofNat 64 r.ringBytes
  else r.desc.base

/-! ### Groups (R281 to R296) -/

/-- Of the contexts only group j of context n has changed. -/
structure OnlyGroup (s t : State) (n j : Nat) : Prop where
  groups : ∀ m i, m ≠ n ∨ i ≠ j → t.groupAt m i = s.groupAt m i
  records : ∀ m c, t.ctxOf (some m) = some c → ∃ c', s.ctxOf (some m) = some c' ∧ c = { c' with groups := c.groups }

/-- The acting thread names a barrier of its group area: its word holds the offset and the parity (R292, R295). -/
structure State.atBarrier (s : State) (x : X64) (off : Nat) (p : Bool) (n : Nat) (g : Group) : Prop where
  acts : s.acts
  word : x.toNat = off + bitOf p 0 ∧ off % 16 = 0 ∧ off < 2 ^ 32
  bound : s.me.ctx = some n ∧ s.groupAt n s.me.group = some g
  inside : ∃ c, s.ctxOf (some n) = some c ∧ off + 16 ≤ c.loftg
  sound : off ∉ g.badBars

/-- The barrier at an offset of a group area: all zero until BAR.INIT (R285, R292). -/
def Group.barAt (g : Group) (off : Nat) : Barrier := alookup { count := 0, expect := 0, phase := false } g.bars off

/-- The barrier once one more thread has arrived: COUNT one more, or 0 and the other phase when that is EXPECT (R293, R296). -/
def arrived (b : Barrier) : Barrier :=
  if b.count + 1 = b.expect then { b with count := 0, phase := !b.phase } else { b with count := b.count + 1 }

/-- The slice has released and gone on, and the barrier at an offset is b; no other barrier has changed. -/
structure BarrierSet (s t : State) (n : Nat) (g : Group) (off : Nat) (b : Barrier) : Prop where
  slice : t.me = s.me.onward ∧ s.sameSlotsBut t s.cur
  here : ∃ bars, t.groupAt n s.me.group = some { g with bars := bars } ∧
    ∀ o, ({ g with bars := bars } : Group).barAt o = if o = off then b else g.barAt o
  there : OnlyGroup s t n s.me.group
  release : WrittenBack s t (coreOf s.cur)
  rest : t = { s with slots := t.slots, ctxs := t.ctxs, cores := t.cores, mem := t.mem }

/-- Something that a release of the thread covers has not performed: an entry of its queue, a writeback, of which a handler does not
wait for what completed LINK-INCOMPLETE, or elements that are still to be released (R184, R186, R230, R310). -/
def Slot.owesRelease (sl : Slot) : Prop :=
  sl.queue ≠ [] ∨ ∃ q, q < 16 ∧
    ((∃ w ∈ (sl.reg q).wbs, sl.tr.inh = false ∨ w.elems ≠ [] ∨ w.hard = true) ∨
      ∃ g ∈ (sl.reg q).gens.take ((sl.reg q).past + 1), g.released = false)

/-- The operand word of a BAR instruction is illegal: reserved bits are set, or the barrier lies beyond the LOFTG bytes of the group
area (R295). -/
def State.barrierIllegal (s : State) (x : X64) : Prop :=
  x.toNat / 2 ^ 32 ≠ 0 ∨ x.toNat / 2 % 8 ≠ 0 ∨
    ∃ n c, s.me.ctx = some n ∧ s.ctxOf (some n) = some c ∧ c.loftg < x.toNat / 16 * 16 + 16

/-- The function to which the vectors of queue n belong: virtual function f as f + 1, the physical one as 0 (R332, R333; log 102). -/
def functionOf (s : State) (n : Nat) : Nat :=
  let o := (vat s.svc.qown n 0).toNat
  if 128 ≤ o then o % 64 + 1 else 0

/-- The address of ring index i of a hardware queue (R266). -/
def ringAddr (q : Hq) (i : BitVec 32) : X64 :=
  BitVec.ofNat 64 (q.base.toNat / 2 ^ 12 % 2 ^ 45 * 2 ^ 12 + 64 * (i.toNat % (64 * 2 ^ (q.base.toNat % 16))))

/-- The acting thread can launch on queue n from an address (R283). -/
structure State.launches (s : State) (va : X64) (n : Nat) : Prop where
  acts : s.acts
  source : s.reaches s.cur va 64
  plain : s.plain
  done : s.me.performed
  queue : n < 64 ∧ (s.hqAt n).st ≠ .disabled ∧ (s.hqAt n).root.toNat / 2 ^ 52 = s.me.ptroot.toNat / 2 ^ 52
  room : ((s.hqAt n).tail - (s.hqAt n).head).toNat < 64 * 2 ^ ((s.hqAt n).base.toNat % 16)
  ring : bitAt (s.hqAt n).root 0 = false ∧ (ringAddr (s.hqAt n) (s.hqAt n).tail).toNat < 2 ^ 57 ∧
    physOf (ringAddr (s.hqAt n) (s.hqAt n).tail) + 64 ≤ hbmBytes

/-- The acting thread of a group pushes to its thread p, which is bound to slot j (R289). -/
structure State.pushesTo (s : State) (p j : Nat) (g : Group) : Prop where
  acts : s.acts
  vector : s.me.tr.vu = true ∧ s.me.tr.froz = false ∧ s.me.queue = []
  group : ∃ n, s.me.ctx = some n ∧ s.groupAt n s.me.group = some g
  other : p ≠ s.me.f0 ∧ j ≠ s.cur
  peer : g.slots.getD p none = some j ∧ g.ended.getD p true = false ∧ (s.slot j).tr.vu = true ∧ (s.slot j).cst ≠ .faulted ∧
    (s.slot j).st ≠ .vacant
  alone : ∀ o ∈ s.slots, o.2.f0 < s.me.f0 → ∀ p' d' n', o.2.phase ≠ .peer p' d' n'

/-- The lanes of the peer after a push of n registers from b to d (R289). -/
structure Pushed (own old new : Lane) (cap d b n : Nat) : Prop where
  data : ∀ i x, i < 32 → x < 16384 → (vat new.v i VReg.reset).data.getLsbD x =
    if d ≤ i ∧ i < d + n ∧ x < 512 * 2 ^ cap then (vat own.v (b + (i - d)) VReg.reset).data.getLsbD x
    else (vat old.v i VReg.reset).data.getLsbD x
  side : ∀ i, i < 32 → (vat new.v i VReg.reset).side =
    if d ≤ i ∧ i < d + n then (vat own.v (b + (i - d)) VReg.reset).side else (vat old.v i VReg.reset).side
  masks : ∀ i, i < 32 → new.femask.getLsbD i = (old.femask.getLsbD i && !(decide (d ≤ i) && decide (i < d + n))) ∧
    new.vdirty.getLsbD i = (old.vdirty.getLsbD i || (decide (d ≤ i) && decide (i < d + n)))
  rest : new = { old with
    v := new.v, femask := new.femask, vdirty := new.vdirty, vext := BitVec.ofNat 6 (2 ^ cap) }

/-! ### Invalidates, moves and sweeps (R242 to R249) -/

/-- A TLB entry that an invalidate must drop: of its address space, and of its page, or of the span or 512 MiB leaf that
contains it, or any (R237, R239, R249). -/
def dropsEntry (t : Tlbi) (e : TlbEnt) : Prop :=
  e.asid = t.asid ∧ ∀ p, t.page = some p →
    e.vpage = p ∨ (e.level = 2 ∧ e.vpage / 2 ^ 13 = p / 2 ^ 13) ∨
    (bitAt e.pte 9 = true ∧ fld e.pte 12 2 < 2 ∧
      if e.level = 2 then e.vpage / 2 ^ 19 = p / 2 ^ 19 else e.vpage / 2 ^ 5 = p / 2 ^ 5)

/-- The thread that runs on slot k: its launch, group and f0; outside any launch its slot (R29, R249). -/
def threadIdOf (s : State) (k : Nat) : ThreadId :=
  { ctx := (s.slot k).ctx, group := if (s.slot k).ctx = none then k else (s.slot k).group, f0 := (s.slot k).f0 }

/-- STATUS := v and FVA := fva in a descriptor reach the two words at pd: they are translated as they then stand, and lie in
HBM on no moving page (R246, R269). -/
structure State.reportsTo (s : State) (root desc : X64) (v pd : Nat) : Prop where
  first : s.translate 64 root true .write 8 (desc + 0x10) = .ok (s, .ok (.loc pd) (desc + 0x10) 0 none)
  second : let t := { s with mem := storeNat s.mem pd 8 v }
    t.translate 64 root true .write 8 (desc + 0x18) = .ok (t, .ok (.loc (pd + 8)) (desc + 0x18) 0 none)
  inside : pd % 8 = 0 ∧ pd + 16 ≤ hbmBytes
  still : ∀ f ∈ s.fwds, f.old ≠ pd / 65536 ∧ f.old ≠ (pd + 8) / 65536
  drained : s.svc.offParts = []
  caches : ∀ c, (s.coreAt c).l1 = []

/-- Memory once STATUS and FVA are written (R246). -/
def reported (m : List Host.Cell) (pd res count : Nat) (fva : X64) : List Host.Cell :=
  storeNat (storeNat m pd 8 (count % 2 ^ 40 * 2 ^ 24 + res)) (pd + 8) 8 fva.toNat

/-- The privileged acting thread reads the descriptor at pd: its first two words (R246). -/
structure State.readsDesc (s : State) (desc : X64) (pd : Nat) (w0 w1 : X64) : Prop where
  acts : s.acts
  priv : s.me.tr.priv = true
  inPart : s.cur < 1024
  plain : s.plain
  reqs : s.reqs = []
  read : s.translate (coreOf s.cur) s.me.ptroot true .read 8 desc = .ok (s, .ok (.loc pd) desc 0 none)
  inside : pd + 32 ≤ hbmBytes
  words : memNat s.mem pd 8 = w0.toNat ∧ memNat s.mem (pd + 8) 8 = w1.toNat

/-- The forwarding of page i of a move from src to dst by operation op: both are 64 KiB leaves, the source MOV, MST 00, not
executable, not poisoned, the destination writable, MST 00, local and not poisoned (R247). -/
def movesPage (s : State) (root src dst : X64) (op i : Nat) (f : Fwd) : Prop :=
  ∃ pe ea de da,
    s.pageLeaf root (src + BitVec.ofNat 64 (i * 65536)) = .ok (some (pe, ea)) ∧
    s.pageLeaf root (dst + BitVec.ofNat 64 (i * 65536)) = .ok (some (de, da)) ∧
    bitAt pe 7 = true ∧ fld pe 12 2 = 0 ∧ bitAt pe 4 = false ∧ bitAt pe 8 = false ∧ fld pe 16 36 * 65536 + 65535 < hbmBytes ∧
    bitAt de 3 = true ∧ fld de 12 2 = 0 ∧ bitAt de 57 = false ∧ bitAt de 8 = false ∧ fld de 16 36 * 65536 + 65535 < hbmBytes ∧
    f = { old := fld pe 16 36, new := fld de 16 36, upto := 0, ahead := [], op := op, page := i, ea := ea
          pte := BitVec.ofNat 64 (pe.toNat + 2 ^ 12) }

/-- The mark that replaces the entry of a page that has moved to a virtual address: V, LEAF, MST 10, NVA and MCLS (R235). -/
def markEntry (nva : X64) (mcls : Nat) : Nat := mcls % 2 ^ 7 * 2 ^ 57 + nva.toNat / 2 ^ 16 % 2 ^ 41 * 2 ^ 16 + 2 ^ 13 + 3

/-- The word at a virtual address of a sweep is read and written at a place of HBM that has not moved (R248). -/
structure State.sweepsAt (s : State) (op : Nat) (root desc p stop : X64) (cls count : Nat) (again : Bool) (pa : Nat) : Prop where
  place : op < 4 ∧ vat s.drover op none = some (.sweep root desc p stop cls count again)
  more : p ≠ stop
  plain : s.plain
  reqs : s.reqs = []
  read : s.translate 64 root true .read 8 p = .ok (s, .ok (.loc pa) p 0 none)
  write : s.translate 64 root true .write 8 p = .ok (s, .ok (.loc pa) p 0 none)
  inside : pa % 8 = 0 ∧ pa + 8 ≤ hbmBytes

/-- One hop through a mark (R243). -/
def hopped (e w : X64) : X64 :=
  w + BitVec.ofNat 64 (e.toNat / 2 ^ 16 % 2 ^ 41 * 2 ^ 16) - BitVec.ofNat 64 (w.toNat / 2 ^ 16 * 2 ^ 16)

/-! ### The save image and pre-emption (R255 to R262) -/

/-- The kind code of a queue record (R257). -/
def kindCode : EntryKind → Nat
  | .instr => 0
  | .counter => 1
  | .qMarker => 2
  | .marker => 3

/-- The record of a live register in an image: its descriptor, STATE, the number h and the counters of the generation that the head
entry sees (the first that no counter event ahead of the head has passed), and its codebook (R200, R257). -/
def recordFields (sl : Slot) (q : Nat) : List (Nat × Nat × Nat) :=
  let r := sl.reg q
  let o := 0x1200 + 256 * q
  let ks := match r.atHead with | some g => g.ks | none => sl.k
  let book :=
    if r.lanesSee = false ∧ r.desc.mfc = 2 ∧ r.desc.rtype ≠ .c4 then vat sl.lane.b r.desc.marg (Vector.replicate 16 0) else r.book
  [(o, 128, ofBytes r.desc.bytes), (o + 0x80, 8, 1), (o + 0x88, 8, match r.atHead with | some g => g.n | none => 0)] ++
    ((List.range 6).map fun i => (o + 0x90 + 4 * i, 4, (vat ks i 0).toNat)) ++
    ((List.range 16).map fun j => (o + 0xA8 + 2 * j, 2, (vat book j 0).toNat)) ++ [(o + 0xC8, 56, 0)]

/-- Has the VL of entry n been set by an entry of the queue: a SETVL at or before it (R26, R90). -/
def vlSetBy (es : List Entry) (n : Nat) : Bool :=
  (es.take (n + 1)).any fun e => e.p && match e.ins with | some (.setvl ..) => true | _ => false

/-- Every write that the registers of a thread owe memory, their tensors plain: the bytes of unacknowledged writebacks and the dirty
elements (R184, R260). -/
def owedBy (sl : Slot) : List (Nat × List Byte) :=
  (List.range 16).flatMap fun q =>
    (sl.reg q).wbs.flatMap (fun w => (w.lost ++ w.elems).flatten) ++ ((sl.reg q).cells.filter fun c => c.dirty && c.fail.isNone).map fun c =>
      ((elementOf (sl.reg q).desc c.co).toNat, toBytes ((sl.reg q).desc.stored.bits / 8) c.val.toNat)

/-- What the registers owe may be written: plain tensors, bytes in HBM, no two writes of one byte and none in the image at pa
(R178, R257, R260). -/
structure Slot.paysAt (sl : Slot) (pa : Nat) : Prop where
  plain : ∀ q, q < 16 → (∃ c ∈ (sl.reg q).cells, c.dirty = true ∧ c.fail = none) → (sl.reg q).desc.plainSet
  inside : ∀ p ∈ owedBy sl, p.2 ≠ [] ∧ p.1 < 2 ^ 57 ∧ p.1 % 2 ^ 52 + p.2.length ≤ hbmBytes
  apart : (owedBy sl).Pairwise fun x y => x.1 % 2 ^ 52 + x.2.length ≤ y.1 % 2 ^ 52 ∨ y.1 % 2 ^ 52 + y.2.length ≤ x.1 % 2 ^ 52
  clear : ∀ p ∈ owedBy sl, p.1 % 2 ^ 52 + p.2.length ≤ pa ∨ pa + 610304 ≤ p.1 % 2 ^ 52

/-- What VSAVE writes of a slot, in an image whose HOLD word was `hold`: offset, bytes and number (R257, R260). -/
def imageFields (sl : Slot) (hold : Nat) : List (Nat × Nat × Nat) :=
  let l := sl.lane
  let reach := l.vext.toNat
  let width := match sl.swidth with | some t => t.code.val | none => 0
  [(0x00, 8, 1 + sl.cap.toNat * 2 ^ 16),
    (0x08, 8, Nat.lor (hold % 2 ^ 32) l.vdirty.toNat + Nat.lor (hold / 2 ^ 32) l.adirty.toNat * 2 ^ 32),
    (0x10, 8, l.vl.toNat), (0x18, 8, bitOf l.sre 8 + l.slices.toNat * 2 ^ 4 + l.rm.code), (0x20, 8, l.vstart.toNat),
    (0x28, 8, l.msel.toNat), (0x30, 8, l.vstride.toNat), (0x38, 8, l.srseed.toNat), (0x40, 8, l.femask.toNat),
    (0x48, 8, l.flags.bits), (0x50, 8, sl.svl.toNat + width * 2 ^ 16), (0x58, 8, sl.queue.length),
    (0x60, 8, ((List.range 16).map fun q => bitOf (decide ((sl.reg q).st = .live)) q).sum)] ++
  ((List.range 8).flatMap fun i => (List.range 16).map fun j =>
    (0x100 + 32 * i + 2 * j, 2, (vat (vat l.b i (Vector.replicate 16 0)) j 0).toNat)) ++
  ((List.range 8).map fun i => (0x200 + 512 * i, 512, (vat l.m i 0).toNat)) ++
  (((List.range 16).filter fun q => decide ((sl.reg q).st = .live)).flatMap (recordFields sl)) ++
  (sl.queue.zipIdx.flatMap fun p =>
    let e := p.1
    let o := 0x2200 + 32 * p.2
    [(o, 8, e.word.toNat + e.stages.toNat * 2 ^ 32 + kindCode e.kind * 2 ^ 36 + e.named.toNat * 2 ^ 38 +
        (if vlSetBy sl.queue p.2 then e.vl else l.vl).toNat * 2 ^ 44 + bitOf (e.p || decide (e.kind ≠ .instr)) 57),
      (o + 8, 8, e.pc.toNat), (o + 16, 8, e.scalar.toNat), (o + 24, 8, if p.2 = 0 then l.vstart.toNat else 0)]) ++
  (((List.range 32).filter fun i => l.vdirty.getLsbD i).flatMap fun i =>
    [(0x3000 + 2304 * i, 64 * reach, (vat l.v i VReg.reset).data.toNat % 2 ^ (512 * reach)),
      (0x3000 + 2304 * i + 2048, 8 * reach, (vat l.v i VReg.reset).side.toNat % 2 ^ (64 * reach))]) ++
  (((List.range 32).filter fun g => l.adirty.getLsbD g).flatMap fun g => (List.range 8).map fun j =>
    (0x15000 + 16384 * g + 2048 * j, 64 * reach, (vat l.a (8 * g + j) 0).toNat % 2 ^ (512 * reach)))

/-- The acting privileged thread reaches a save image in HBM (R257). -/
structure State.hasImage (s : State) (va : X64) : Prop where
  acts : s.acts
  priv : s.me.tr.priv = true
  direct : s.direct s.cur
  plain : s.plain
  aligned : va.toNat % 256 = 0 ∧ va.toNat < 2 ^ 57
  inside : physOf va + 610304 ≤ hbmBytes

/-- The lanes that an image in memory at pa describes, with the head record's or the header's VSTART (R257, R261). -/
structure RestoredLanes (m : List Host.Cell) (pa vstart : Nat) (l : Lane) : Prop where
  data : ∀ i, i < 32 → (vat l.v i VReg.reset).data.toNat =
    if (memNat m (pa + 0x08) 8).testBit i then memNat m (pa + 0x3000 + 2304 * i) 2048 else 0
  side : ∀ i, i < 32 → (vat l.v i VReg.reset).side.toNat =
    if (memNat m (pa + 0x08) 8).testBit i then memNat m (pa + 0x3000 + 2304 * i + 2048) 256 else 0
  accs : ∀ g j, g < 32 → j < 8 → (vat l.a (8 * g + j) 0).toNat =
    if (memNat m (pa + 0x08) 8).testBit (32 + g) then memNat m (pa + 0x15000 + 16384 * g + 2048 * j) 2048 else 0
  books : ∀ i j, i < 8 → j < 16 → (vat (vat l.b i (Vector.replicate 16 0)) j 0).toNat = memNat m (pa + 0x100 + 32 * i + 2 * j) 2
  masks : ∀ i, i < 8 → (vat l.m i 0).toNat = memNat m (pa + 0x200 + 512 * i) 512
  controls : l.vl.toNat = memNat m (pa + 0x10) 8 % 2 ^ 13 ∧ l.vstart.toNat = vstart % 2 ^ 12 ∧
    l.msel.toNat = memNat m (pa + 0x28) 8 % 2 ^ 3 ∧ l.vstride.toNat = memNat m (pa + 0x30) 8 ∧
    l.srseed.toNat = memNat m (pa + 0x38) 8 ∧ l.femask.toNat = memNat m (pa + 0x40) 8 % 2 ^ 32 ∧
    l.flags.bits = memNat m (pa + 0x48) 8 % 2 ^ 6
  vtype : let v := memNat m (pa + 0x18) 8
    l.slices.toNat = v / 2 ^ 4 % 2 ^ 4 ∧ l.sre = v.testBit 8 ∧ (v % 2 ^ 3 ≤ 4 → l.rm.code = v % 2 ^ 3)
  clean : l.vdirty = 0 ∧ l.adirty = 0 ∧ l.vext = 0

/-- An entry of a restored queue: its record is the 32 bytes at o; the marker of a QSET or QDROP has no effect (R257, R261). -/
structure RestoredEntry (m : List Host.Cell) (o : Nat) (e : Entry) : Prop where
  word : e.word.toNat = memNat m o 8 % 2 ^ 32 ∧ e.stages.toNat = memNat m o 8 / 2 ^ 32 % 2 ^ 4
  kind : kindCode e.kind = memNat m o 8 / 2 ^ 36 % 2 ^ 2 ∧ e.named.toNat = memNat m o 8 / 2 ^ 38 % 2 ^ 6
  lengths : e.vl.toNat = memNat m o 8 / 2 ^ 44 % 2 ^ 13 ∧
    e.p = ((memNat m o 8).testBit 57 && decide (e.kind ≠ .qMarker))
  values : e.pc.toNat = memNat m (o + 8) 8 ∧ e.scalar.toNat = memNat m (o + 16) 8
  ins : ∀ i, e.kind = .instr → i.encodable = true → entersQueue i = true → encode i = [e.word] → e.ins = some i

/-- The registers of a restored slot whose image at pa has the records of `live` and no counter events: each LIVE at its delivery h,
which is to be fetched again, its ring behind those of lower records; every other register is retired (R200, R261, R349). -/
structure RestoredRegisters (m : List Host.Cell) (pa : Nat) (live : List Nat) (old sl : Slot) : Prop where
  others : ∀ q, q < 16 → q ∉ live → sl.reg q = ResReg.reset ∧ vat sl.qdone q 0 = vat old.qdone q 0
  bits : ∀ b, b < 64 → sl.landed.getLsbD b =
    (old.landed.getLsbD b && !decide (b / 4 ∈ live ∧ b % 4 = memNat m (pa + 0x1200 + 256 * (b / 4) + 0x88) 8 % 4))
  records : ∀ q, q ∈ live →
    let o := pa + 0x1200 + 256 * q
    let descOf (j : Nat) : Desc := Desc.parse ((List.range 128).map fun i => Memory.read m (pa + 0x1200 + 256 * j + i))
    let d := descOf q
    let h := memNat m (o + 0x88) 8
    ∃ g slabs, sl.reg q = { ResReg.reset with
        st := .live, desc := d, lanesSee := true, created := h + 1, gens := [g], slabs := slabs, lens := d.ringLens
        ringBase := ((live.filter fun j => decide (j < q)).map fun j => (descOf j).ringBytes).sum, ringBytes := d.ringBytes
        book := Vector.ofFn fun i => BitVec.ofNat 16 (memNat m (o + 0xA8 + 2 * i.val) 2) } ∧
      g.n = h ∧ g.old = none ∧ g.landed = false ∧ g.released = true ∧ (d.wme = false → g.gate = true) ∧
      (∀ i, i < 6 → (vat g.ks i 0).toNat = memNat m (o + 0x90 + 4 * i) 4) ∧
      vat sl.qdone q 0 = BitVec.ofNat 64 h

/-- The generations g of a register whose head stood at place n, once those in front that have landed and are released are forgotten
(R182): m of them, so that the head stands at place n - m. -/
structure Forgot (gens gens' : List Gen) (n n' : Nat) : Prop where
  rest : ∃ m, m ≤ n ∧ n' = n - m ∧ gens' = gens.drop m ∧
    (∀ g ∈ gens.take m, g.landed = true ∧ g.released = true) ∧
    (m < n → ∃ g, gens[m]? = some g ∧ (g.landed = false ∨ g.released = false))

/-- Does a counter event advance a residency register that the lanes see (R97, R173). -/
def advances (e : Entry) (r : ResReg) : Prop := r.st ≠ .retired ∧ r.lanesSee = true ∧ r.desc.advancedBy e.named = true

/-- A slot whose pre-emption has been taken: at its handler with CAUSE PREEMPT, its queue frozen at the head's VSTART, the groups
issued behind the head discarded, and no chunk of it waiting any longer if one did (R14, R253, R254, R255). -/
def Slot.preempted (sl : Slot) (waits : Bool) : Slot :=
  { sl with
    preempt := false, cst := .preempting, pc := sl.tr.tvec, phase := .fresh, st := .run, prev := sl.st, cause := 0, bkPass := false
    jumped := false, busy := false, closing := false
    queue := sl.queue.map fun e => { e with ahead := 0, leave := 0, turn := if waits then 0 else e.turn }
    tr := { sl.tr with
      cause := BitVec.ofNat 64 (2 ^ 63 + TrapCode.preempt.num), epc := sl.pc, tval := sl.tr.cimg, rpc := sl.pc
      froz := true, ppriv := sl.tr.priv, priv := true, inh := true } }

/-! ### Power, ports and debug (R264, R314 to R326, R353) -/

/-- Only core c has changed, to x. -/
structure OnlyCore (s t : State) (c : Nat) (x : Core) : Prop where
  here : t.coreAt c = x
  others : ∀ j, j ≠ c → t.coreAt j = s.coreAt j
  rest : t = { s with cores := t.cores }

/-- Only cluster n has changed, to x. -/
structure OnlyCluster (s t : State) (n : Nat) (x : Cluster) : Prop where
  here : t.clusterAt n = x
  others : ∀ j, j ≠ n → t.clusterAt j = s.clusterAt j
  rest : t = { s with clusters := t.clusters }

/-- Cluster n's power state becomes st; the writes to its window that it has let wait are made, before anything else, once it runs or
is gated (R225, R318). -/
def ClusterTurns (s t : State) (n : Nat) (st : ClusterState) : Prop :=
  let x := s.clusterAt n
  let late : List (Nat × X64) := if st = .running ∨ st = .gated then x.late else []
  OnlyCluster { s with agenda := late.map (fun w => Move.register (BitVec.ofNat 52 w.1) w.2) ++ s.agenda } t n
    { x with st := st, late := if st = .running ∨ st = .gated then [] else x.late }

/-- A write of a register at offset `off` of the window of core c's cluster, which would lead to the states of `does`: a gated cluster
answers it ASLEEP, and one that gates or wakes lets it wait (R225, R318). -/
def WindowWrite (s : State) (i : Instr) (c off : Nat) (v : X64) (does : State → Prop) : Prop :=
  let x := s.clusterAt (c / 4)
  (x.st = .running → ∃ t, exec i s = .next t ∧ does t) ∧
  (x.st = .gated → exec i s = .next s) ∧
  (x.st = .gating ∨ x.st = .waking → ∃ t, exec i s = .next t ∧
    OnlyCluster s t (c / 4) { x with late := x.late ++ [(0xF0_0000_0000 + 65536 * (c / 4) + off, v)] })

/-- PLIM after a window in which a chunk waited for some of its cycles (R316). -/
def plimAfter (plim most waited : Nat) : Nat :=
  if waited ≥ 49152 then max (plim / 2) 4 else if waited ≤ 16384 then min (2 * plim) most else plim

/-- A legal PLIMMAX: 4, 8, 16 or 32, the next lower for another value, 4 below that (R319). -/
def legalLimit (v : Nat) : Nat := if v < 8 then 4 else if v < 16 then 8 else if v < 32 then 16 else 32

/-- SHARE of a context ID on a core: that of its lowest-numbered bound slot; with none bound, what the port read last for it, and 1
where it has read none (R353; the second part is the model's reading, log 109). -/
def shareOfId (s : State) (core id : Nat) : Nat :=
  match (List.range 16).find? fun t =>
    decide ((s.slot (16 * core + t)).st ≠ .vacant ∧ (s.slot (16 * core + t)).ctxid.toNat % 2 ^ 32 = id) with
  | some t => (s.slot (16 * core + t)).ctxid.toNat / 2 ^ 40 % 2 ^ 8
  | none => alookup 1 (s.coreAt core).shares id

/-- The tokens of an active ID after a refill: the floor of its part of 1,024, at least 1, and the remainder for the largest
SHARE, ties to the lowest ID (R264). -/
def tokensOf (share : Nat → Nat) (ids : List Nat) (i : Nat) : Nat :=
  let total := (ids.map share).sum
  let rest := 1024 - (ids.map fun j => 1024 * share j / total).sum
  max 1 (1024 * share i / total) +
    if (∀ j ∈ ids, share j ≤ share i) ∧ (∀ j ∈ ids, share j = share i → i ≤ j) then rest else 0

/-- An ID has a token and a waiting piece (R264). -/
def mayIssue (c : Core) (i : Nat) : Prop := 0 < alookup 0 c.buckets i ∧ ∃ p ∈ c.pieces, p.id = i

/-- The ID that issues: the first in rising order with wrap-around after the one that issued last, or the lowest (R353). -/
def issuesNext (c : Core) (i : Nat) : Prop :=
  mayIssue c i ∧ match c.lastId with
    | none => ∀ j, mayIssue c j → i ≤ j
    | some l => (l < i ∧ ∀ j, mayIssue c j → l < j → i ≤ j) ∨ ((∀ j, mayIssue c j → j ≤ l) ∧ ∀ j, mayIssue c j → i ≤ j)

/-- No core traces. -/
def State.untracedPart (s : State) : Prop := ∀ c, bitAt (s.coreAt c).dbg.trctl 0 = false

/-- A core's port once n of its outstanding pieces have their reply, with a mark or without (R314). -/
def Core.answered (c : Core) (n : Nat) (marked : Bool) : Core :=
  { c with
    outstanding := c.outstanding - n, halved := c.halved || marked
    window := if marked = true ∧ c.halved = false then max 4 (c.window / 2) else c.window }

/-- The lanes of slot k have begun the convoy that holds the head entry: an element group was issued or a packet of it is open (R215,
R323). -/
def State.inConvoy (s : State) (k : Nat) : Prop :=
  match (s.slot k).queue with
  | [] => False
  | e :: _ => e.cvPos ≠ 0 ∨ (s.slot k).lane.vstart ≠ 0 ∨ e.ahead ≠ 0 ∨ e.leave ≠ 0 ∨ ∃ r ∈ s.reqs, r.owner = 4 * k + 1

/-- A slot that is halted: one that holds no thread or is stopped already stays; the lanes of another go on to the end of a convoy
that has begun, and else it stops with its back-flow settled (R85, R255, R322, R323). -/
def HaltedSlot (s : State) (k : Nat) (t : Slot) : Prop :=
  let sl := s.slot k
  (sl.st = .vacant ∨ sl.st = .stop → t = sl) ∧
  (sl.st ≠ .vacant → sl.st ≠ .stop →
    (s.inConvoy k ∧ sl.tr.froz = false → t = { sl with st := .stop, prev := sl.st, stopping := true }) ∧
    (¬ (s.inConvoy k ∧ sl.tr.froz = false) → t = { sl.settle with st := .stop, prev := sl.settle.st, stopping := false }))

/-- A slot after a resume: a stopped thread that has not faulted goes back to its state before the stop (R85, R322). -/
def resumedSlot (sl : Slot) : Slot :=
  if sl.st = .stop ∧ sl.cst ≠ .faulted then { sl with st := sl.prev, stopping := false, closing := false } else sl

/-- The context of record n is one that its bound slots decide, some slot is bound to it, and all of them RUN (R250). -/
structure State.runsContext (s : State) (n : Nat) (c : Ctx) : Prop where
  record : s.ctxOf (some n) = some c
  state : c.st ≠ .faulted ∧ c.st ≠ .ended ∧ c.st ≠ .free ∧ c.st ≠ .loading
  word : c.word = none
  bound : ∃ p ∈ s.slots, p.2.ctx = some n ∧ p.2.st ≠ .vacant
  running : ∀ p ∈ s.slots, p.2.ctx = some n → p.2.st ≠ .vacant → p.2.cst = .running

/-- What slot k's lanes have sent is still awaited when they stop: the accesses of a far store, and a far load of which one has met a
fault (R215). -/
def State.awaited (s : State) (k : Nat) : Prop :=
  ∃ r ∈ s.reqs, r.owner = 4 * k + 1 ∧ ((s.slot k).headStores = true ∨ (s.slot k).headLoads = true ∧ r.lost = true)

/-- The lanes of slot k have been cut short: what a far load has issued and is not awaited is forgotten, and DRAIN of its core reads 0
beside the debug block d (R215, R323). -/
def CutShort (s t : State) (k : Nat) (d : DebugBlock) : Prop :=
  (s.awaited k → t.reqs = s.reqs) ∧ (¬ s.awaited k → t.reqs = s.reqs.filter fun r => r.owner != 4 * k + 1) ∧
  s.sameSlotsBut t k ∧ OnlyCore { s with slots := t.slots, reqs := t.reqs } t (coreOf k)
    { s.coreAt (coreOf k) with dbg := { d with drain := false } }

/-- A slot whose lanes have stopped at their drain limit: groups issued behind the head are discarded, a back-flow is settled, and what
a far store has issued is still awaited (R14, R215, R255, R323). -/
def Slot.cutShort (sl : Slot) (before : SlotState) : Slot :=
  let x := { sl.recall with st := before }.settle
  { x with st := .stop, prev := x.st, stopping := false, closing := true }

/-! ### Hardware queues, launches and placement (R250, R266 to R280) -/

/-- Only hardware queue n has changed, to q. -/
structure OnlyQueue (s t : State) (n : Nat) (q : Hq) : Prop where
  here : t.hqAt n = q
  others : ∀ j, j ≠ n → t.hqAt j = s.hqAt j
  rest : t = { s with hqs := t.hqs }

/-- A queue whose head is done: HEAD advances, and the queue is IDLE when that was the last packet (R269, R270). -/
def passedHead (q : Hq) : Hq :=
  { q with head := q.head + 1, st := if q.head + 1 = q.tail then .idle else .active, err := 0, pkt := [], memWait := false }

/-- The scheduler looks at the head of queue n: the device runs, the ring is addressed directly, and the head packet, read now
or held since it began to wait, has the words w (R267, R269, R322, R334). -/
structure State.headIs (s : State) (n : Nat) (w : Nat → X64) : Prop where
  runs : s.halted = false ∧ s.svc.boot = 4 ∧ n < 64
  queue : (s.hqAt n).st ≠ .disabled ∧ (s.hqAt n).st ≠ .faulted ∧ (s.hqAt n).head ≠ (s.hqAt n).tail
  length : ((s.hqAt n).tail - (s.hqAt n).head).toNat ≤ 64 * 2 ^ ((s.hqAt n).base.toNat % 16)
  root : bitAt (s.hqAt n).root 0 = false
  plain : s.plain
  reqs : s.reqs = []
  words : ((s.hqAt n).pkt = [] ∧ (ringAddr (s.hqAt n) (s.hqAt n).head).toNat < 2 ^ 57 ∧
      physOf (ringAddr (s.hqAt n) (s.hqAt n).head) + 64 ≤ hbmBytes ∧
      ∀ i, i < 8 → memNat s.mem (physOf (ringAddr (s.hqAt n) (s.hqAt n).head) + 8 * i) 8 = (w i).toNat) ∨
    (s.hqAt n).pkt = (List.range 8).map w

/-- A packet has a type, nothing reserved in its words and a scope of at most 4 (R268, R269). -/
def packetForm (w : Nat → X64) (type used : Nat) (scope : Option Nat) : Prop :=
  (w 0).toNat % 2 ^ 8 = type ∧ (w 0).toNat / 2 ^ 10 % 2 ^ 22 = 0 ∧ (∀ i, used ≤ i → i < 8 → w i = 0) ∧
    ∀ j, scope = some j → (w j).toNat ≤ 4

/-- A packet of a type passes the checks of its words, and ORD is met (R268, R269). -/
def packetOk (s : State) (n : Nat) (w : Nat → X64) (type used : Nat) (scope : Option Nat) : Prop :=
  packetForm w type used scope ∧ ((w 0).getLsbD 8 = true → (s.hqAt n).opn = 0)

/-- The packets other than LAUNCH: the step that looks at one, its type, the words it uses and the word with its scope (R268). -/
def shortPacket (n : Fin 64) (i : Instr) (type used : Nat) (scope : Option Nat) : Prop :=
  (i = .packetWaitWord n ∧ type = 2 ∧ used = 4 ∧ scope = some 3) ∨
    (i = .packetWriteWord n ∧ type = 3 ∧ used = 4 ∧ scope = some 3) ∨ (i = .packetMarker n ∧ type = 4 ∧ used = 1 ∧ scope = none)

/-- A queue that faults with an ERR code (R270). -/
def faultedQueue (q : Hq) (err : Nat) : Hq := { q with st := .faulted, err := BitVec.ofNat 8 err, pkt := [], memWait := false }

/-- An aligned run of bytes of HBM at a directly addressed place. -/
def wholeIn (va : X64) (align n : Nat) : Prop := va.toNat % align = 0 ∧ va.toNat < 2 ^ 57 ∧ physOf va + n ≤ hbmBytes

/-- The vectors signalled after a packet that may ask for its interrupt, each with the function of the queue's owner (R268, R332). -/
def signalled (s : State) (n : Nat) (w : Nat → X64) : List (Nat × Nat) :=
  if (w 0).getLsbD 9 = true then s.svc.msi ++ [(functionOf s n, (s.hqAt n).vec.toNat)] else s.svc.msi

/-- The 64-bit words of memory from an address on. -/
def wordAt (s : State) (va : X64) (i : Nat) : X64 := BitVec.ofNat 64 (memNat s.mem (physOf va + 8 * i) 8)

/-- A kernel object within the limits of R272 and R276. -/
structure ObjectOk (o : Nat → X64) : Prop where
  format : o 0 = 1 ∧ (∀ i, 13 ≤ i → i < 32 → o i = 0) ∧ (o 4).toNat / 2 ^ 48 = 0
  reserved : (o 11).toNat / 2 ^ 6 % 2 ^ 2 = 0 ∧ (o 11).toNat / 2 ^ 13 % 2 ^ 3 = 0 ∧ (o 11).toNat / 2 ^ 22 = 0
  code : (o 1).toNat % 256 = 0 ∧ (o 2).toNat % 4 = 0 ∧ 4 ≤ (o 2).toNat ∧ (o 2).toNat ≤ 2 ^ 24 ∧ (o 3).toNat % 4 = 0 ∧
    (o 3).toNat < (o 2).toNat
  wish : (o 11).toNat % 2 ^ 6 ∈ [1, 2, 4, 8, 16, 32] ∧ (o 11).toNat / 2 ^ 8 % 2 ^ 5 ≤ 16 ∧ (o 11).toNat / 2 ^ 16 % 2 ^ 6 ≤ 32
  loft : (o 12).toNat % 2 ^ 32 % 256 = 0 ∧ (o 12).toNat / 2 ^ 32 % 256 = 0 ∧
    (o 5).toNat * ((o 12).toNat % 2 ^ 32) + (o 12).toNat / 2 ^ 32 ≤ 32 * 2 ^ 20
  widths : ((List.range 6).map fun i => (o 4).toNat / 2 ^ (8 * i) % 2 ^ 8).sum ≤ 64
  counts : ∀ i, i < 6 → 1 ≤ (o (5 + i)).toNat ∧ (o (5 + i)).toNat ≤ 2 ^ ((o 4).toNat / 2 ^ (8 * i) % 2 ^ 8)
  groups : (o 6).toNat * (o 7).toNat * (o 8).toNat * (o 9).toNat * (o 10).toNat ≤ 2 ^ 48
  fits : (o 5).toNat ≤ 4 * min 16 (32 / ((o 11).toNat % 2 ^ 6))

/-- The context of an accepted launch, LOADING: the fields of its packet w, its record r and its kernel object o (R271, R276,
R279). -/
def acceptedCtx (s : State) (n : Nat) (w r o : Nat → X64) : Ctx :=
  { crec := w 2, hqroot := (s.hqAt n).root, hq := n, prio := (s.hqAt n).prio.toNat, age := s.nextCtx, st := .loading
    ptroot := r 1 &&& 0xFFFFFFFFFFFF0001#64, tvec := without (r 2) 3, cimg := without (r 3) 255
    ctxid := r 4 &&& 0x0000FF01FFFFFFFF#64, pack := (r 5).getLsbD 0
    code := o 1, codelen := (o 2).toNat, entry := (o 3).toNat
    widths := (List.range 6).map fun i => (o 4).toNat / 2 ^ (8 * i) % 2 ^ 8
    counts := (List.range 6).map fun i => (o (5 + i)).toNat
    lgwish := (o 11).toNat % 2 ^ 6, qcnt := (o 11).toNat / 2 ^ 8 % 2 ^ 5, agrp := (o 11).toNat / 2 ^ 16 % 2 ^ 6
    loftt := (o 12).toNat % 2 ^ 32, loftg := (o 12).toNat / 2 ^ 32, cwaddr := w 3, cwscope := (w 4).toNat
    irq := (w 0).getLsbD 9, codeMem := [], groups := [], nextGroup := 0, waits := none, word := none, endedGroups := 0
    flags := { nx := false, uf := false, of := false, dz := false, nv := false, sat := false }, faultCode := 0 }

/-- A launch waits alone on an empty part that runs: its context n is READY, and its record is addressed directly (R250,
R273). -/
structure State.placesFirst (s : State) (n : Nat) (c : Ctx) : Prop where
  empty : s.slots = [] ∧ s.halted = false ∧ s.svc.offParts = [] ∧ s.ctxs = [(n, c)]
  running : ∀ i, i < 16 → (s.clusterAt i).st = .running
  ready : c.st = .ready ∧ c.waits = none ∧ c.word = none ∧ c.groups = [] ∧ c.nextGroup = 0 ∧ 0 < (c.counts.drop 1).foldl (· * ·) 1
  wish : c.lgwish ∈ [1, 2, 4, 8, 16, 32]
  fits : 1 ≤ c.counts.getD 0 1 ∧ c.counts.getD 0 1 ≤ 4 * min 16 (32 / c.lgwish) ∧
    c.counts.getD 0 1 * c.loftt + c.loftg ≤ 32 * 2 ^ 20
  widths : c.counts.length = 6 ∧ c.widths.length = 6 ∧ c.counts.getD 0 1 ≤ 2 ^ c.widths.getD 0 0
  plain : s.plain
  record : bitAt c.hqroot 0 = false ∧ wholeIn c.crec 8 8

/-- The slot of thread f0 of the first group on an empty part: PACK fills one core after another, spread goes round the four
cores of the first cluster (R273, R278). -/
def firstSlot (c : Ctx) (f0 : Nat) : Nat :=
  let most := min 16 (32 / c.lgwish)
  if c.pack then 16 * (f0 / most) + f0 % most else 16 * (f0 % 4) + f0 / 4

/-- A thread of the first group as it starts: at the entry PC, every register at its reset value, with its context's control
registers and its own work identifier and image (R7, R29, R250, R271, R278, R286). -/
def startedSlot (c : Ctx) (n f0 : Nat) (energy : X64) : Slot :=
  { Slot.reset with
    st := .run, cst := .running, ctx := some n, group := 0, f0 := f0, pc := c.code + BitVec.ofNat 64 c.entry
    ptroot := c.ptroot, ctxid := c.ctxid, elast := energy, workId := BitVec.ofNat 64 f0
    tr := { TrapRegs.reset with tvec := without c.tvec 3, cimg := c.cimg + BitVec.ofNat 64 (f0 * 786432) } }

/-! ### Links (R300 to R312) -/

/-- Only port p has changed, to q. -/
structure OnlyPort (s t : State) (p : Nat) (q : Port) : Prop where
  here : t.portAt p = q
  others : ∀ j, j ≠ p → t.portAt j = s.portAt j
  rest : t = { s with ports := t.ports }

/-- Credits, entries, buffers and counts of a port that is not UP: all at rest; what has been delivered and counted stays (R306,
R308, R312, R313). -/
def closedPort (q : Port) (st : PortState) (reason : Nat) : Port :=
  { Port.reset with
    st := st, reason := reason, ctl := if st = .errorHeld then [.errorHeld] else [], delivered := q.delivered, retries := q.retries
    discards := q.discards + (List.range 3).countP (fun c => (vat q.rx c none).isSome), starves := q.starves }

/-- A port has left UP: it is closed, no request over it still waits, and no other port has changed (R308, R309, R312). -/
structure LeftUp (s t : State) (p : Nat) (q : Port) : Prop where
  here : t.portAt p = q
  others : ∀ j, j ≠ p → t.portAt j = s.portAt j
  requests : ∀ r ∈ t.reqs, r.port = p → r.outcome ≠ .waiting
  kept : ∀ r ∈ s.reqs, r.port ≠ p ∨ r.outcome ≠ .waiting → r ∈ t.reqs

/-- A packet's fields fit their places, and its bytes one flit (R301). -/
structure Packet.small (k : Packet) : Prop where
  parts : k.dpart < 2 ^ 16 ∧ k.spart < 2 ^ 16 ∧ 1 ≤ k.kind ∧ k.kind ≤ 6
  opc : k.opc ≤ 8 ∧ k.tag < 2 ^ 16 ∧ k.addr < 2 ^ 40 ∧ k.len ≤ 4064
  types : k.status ≤ 1 ∧ k.atype < 2 ^ 8 ∧ k.arm < 2 ^ 8 ∧ k.draw < 2 ^ 16
  data : k.data.length ≤ 88 ∧ (k.kind = 2 → k.data = []) ∧ (k.kind ≠ 2 → k.len = k.data.length)

/-- The payload of a packet as one number, byte 0 lowest (R3, R301). -/
def packetNumber (k : Packet) : Nat :=
  k.dpart + k.spart * 2 ^ 16 + k.kind * 2 ^ 32 + k.opc * 2 ^ 40 + k.tag * 2 ^ 48 + k.addr * 2 ^ 64 + k.len * 2 ^ 128 +
    k.status * 2 ^ 160 + k.atype * 2 ^ 168 + k.arm * 2 ^ 176 + k.draw * 2 ^ 192 + ofBytes k.data * 2 ^ 256

/-- The code of a class in a flit (R300). -/
def classCode : LinkClass → Nat
  | .bulk => 0
  | .urgent => 1
  | .control => 2

/-- A flit carries a whole packet: class, SOP, EOP, the words of its payload and the payload (R300, R301). -/
structure CarriesPacket (f : BitVec 1024) (k : Packet) : Prop where
  cls : f.toNat / 2 ^ 38 % 2 ^ 2 = classCode k.cls
  ends : f.getLsbD 37 = true ∧ f.getLsbD 36 = true
  words : f.toNat / 2 ^ 32 % 2 ^ 4 = (32 + k.data.length + 7) / 8
  payload : f.toNat / 2 ^ 64 = packetNumber k

/-- A class's transmit entry has a flit and credit (R303). -/
def hasFlit (q : Port) (c : Nat) : Prop := (vat q.tx c none).isSome = true ∧ 0 < vat q.credit c 0

/-- The class of the next counted flit: BULK after 48 flits of the others while it was ready, otherwise the highest that is
ready (R303, R304). -/
def nextClass (q : Port) (c : Nat) : Prop :=
  hasFlit q c ∧
    ((c = 0 ∧ 48 ≤ q.starve) ∨ (¬ (hasFlit q 0 ∧ 48 ≤ q.starve) ∧ ∀ j, c < j → j < 3 → ¬ hasFlit q j))

/-- What ATOMIC does to a value of w bits, by its operation: AMO 0 to 6 and CAS 7 (R222, R223, R301). -/
def atomicResult (opc : Nat) (t : Ty) (old v want : Nat) : Nat :=
  if opc = 0 then (old + v) % 2 ^ t.bits
  else if opc = 1 then (if intVal t v < intVal t old then v else old)
  else if opc = 2 then (if intVal t old < intVal t v then v else old)
  else if opc = 3 then Nat.land old v
  else if opc = 4 then Nat.lor old v
  else if opc = 5 then Nat.xor old v
  else if opc = 6 then v
  else if old = want then v else old

/-- No launch waits for its completion word to be acknowledged (R268, R280). -/
def State.wordsDone (s : State) : Prop := ∀ c ∈ s.ctxs, c.2.word = none

/-- The requests of the threads with those that a test names and that wait ended by an outcome (R309). -/
def endedReqs (s : State) (hit : LinkReq → Bool) (o : ReqOutcome) : List LinkReq :=
  s.reqs.map fun (r : LinkReq) => if hit r = true ∧ r.outcome = .waiting then { r with outcome := o } else r

/-! ### Service (R332 to R339) -/

/-- A record of the error ring has been written: its four words at ERBASE + 32 × (IDX mod the record count), ERPTR.IDX advanced,
its class and unit counted, and nothing else changed (R339). -/
structure Recorded (s t : State) (cls unit : Nat) (pa detail : X64) : Prop where
  count : ∀ j, alookup 0 t.svc.errCounts j = alookup 0 s.svc.errCounts j + if j = cls * 65536 + unit then 1 else 0
  record : ∃ cycle : BitVec 40,
    let at0 := s.svc.erbase.toNat / 2 ^ 12 % 2 ^ 40 * 2 ^ 12 + 32 * (s.svc.eridx.toNat % (128 * 2 ^ (s.svc.erbase.toNat % 16)))
    t.mem = storeNat (storeNat (storeNat (storeNat s.mem at0 8 (cls * 2 ^ 56 + unit % 2 ^ 16 * 2 ^ 40 + cycle.toNat))
      (at0 + 8) 8 pa.toNat) (at0 + 16) 8 detail.toNat) (at0 + 24) 8 (alookup 0 t.svc.errCounts (cls * 65536 + unit))
  rest : t = { s with mem := t.mem, svc := { s.svc with eridx := s.svc.eridx + 1, errCounts := t.svc.errCounts }, free := t.free }

/-- No HBM stack is drained, so that records reach memory at once (R337). -/
def State.stacksIn (s : State) : Prop := ∀ u ∈ s.svc.offParts, u / 256 ≠ 3

/-- The error ring lies in HBM, no page of it moves, and no scalar byte is dirty (R31, R242, R339). -/
structure State.ringInMemory (s : State) : Prop where
  still : s.fwds = []
  caches : ∀ c, (s.coreAt c).l1 = []
  inside : s.svc.erbase.toNat / 2 ^ 12 % 2 ^ 40 * 2 ^ 12 + 32 * (128 * 2 ^ (s.svc.erbase.toNat % 16)) ≤ hbmBytes

/-- The number of a drained part; the system-core firmware has no UNIT (R337). -/
def partKey (part unit : Nat) : Nat := part * 256 + if part = 0 then 0 else unit

/-- The error ring holds its 128 << SIZE records (R339). -/
def State.ringFull (s : State) : Prop := (s.svc.eridx - s.svc.ercons).toNat = 128 * 2 ^ (s.svc.erbase.toNat % 16)

/-- A record is dropped: LOST is set, and no register or byte of memory changes beside it (R339). -/
structure Dropped (s t : State) : Prop where
  lost : t.svc.lost = true
  rest : t = { s with svc := { s.svc with lost := true, errCounts := t.svc.errCounts } }

/-- UPSTAT: BOOT, UNIT and STATE (R334). -/
def upstatOf (boot unit st : Nat) : X64 := BitVec.ofNat 64 (boot % 2 ^ 8 * 2 ^ 24 + unit % 2 ^ 8 * 2 ^ 8 + st)

/-- An update has ended in a state: a record of class 4 tells it, unless the ring is full (R338, R339). -/
def EndedAs (s t : State) (st : UpdateState) (code : Nat) : Prop :=
  let u : State := { s with svc := { s.svc with upst := st } }
  (¬ s.ringFull → Recorded u t 4 s.svc.upUnit 0 (upstatOf s.svc.boot s.svc.upUnit code)) ∧ (s.ringFull → Dropped u t)

/-- The bytes of an image staged at UPSRC (R336). -/
def stagedBytes (m : List Host.Cell) (pa : Nat) : List Byte :=
  (List.range (64 + memNat m (pa + 16) 8 + 2420)).map fun i => Memory.read m (pa + i)

/-- The number of the bytes of an image from byte i on (R3). -/
def numberAt (b : List Byte) (i n : Nat) : Nat := ofBytes ((b.drop i).take n)

/-- An image passes: its signature over the digest of header and body verifies, its PART and VERSION are right (R336). -/
def Passes (part : Nat) (b : List Byte) : Prop :=
  Config.verifies (Config.sha3 (b.take (b.length - 2420))) (b.drop (b.length - 2420)) = true ∧
    numberAt b 0 1 % 4 = part ∧ Config.minVersion part ≤ numberAt b 8 8

/-- The measurement index of a part's image (R335). -/
def indexOfPart (part unit : Nat) : Nat :=
  if part = 0 then 2 else if part = 1 then 3 + unit else if part = 2 then 19 + unit else 35 + unit

/-- The image of a measurement index that the part runs: the last one loaded, or the one it came with (R335). -/
def runningImage (s : State) (j : Nat) : List Byte := alookup (Config.firstImage j) s.svc.images j

/-- UNIT names a unit of the part: one of 16 clusters, 16 ports or 8 stacks (R337). -/
def unitOk (part unit : Nat) : Prop := part < 4 ∧ ((part = 1 ∨ part = 2) → unit < 16) ∧ (part = 3 → unit < 8)

/-- Memory is addressed at its home places, no dirty scalar byte hides it and no stack is drained (R31, R242, R337). -/
structure State.hostReady (s : State) : Prop where
  still : s.fwds = []
  caches : ∀ c, (s.coreAt c).l1 = []
  clean : s.poison = []
  drained : s.svc.offParts = []

/-- The host's answer and the count of free values alone have changed. -/
structure HostSees (s t : State) (r : Option (List Byte)) : Prop where
  answer : t.svc.hostReply = r
  rest : t = { s with svc := { s.svc with hostReply := r }, free := t.free }

/-- The address of a host request: its kind in bits 63:62, what the kind needs below, the offset (the model's numbering). -/
def hostAddr (kind sub off : Nat) : BitVec 64 := BitVec.ofNat 64 (kind * 2 ^ 62 + sub + off)

/-- The part has answered one SPDM request (R335). -/
def Answered (s t : State) (a : SpdmAnswer) : Prop := t = { s with spdm := { s.spdm with answers := s.spdm.answers ++ [a] } }

/-! ### A step (R57, R77) -/

/-- The code image that slot k's PC lies in: that of its launch, as memory was when it was loaded (R31). -/
def State.codeOf (s : State) (k : Nat) : Option (List Host.Cell) :=
  let pc := (s.slot k).pc.toNat
  (s.ctxOf (s.slot k).ctx).bind fun c => if c.code.toNat ≤ pc ∧ pc < c.code.toNat + c.codelen then some c.codeMem else none

/-- The slice of slot k moves next, runs, and may fetch a word w: no pre-emption is asked for, no base register waits to be
rewritten, the PC ends no live body or was jumped to, and the word lies in physical memory, or in the code image of its launch (R31, R77, R96, R244, R255). -/
structure State.fetches (s : State) (k : Fin 1024) (rest : List Move) (w : Word) : Prop where
  next : s.agenda = .slice k :: rest
  runs : (s.slot k.val).st = .run ∧ s.halted = false
  keeps : (s.slot k.val).preempt = false
  settled : (s.slot k.val).rebases = [] ∨ (s.slot k.val).busy = true
  inside : (s.slot k.val).nest.act = false ∨ (s.slot k.val).pc ≠ (s.slot k.val).nest.stop ∨ (s.slot k.val).jumped = true
  place : s.reaches k.val (s.slot k.val).pc 4
  word : (match s.codeOf k.val with
    | some m => memNat m (physOf (s.slot k.val).pc) 4
    | none => s.seenNat (physOf (s.slot k.val).pc) 4) = w.toNat

/-! ### Entries at their edges (R15, R25, R99, R105, R107, R132) -/

/-- The element-wise instructions that write v registers or masks, and the most that VL may be (R105, R107). -/
def elementwise (i : Instr) : Option (LEnv → Nat) :=
  match (intRule i).or ((fltRule i).or ((fltOwnRule i).or ((cvtRule i).or ((wmulRule i).or ((nrshrRule i).or
      ((placeRule i).or (accrdRule i))))))) with
  | some r => some r.limit
  | none =>
    match cmpRule i, pickRule i, blockRule i with
    | some r, _, _ => some fun n => perReg n.cap r.t.bits
    | _, some (_, t, _), _ => some fun n => perReg n.cap t.bits
    | _, _, some r => some r.limit
    | _, _, _ => none

/-- The instructions that run as a whole, and the most that VL may be; 0 where their operands allow none (R132). -/
def wholes (i : Instr) : Option (LEnv → Nat) :=
  match (moveRule i).or (reduceRule i), maskRule i, i with
  | some r, _, _ => if r.free then none else some r.limit
  | _, some _, _ => some fun _ => 4096
  | _, _, .mpopc _ _ => some fun _ => 4096
  | _, _, .mfirst _ _ => some fun _ => 4096
  | _, _, _ => none

/-- The scalar words that R100 allows in a body and that enter no queue: whether they are privileged (R77, R99). -/
def scalarWord (i : Instr) : Option Bool :=
  if (intScalarRule i).isSome || (fltScalarRule i).isSome || (cmpScalarRule i).isSome then some false
  else
    match i with
    | .br .. | .bc .. | .bcClr .. | .liLo .. | .liHi .. | .workid .. | .krd .. | .trap .. | .svc .. => some false
    | .barInit .. | .barArrive .. | .barWait .. | .barTest .. | .launch .. => some false
    | .qwait .. | .qstat .. | .waitAny .. | .waitAll .. | .ffrdy .. => some false
    | .ldsB .. | .ldsH .. | .ldsW .. | .ldsD .. | .ldsBz .. | .ldsHz .. | .ldsWz .. => some false
    | .stsB .. | .stsH .. | .stsW .. | .stsD .. => some false
    | .amoAdd .. | .amoSwap .. | .amoAnd .. | .amoOr .. | .amoXor .. | .amoMin .. | .amoMax .. | .cas .. => some false
    | .tlbi .. | .tlbs | .sweep .. | .relmove .. | .vsave .. | .vrest .. | .idle | .eret => some true
    | _ => none

/-- The scalar words that enter the control queue: they need vector state in a dead stage too (R99, R258). -/
def queueWord : Instr → Bool
  | .qset .. | .qdrop .. | .fenceSv .. | .fenceVs .. | .fenceVv .. | .fenceAll .. | .wmark .. | .endk .. | .vpush .. => true
  | _ => false

end Sys2Proof.Machine

open Sys2Proof Sys2Proof.Machine

/-- Every integer instruction of the lanes computes its exact result and fits it (R34, R111 to R113). -/
def Claims.IntegerElementsFitExactResult : Prop := GroupsRun intRule

/-- An element-wise entry whose VSTART is at or above VL, as with VL = 0, retires and changes nothing but VSTART; one whose VL
exceeds an operand's element count is an illegal operand, and no element changes (R11, R15, R103, R105, R107). -/
def Claims.ElementEntriesAtTheirEdges : Prop :=
  ∀ (s : State) (k : Nat) (i : Instr) (e : Entry) (limit : LEnv → Nat) (c : Fin 64),
    AtHead s k i e → c.val = coreOf k → elementwise i = some limit → i.wf = true →
    let l := (s.slot k).lane
    let most := limit (s.lenv k e)
    (0 < most → l.vl.toNat ≤ most → l.vl.toNat ≤ l.vstart.toNat →
      ∃ u, exec (.issueOpportunity c) s = .next u ∧ OnlyLanes s u k ∧ (u.slot k).lane = { l with vstart := 0 } ∧
        (u.slot k).queue = (s.slot k).queue.tail) ∧
    (most < l.vl.toNat → (∀ r ∈ s.reqs, r.owner ≠ 4 * k) →
      ∃ u, exec (.issueOpportunity c) s = .next u ∧ LaneFault s u k .illegalOperand 0 e.pc 0 l.vstart)

/-- An entry with stage predicate 0 retires without effect, whatever its word (R25, R99). -/
def Claims.DeadEntriesRetire : Prop :=
  ∀ (s : State) (k : Nat) (e : Entry) (c : Fin 64),
    s.lanesFree k → c.val = coreOf k → (s.slot k).queue.head? = some e → e.kind = .instr → e.p = false →
    ∃ u, exec (.issueOpportunity c) s = .next u ∧ OnlyLanes s u k ∧ (u.slot k).lane = (s.slot k).lane ∧
      (u.slot k).queue = (s.slot k).queue.tail

/-- Integer instructions of the lanes compute their exact result and fit it, element by element: its parts, each a definition above. -/
def Obligations.IntegerElementsFitExactResult : Prop :=
  Claims.IntegerElementsFitExactResult ∧ Claims.ElementEntriesAtTheirEdges ∧ Claims.DeadEntriesRetire

/-- Every integer sc form writes its fitted, extended result to x[D] and goes on (R110, R111). -/
def Claims.IntegerScalarFormsWriteResult : Prop :=
  ∀ (s : State) (i : Instr) (d : Nat) (f : State → X64),
    intScalarRule i = some (d, f) → i.wf = true → s.acts → exec i s = .next (s.putX d (f s))

/-- Every F32 sc form and scalar conversion writes its rounded result to x[D] and goes on (R110, R118, R126). -/
def Claims.FloatScalarFormsWriteResult : Prop :=
  ∀ (s : State) (i : Instr) (d : Nat) (f : State → X64),
    fltScalarRule i = some (d, f) → i.wf = true → s.acts → exec i s = .next (s.putX d (f s))

/-- CMP and FCMP at the slice write a condition bit in program order (R136). -/
def Claims.ScalarComparisonsWriteConditionBit : Prop :=
  ∀ (s : State) (i : Instr) (d : Nat) (f : State → Bool),
    cmpScalarRule i = some (d, f) → i.wf = true → s.acts → exec i s = .next (s.putC d (f s))

/-- Integer and float sc forms and scalar comparisons write their result to x[D] or c[D], and nothing else changes: its parts, each a definition above. -/
def Obligations.ScalarFormsWriteResults : Prop :=
  Claims.IntegerScalarFormsWriteResult ∧ Claims.FloatScalarFormsWriteResult ∧ Claims.ScalarComparisonsWriteConditionBit

/-- Every rounded float instruction of the lanes gives its exact result, rounded once, with its flags and draws (R118, R119); how a product
is cut into its slices is the model's reading of R167 (log 12). -/
def Claims.FloatElementsRoundOnce : Prop := GroupsRun fltRule

/-- FMIN, FMAX, FCLASS, FSGN, FSCALE and FRINT in the lanes (R119, R121 to R124). -/
def Claims.FloatElementsOfOwnRule : Prop := GroupsRun fltOwnRule

/-- Float instructions of the lanes round their exact result once, or follow their own rule: its parts, each a definition above. -/
def Obligations.FloatElementsRoundOnce : Prop :=
  Claims.FloatElementsRoundOnce ∧ Claims.FloatElementsOfOwnRule

/-- CVT and CVTW convert each active element under R49 (R126, R127). -/
def Claims.ConversionsFollowTypes : Prop := GroupsRun cvtRule

/-- WMUL and NRSHR: exact double-width products and clamped rounding shifts (R115, R117). -/
def Claims.WideningAndNarrowingElements : Prop := GroupsRun wmulRule ∧ GroupsRun nrshrRule

/-- Conversions, widening products and narrowing shifts write each active element as their rules say: its parts, each a definition above. -/
def Obligations.ConversionsAndWideningForms : Prop :=
  Claims.ConversionsFollowTypes ∧ Claims.WideningAndNarrowingElements

/-- IOTA, VBCAST and VMOVE.ELT in the lanes (R141, R146, R149). -/
def Claims.PositionsBroadcastsAndCopies : Prop := GroupsRun placeRule

/-- PICK writes every element of [VSTART, VL), whatever its mask bit; the side bytes of its lanes become 0x00, and VDIRTY and VEXT
follow (R16, R23, R114, R258). That it copies a NaN bit for bit is the model's reading (log 115). -/
def Claims.PickSelectsByMask : Prop :=
  ∀ (s : State) (k : Nat) (i : Instr) (e : Entry) (d : Nat) (t : Ty) (f : LEnv → Nat → Nat) (c : Fin 64),
    AtHead s k i e → c.val = coreOf k → pickRule i = some (d, t, f) → i.wf = true →
    (s.slot k).lane.vl.toNat ≤ perReg (s.slot k).cap.toNat t.bits →
    (s.slot k).lane.vstart.toNat < (s.slot k).lane.vl.toNat →
    let n := s.lenv k e
    let vs := n.l.vstart.toNat
    let hi := min n.l.vl.toNat ((vs / (512 / t.bits) + 1) * (512 / t.bits))
    ∃ u, exec (.issueOpportunity c) s = .next u ∧ OnlyLanes s u k ∧
      (∀ j p, (u.slot k).lane.rd j t.bits p =
        if j = d ∧ vs ≤ p ∧ p < hi then f n p % 2 ^ t.bits else n.l.rd j t.bits p) ∧
      (∀ p, vs ≤ p → p < hi → (u.slot k).lane.side d (t.bits * p / 64) = 0) ∧
      (∀ j q, q < 256 → (j = d → ∀ p, vs ≤ p → p < hi → t.bits * p / 64 ≠ q) →
        (u.slot k).lane.side j q = n.l.side j q) ∧
      Marks t.bits (fun j p => j = d ∧ vs ≤ p ∧ p < hi) n.l (u.slot k).lane ∧
      (u.slot k).lane = { n.l with
        v := (u.slot k).lane.v, vdirty := (u.slot k).lane.vdirty, vext := (u.slot k).lane.vext
        vstart := (u.slot k).lane.vstart } ∧
      (hi = n.l.vl.toNat → (u.slot k).lane.vstart = 0 ∧ (u.slot k).queue = (s.slot k).queue.tail) ∧
      (hi < n.l.vl.toNat → (u.slot k).lane.vstart.toNat = hi)

/-- COMPRESS, EXPAND, VPERM, the slides, BPERM, VZIP, VMOVE.INS, VSORT and VMRG (R142 to R149, R152, R153). The vi
slides refuse C4, which is the model's reading (log 79), and so are which side bytes move with an F8 block (log 83) and that BPERM's VL
is held against the element count of T alone (log 116). -/
def Claims.MovesAcrossRegisters : Prop := WholesRun moveRule

/-- Positions, broadcasts, copies, PICK and every move across registers: its parts, each a definition above. -/
def Obligations.CopiesAndPermutations : Prop :=
  Claims.PositionsBroadcastsAndCopies ∧ Claims.PickSelectsByMask ∧ Claims.MovesAcrossRegisters

/-- CMP and FCMP in the lanes write a mask bit per active element and nothing else (R134, R135). -/
def Claims.ComparisonsWriteMaskBits : Prop :=
  ∀ (s : State) (k : Nat) (i : Instr) (e : Entry) (r : MaskRule) (c : Fin 64),
    AtHead s k i e → c.val = coreOf k → cmpRule i = some r → i.wf = true →
    (s.slot k).lane.vl.toNat ≤ perReg (s.slot k).cap.toNat r.t.bits →
    (s.slot k).lane.vstart.toNat < (s.slot k).lane.vl.toNat →
    let n := s.lenv k e
    let vs := n.l.vstart.toNat
    let hi := min n.l.vl.toNat ((vs / (512 / r.t.bits) + 1) * (512 / r.t.bits))
    ∃ u, exec (.issueOpportunity c) s = .next u ∧ OnlyLanes s u k ∧
      (∀ j p, (u.slot k).lane.maskBit j p =
        if j = r.d ∧ vs ≤ p ∧ p < hi ∧ n.l.gov p = true then r.bit n p else n.l.maskBit j p) ∧
      (u.slot k).lane = { n.l with m := (u.slot k).lane.m, vstart := (u.slot k).lane.vstart } ∧
      (hi = n.l.vl.toNat → (u.slot k).lane.vstart = 0 ∧ (u.slot k).queue = (s.slot k).queue.tail) ∧
      (hi < n.l.vl.toNat → (u.slot k).lane.vstart.toNat = hi)

/-- MLOG, MSBF, MSIF and MSET write their mask and nothing else (R137 to R139). -/
def Claims.MaskInstructionsWriteTheirMask : Prop :=
  ∀ (s : State) (k : Nat) (i : Instr) (e : Entry) (d : Nat) (f : LEnv → Nat → Bool) (c : Fin 64),
    AtHead s k i e → c.val = coreOf k → maskRule i = some (d, f) →
    (s.slot k).lane.vstart = 0 → (s.slot k).lane.vl.toNat ≤ 4096 →
    let n := s.lenv k e
    ∃ u, exec (.issueOpportunity c) s = .next u ∧ OnlyLanes s u k ∧ (u.slot k).queue = (s.slot k).queue.tail ∧
      (∀ j p, p < 4096 → (u.slot k).lane.maskBit j p = if j = d then f n p else n.l.maskBit j p) ∧
      (u.slot k).lane = { n.l with m := (u.slot k).lane.m, vstart := 0 }

/-- Comparisons write a mask bit per active element; the mask instructions write their mask and nothing else: its parts, each a definition above. -/
def Obligations.MasksAreWritten : Prop :=
  Claims.ComparisonsWriteMaskBits ∧ Claims.MaskInstructionsWriteTheirMask

/-- RED and FRED reduce into element 0 in the order that R54 to R56 fix (R150, R151); that FRED.MIN and FRED.MAX without an active
element leave B[0] bit for bit is the model's choice (log 82). -/
def Claims.ReductionsIntoElementZero : Prop := WholesRun reduceRule

/-- A whole-register or mask-only entry whose VSTART is not 0, whose VL is above its limit or whose operands no VL suits is an
illegal operand, and nothing changes (R103, R107, R132, R138, R145, R147). -/
def Claims.WholeEntriesTrapAtTheirEdges : Prop :=
  ∀ (s : State) (k : Nat) (i : Instr) (e : Entry) (limit : LEnv → Nat) (c : Fin 64),
    AtHead s k i e → c.val = coreOf k → wholes i = some limit → i.wf = true → (∀ r ∈ s.reqs, r.owner ≠ 4 * k) →
    (limit (s.lenv k e) = 0 ∨ limit (s.lenv k e) < (s.slot k).lane.vl.toNat ∨ (s.slot k).lane.vstart ≠ 0) →
    ∃ u, exec (.issueOpportunity c) s = .next u ∧
      LaneFault s u k .illegalOperand 0 e.pc 0 (s.slot k).lane.vstart

/-- RED and FRED reduce the active elements into element 0 in the order the rules fix: its parts, each a definition above. -/
def Obligations.ReductionsIntoElementZero : Prop :=
  Claims.ReductionsIntoElementZero ∧ Claims.WholeEntriesTrapAtTheirEdges

/-- CVTS and SCLD derive each block's scale and encode its active elements under it, flags and draws running through them in order, and
VDIRTY and VEXT follow (R23, R46, R47, R50, R51, R128, R129, R258). When an element beyond the largest magnitude raises its flags is in part the model's choice (log 81). -/
def Claims.BlockScalesFollowActiveElements : Prop :=
  ∀ (s : State) (k : Nat) (i : Instr) (e : Entry) (r : BlockRule) (c : Fin 64),
    AtHead s k i e → c.val = coreOf k → blockRule i = some r → i.wf = true →
    (r.t = .c4 → bookUsable (vat (s.slot k).lane.b r.book (Vector.replicate 16 0)) = true) →
    (s.slot k).lane.vl.toNat ≤ r.limit (s.lenv k e) → (s.slot k).lane.vstart.toNat < (s.slot k).lane.vl.toNat →
    let n := s.lenv k e
    let vs := n.l.vstart.toNat
    let hi := min n.l.vl.toNat ((vs / r.group + 1) * r.group)
    ∃ u seed flags, exec (.issueOpportunity c) s = .next u ∧ OnlyLanes s u k ∧
      (∀ j, j < 16384 / (16 * r.t.bits) → BlockEncoded r n (u.slot k).lane vs hi j seed flags) ∧
      BlockFlags r n (u.slot k).lane vs hi seed flags ∧
      (∀ j, j ≠ r.d → vat (u.slot k).lane.v j VReg.reset = vat n.l.v j VReg.reset) ∧
      Marks r.t.bits (fun j p => j = r.d ∧ activeOfBlock n vs hi (p / 16) ≠ []) n.l (u.slot k).lane ∧
      (u.slot k).lane = { n.l with
        v := (u.slot k).lane.v, flags := (u.slot k).lane.flags, srseed := (u.slot k).lane.srseed
        vdirty := (u.slot k).lane.vdirty, vext := (u.slot k).lane.vext, vstart := (u.slot k).lane.vstart } ∧
      (hi = n.l.vl.toNat → (u.slot k).lane.vstart = 0 ∧ (u.slot k).queue = (s.slot k).queue.tail) ∧
      (hi < n.l.vl.toNat → (u.slot k).lane.vstart.toNat = hi)

/-- CBLD copies sixteen entries bit for bit into its codebook, whatever VL, VSTART and the mask (R130). -/
def Claims.CbldLoadsCodebook : Prop :=
  ∀ (s : State) (k : Nat) (b : Fin 8) (a : Fin 32) (e : Entry) (c : Fin 64),
    AtHead s k (.cbld b a) e → c.val = coreOf k →
    ∃ u, exec (.issueOpportunity c) s = .next u ∧ OnlyLanes s u k ∧ (u.slot k).queue = (s.slot k).queue.tail ∧
      (∀ j, j < 16 → (vat (vat (u.slot k).lane.b b.val (Vector.replicate 16 0)) j 0).toNat = (s.slot k).lane.rd a.val 16 j) ∧
      (∀ j, j ≠ b.val → vat (u.slot k).lane.b j (Vector.replicate 16 0) = vat (s.slot k).lane.b j (Vector.replicate 16 0)) ∧
      (u.slot k).lane = { (s.slot k).lane with b := (u.slot k).lane.b, vstart := 0 }

/-- CVTS and SCLD derive block scales and encode under them; CBLD loads a codebook bit for bit: its parts, each a definition above. -/
def Obligations.BlockScalesAndCodebooks : Prop :=
  Claims.BlockScalesFollowActiveElements ∧ Claims.CbldLoadsCodebook

/-- WMAC, ACCWR and DFMA write their accumulator elements group by group and set ADIRTY (R116, R156, R165, R168). The flags of a block
or DFMA sum with a NaN operand beside an invalid product are the model's reading (log 80), and so is what DFMA keeps of its products
below slice count 7 (log 12). -/
def Claims.AccumulatorWritersRun : Prop :=
  ∀ (s : State) (k : Nat) (i : Instr) (e : Entry) (r : AccRule) (c : Fin 64),
    AtHead s k i e → c.val = coreOf k → accRule i = some r → i.wf = true →
    (s.slot k).lane.vl.toNat ≤ r.limit (s.lenv k e) → (s.slot k).lane.vstart.toNat < (s.slot k).lane.vl.toNat →
    let n := s.lenv k e
    let vs := n.l.vstart.toNat
    let hi := min n.l.vl.toNat ((vs / r.group + 1) * r.group)
    ∃ u seed flags, exec (.issueOpportunity c) s = .next u ∧ OnlyLanes s u k ∧
      AccElements r n (u.slot k).lane vs hi seed flags ∧
      (hi = n.l.vl.toNat → (u.slot k).lane.vstart = 0 ∧ (u.slot k).queue = (s.slot k).queue.tail) ∧
      (hi < n.l.vl.toNat → (u.slot k).lane.vstart.toNat = hi)

/-- ACCZ clears every bit of its group, whatever VL, VSTART and the mask, sets ADIRTY and raises VEXT to the whole register; a group the
launch does not have is an illegal operand (R166, R258, R278). -/
def Claims.AcczClearsGroup : Prop :=
  ∀ (s : State) (k : Nat) (g : Fin 32) (e : Entry) (c : Fin 64),
    AtHead s k (.accz g) e → c.val = coreOf k →
    ((s.lenv k e).agrp ≤ g.val → (∀ q ∈ s.reqs, q.owner ≠ 4 * k) →
      ∃ u, exec (.issueOpportunity c) s = .next u ∧ LaneFault s u k .illegalOperand 0 e.pc 0 (s.slot k).lane.vstart) ∧
    (g.val < (s.lenv k e).agrp → ∃ u, exec (.issueOpportunity c) s = .next u ∧ OnlyLanes s u k ∧ (u.slot k).queue = (s.slot k).queue.tail ∧
      (∀ i, i < 256 → vat (u.slot k).lane.a i 0 = if i / 8 = g.val then 0 else vat (s.slot k).lane.a i 0) ∧
      (u.slot k).lane.adirty = (s.slot k).lane.adirty ||| 1#32 <<< g.val ∧
      (u.slot k).lane.vext.toNat = max (s.slot k).lane.vext.toNat (2 ^ (s.slot k).cap.toNat) ∧
      (u.slot k).lane = { (s.slot k).lane with
        a := (u.slot k).lane.a, adirty := (u.slot k).lane.adirty, vext := (u.slot k).lane.vext, vstart := 0 })

/-- ACCRD copies or converts accumulator elements into a register group (R164). -/
def Claims.AccrdReadsAccumulators : Prop := GroupsRun accrdRule

/-- A writer of accumulator elements with nothing left retires; a VL above its limit or a group the launch does not have is an illegal
operand (R11, R15, R103, R107, R116, R155, R168). That one with nothing left, as at VL = 0, still sets its ADIRTY bit is the model's
reading (log 28). -/
def Claims.AccumulatorEntriesAtTheirEdges : Prop :=
  ∀ (s : State) (k : Nat) (i : Instr) (e : Entry) (r : AccRule) (c : Fin 64),
    AtHead s k i e → c.val = coreOf k → accRule i = some r → i.wf = true →
    let l := (s.slot k).lane
    let most := r.limit (s.lenv k e)
    (0 < most → l.vl.toNat ≤ most → l.vl.toNat ≤ l.vstart.toNat →
      ∃ u, exec (.issueOpportunity c) s = .next u ∧ OnlyLanes s u k ∧
        (u.slot k).lane = { l with vstart := 0, adirty := l.adirty ||| 1#32 <<< r.g } ∧
        (u.slot k).queue = (s.slot k).queue.tail) ∧
    (most = 0 ∨ most < l.vl.toNat → (∀ q ∈ s.reqs, q.owner ≠ 4 * k) →
      ∃ u, exec (.issueOpportunity c) s = .next u ∧ LaneFault s u k .illegalOperand 0 e.pc 0 l.vstart)

/-- WMAC, ACCWR, DFMA, ACCRD and ACCZ act on the accumulators and set ADIRTY: its parts, each a definition above. -/
def Obligations.AccumulatorsAreWrittenAndRead : Prop :=
  Claims.AccumulatorWritersRun ∧ Claims.AcczClearsGroup ∧ Claims.AccrdReadsAccumulators ∧ Claims.AccumulatorEntriesAtTheirEdges

/-- A register form of MMA runs one k-block at a time over every active element of C (R159, R160). The flags of a block whose sum has a
NaN operand beside an invalid product are the model's reading (log 80). -/
def Claims.MmaRegisterFormsRunBlocks : Prop :=
  ∀ (s : State) (k : Nat) (i : Instr) (e : Entry) (t : Ty) (g blocks : Nat) (r : Nat → AccRule) (c : Fin 64),
    AtHead s k i e → c.val = coreOf k → mmaRule i = some (t, g, blocks, r) → i.wf = true →
    (s.slot k).lane.vl.toNat % 32 = 0 → (s.slot k).lane.vl.toNat ≤ perReg (s.slot k).cap.toNat t.bits →
    1024 ≤ perReg (s.slot k).cap.toNat t.bits → g < (s.lenv k e).agrp → (s.slot k).lane.vstart.toNat < blocks →
    let n := s.lenv k e
    let vs := n.l.vstart.toNat
    ∃ u seed flags, exec (.issueOpportunity c) s = .next u ∧ OnlyLanes s u k ∧
      AccElements (r vs) n (u.slot k).lane 0 n.l.vl.toNat seed flags ∧
      (vs + 1 = blocks → (u.slot k).lane.vstart = 0 ∧ (u.slot k).queue = (s.slot k).queue.tail) ∧
      (vs + 1 < blocks → (u.slot k).lane.vstart.toNat = vs + 1)

/-- A resident form of MMA runs one k-block over every active element of C, with B read from the set in its columns alone
(R159 to R162). The flags of a block whose sum has a NaN operand beside an invalid product are the model's reading (log 80). -/
def Claims.MmaResidentFormsRunBlocks : Prop :=
  ∀ (s : State) (k : Nat) (i : Instr) (e : Entry) (c : Fin 64) (t : Ty) (d m a q blocks : Nat) (zero : Bool)
    (bv : Nat → Nat → Nat × Nat),
    AtHead s k i e → c.val = coreOf k → mmaResidentOf i = some (t, d, m, a, q, blocks, zero) → i.wf = true →
    (s.slot k).lane.vl.toNat % 32 = 0 → (s.slot k).lane.vl.toNat ≤ perReg (s.slot k).cap.toNat t.bits →
    d < (s.lenv k e).agrp → q < (s.limits k).2.1 → ((s.slot k).reg q).lanesSee = true →
    ((s.slot k).reg q).desc.rtype = t → (∀ g, ((s.slot k).reg q).atHead = some g → g.landed = true) →
    (s.slot k).lane.vstart.toNat < blocks →
    let n := s.lenv k e
    let vs := n.l.vstart.toNat
    (∀ x kk, x < n.l.vl.toNat → n.l.gov x = true → kk < 32 →
      ResidentAt (s.slot k) q [((32 * vs + kk : Nat) : Int), ((x % 32 : Nat) : Int), 0, 0] (bv kk (x % 32)).1 (bv kk (x % 32)).2) →
    ∃ u seed flags, exec (.issueOpportunity c) s = .next u ∧ OnlyLanesAndStalls s u k ∧
      AccElements (mmaResidentElem t m d a vs zero ((s.slot k).reg q).desc.marg bv) n (u.slot k).lane 0 n.l.vl.toNat seed flags ∧
      (vs + 1 = blocks → (u.slot k).lane.vstart = 0 ∧ (u.slot k).queue = (s.slot k).queue.tail) ∧
      (vs + 1 < blocks → (u.slot k).lane.vstart.toNat = vs + 1)

/-- An MMA that R163 refuses is an illegal operand before any k-block, and a resident form whose register is not LIVE misses at the block
of VSTART, at its first element of the lowest column with an active element; one whose VSTART is at or above its k-blocks retires (R15,
R103, R162, R163, R206). That such a one still sets its ADIRTY bit is the model's reading (log 28). -/
def Claims.MmaEntriesAtTheirEdges : Prop :=
  ∀ (s : State) (k : Nat) (i : Instr) (e : Entry) (c : Fin 64) (t : Ty) (d blocks : Nat) (form : Option Nat),
    AtHead s k i e → c.val = coreOf k → mmaFormOf i = some (t, d, blocks, form) → i.wf = true →
    let l := (s.slot k).lane
    ((∀ r ∈ s.reqs, r.owner ≠ 4 * k) → mmaRefused s k e t d form →
      ∃ u, exec (.issueOpportunity c) s = .next u ∧ LaneFault s u k .illegalOperand 0 e.pc 0 l.vstart) ∧
    (∀ q col, (∀ r ∈ s.reqs, r.owner ≠ 4 * k) → ¬ mmaRefused s k e t d form → form = some q → l.vstart.toNat < blocks →
      ((s.slot k).reg q).lanesSee = false → (∃ x, x < l.vl.toNat ∧ l.gov x = true ∧ x % 32 = col) →
      (∀ x, x < l.vl.toNat → l.gov x = true → col ≤ x % 32) →
      ∃ u, exec (.issueOpportunity c) s = .next u ∧
        LaneFault s u k .residencyMiss 0 e.pc (BitVec.ofNat 64 (32 * l.vstart.toNat % 2 ^ 16 + col * 2 ^ 16)) l.vstart) ∧
    (¬ mmaRefused s k e t d form → blocks ≤ l.vstart.toNat →
      ∃ u, exec (.issueOpportunity c) s = .next u ∧ OnlyLanes s u k ∧
        (u.slot k).lane = { l with vstart := 0, adirty := l.adirty ||| 1#32 <<< d } ∧ (u.slot k).queue = (s.slot k).queue.tail)

/-- Every form of MMA runs one k-block at a time over the active elements of C, or traps as R163 says: its parts, each a definition above. -/
def Obligations.MmaRunsItsBlocks : Prop :=
  Claims.MmaRegisterFormsRunBlocks ∧ Claims.MmaResidentFormsRunBlocks ∧ Claims.MmaEntriesAtTheirEdges

/-- Every instruction that runs at the lanes and returns nothing enters the control queue: one entry with its scalar value,
VL, stage predicate and convoy, and the slice goes on at the next word (R24, R28, R62, R99). -/
def Claims.VectorInstructionsEnterQueue : Prop :=
  ∀ (s : State) (i : Instr), i.wf = true → entersQueue i = true → s.pushes →
    ∃ t e, exec i s = .next t ∧ s.onlySlot t s.cur ∧ Enters s.me i (scalarOf s.me i) s.me.svl e (t.slot s.cur) ∧
      (t.slot s.cur).x = s.me.x ∧ (t.slot s.cur).svl = s.me.svl ∧ (t.slot s.cur).swidth = s.me.swidth ∧
      (t.slot s.cur).share = s.me.share

/-- In a dead stage a scalar word has no effect but what decode raises: the slice goes on at the next word. A privileged one still
needs its privilege, and one that enters the queue still needs vector state (R77, R99, R258). -/
def Claims.DeadStagesSkipScalarWords : Prop :=
  ∀ (s : State) (i : Instr), s.me.stageLive = false →
    (∀ c, csrOf i = some c → privilegedCsrs.contains c = true ∨ openCsrs.contains c = true →
      (privilegedCsrs.contains c = true → s.me.tr.priv = true) → ((laneCsr s.me.lane c).isSome = true → s.me.tr.vu = true) →
      exec i s = .next (s.setMe s.me.onward)) ∧
    (∀ p, scalarWord i = some p → i.wf = true →
      ((p = true → s.me.tr.priv = true) → exec i s = .next (s.setMe s.me.onward)) ∧
      (p = true → s.me.tr.priv = false → s.trapsAtOnce →
        trapsHere i s .privilege 0 ((wordOf i).setWidth 64))) ∧
    (queueWord i = true → i.wf = true →
      (s.me.tr.vu = true → exec i s = .next (s.setMe s.me.onward)) ∧
      (s.me.tr.vu = false → s.trapsAtOnce → trapsHere i s .vectorUnavailable 0 ((wordOf i).setWidth 64)))

/-- Every vector word enters the control queue as one entry, and the slice goes on: its parts, each a definition above. -/
def Obligations.VectorInstructionsEnterQueue : Prop :=
  Claims.VectorInstructionsEnterQueue ∧ Claims.DeadStagesSkipScalarWords

/-- SETVL returns its grant at once and pushes it; in a dead stage it is pushed and does nothing else (R26, R87, R88, R99). -/
def Claims.SetvlGrantsVectorLength : Prop :=
  ∀ (s : State) (d a : Fin 32) (ty : Ty), (Instr.setvl d a ty).wf = true → s.pushes → s.me.cap.toNat ≤ 5 →
    ∃ t e, exec (.setvl d a ty) s = .next t ∧ s.onlySlot t s.cur ∧
      (s.me.stageLive = true →
        let n := grantFor s (s.me.rx a.val).toNat ty.setvlBits
        e.vl.toNat = n ∧ Enters s.me (.setvl d a ty) 0 e.vl e (t.slot s.cur) ∧ (t.slot s.cur).svl = e.vl ∧
          (t.slot s.cur).swidth = some ty ∧
          (∀ j, j < 32 → (t.slot s.cur).rx j = if j = d.val ∧ d.val ≠ 0 then BitVec.ofNat 64 n else s.me.rx j)) ∧
      (s.me.stageLive = false →
        Enters s.me (.setvl d a ty) 0 s.me.svl e (t.slot s.cur) ∧ (t.slot s.cur).x = s.me.x ∧
          (t.slot s.cur).svl = s.me.svl ∧ (t.slot s.cur).swidth = s.me.swidth ∧ (t.slot s.cur).share = s.me.share)

/-- A SETVL reaches the lanes in queue order: the lanes' VL becomes the grant and VSTART 0 (R24, R26, R88). -/
def Claims.SetvlReachesLanes : Prop :=
  ∀ (s : State) (k : Nat) (d a : Fin 32) (ty : Ty) (e : Entry) (c : Fin 64),
    AtHead s k (.setvl d a ty) e → c.val = coreOf k →
    ∃ u, exec (.issueOpportunity c) s = .next u ∧ OnlyLanes s u k ∧ (u.slot k).queue = (s.slot k).queue.tail ∧
      (u.slot k).lane = { (s.slot k).lane with vl := e.vl, vstart := 0 }

/-- SETVL returns its grant at the slice and sets VL at the lanes in queue order: its parts, each a definition above. -/
def Obligations.SetvlGrantsAndReachesLanes : Prop :=
  Claims.SetvlGrantsVectorLength ∧ Claims.SetvlReachesLanes

/-- MPOPC, MFIRST and VMOVE.EXT: the slice stalls with cause 2 until the lanes have the value, and goes on with it in x[d]
(R27, R86, R140, R149). -/
def Claims.BackFlowsReturnValues : Prop :=
  ∀ (s : State) (k : Fin 1024) (c : Fin 64) (i : Instr) (d : Nat) (v : X64),
    i.wf = true → s.cur = k.val → c.val = coreOf k.val → s.pushes → s.acts → s.lanesFree k.val → s.me.st = .run →
    s.me.queue = [] → s.me.phase = .fresh → s.me.lane.vstart = 0 → s.me.lane.vl.toNat ≤ 4096 → s.me.lane.femask = 0 →
    (∀ r ∈ s.reqs, r.owner ≠ 4 * k.val + 1) →
    (∀ e, backValue (s.lenv k.val e) i = some (d, v)) →
    ∃ t u r w, exec i s = .next t ∧ (t.slot k.val).st = .wait ∧ (t.slot k.val).cause = 2 ∧ (t.slot k.val).pc = s.me.pc ∧
      exec (.issueOpportunity c) t = .next u ∧ exec (.stallClears k) u = .next r ∧ exec i r = .next w ∧
      w.me = { s.me with
        x := if d = 0 then s.me.x else s.me.x.setIfInBounds d v
        pc := s.me.pc + 4, lastCv := none, cause := 0, bkPass := false, jumped := false, busy := false, cvVl := w.me.cvVl } ∧
      s.sameSlotsBut w k.val ∧ w.mem = s.mem

/-- A back-flow in a dead stage is pushed with its stage predicate 0 and not awaited (R27, R99). -/
def Claims.DeadBackFlowsGoOn : Prop :=
  ∀ (s : State) (i : Instr), i.wf = true → s.me.stageLive = false → s.pushes → s.me.phase = .fresh →
    (∀ n, (backValue n i).isSome = true) →
    ∃ t e, exec i s = .next t ∧ s.onlySlot t s.cur ∧ Enters s.me i 0 s.me.svl e (t.slot s.cur) ∧ (t.slot s.cur).x = s.me.x ∧
      (t.slot s.cur).svl = s.me.svl ∧ (t.slot s.cur).swidth = s.me.swidth ∧ (t.slot s.cur).share = s.me.share

/-- MPOPC, MFIRST and VMOVE.EXT stall until the lanes return their value: its parts, each a definition above. -/
def Obligations.BackFlowsReturnValues : Prop :=
  Claims.BackFlowsReturnValues ∧ Claims.DeadBackFlowsGoOn

/-- BR, BC and BC.CLR go to PC + 4 × offset, or on when the condition bit is not theirs; from the body of a live nest a target
outside it ends the nest. CALL also writes x31 (R93, R100). -/
def Obligations.BranchesGoToTheirTarget : Prop :=
  ∀ (s : State) (o : BitVec 20), s.untraced →
    let target := offsetFrom s.me.pc o
    (s.acts → exec (.br o) s = .next (s.setMe (s.me.branched target))) ∧
    (∀ c : Fin 16, s.acts → exec (.bc c o) s =
      .next (s.setMe (if vat s.me.c c.val false = true then s.me.branched target else s.me.onward))) ∧
    (∀ c : Fin 16, s.acts → exec (.bcClr c o) s =
      .next (s.setMe (if vat s.me.c c.val false = false then s.me.branched target else s.me.onward))) ∧
    (s.outsideNest → exec (.call o) s =
      .next (s.setMe { s.me.branched target with x := s.me.x.setIfInBounds 31 (s.me.pc + 4) }))

/-- JMP.RET goes to x31 and JMP.JR to x[d], word-aligned; another target raises the instruction-alignment trap with the target
in TVAL and the PC at the JMP (R94). -/
def Claims.JumpsGoToTheirRegister : Prop :=
  ∀ (s : State) (d : Fin 32), s.outsideNest →
    encode .jmpRet = [0xEE000000#32] ∧ encode (.jmpJr d) = [packU 0x77 1 d.val 0] ∧ encode (.jmpJr 6) = [0xEF300000#32] ∧
     (Instr.jmpRet).wf = true ∧ (Instr.jmpJr d).wf = true ∧
    ∀ i r, (i = .jmpRet ∧ r = 31 ∨ i = .jmpJr d ∧ r = d.val) →
      ((s.me.rx r).toNat % 4 = 0 → exec i s = .next (s.setMe { s.me.onward with pc := s.me.rx r, jumped := s.me.afterBody (s.me.rx r) })) ∧
      ((s.me.rx r).toNat % 4 ≠ 0 → s.trapsAtOnce → trapsHere i s .instructionAlignment 0 (s.me.rx r))

/-- LI.LO loads its sign-extended immediate; LI.HI shifts x[d] left by 19 and sets the low bits (R72). -/
def Claims.ImmediatesLoadIntoRegisters : Prop :=
  ∀ (s : State) (d : Fin 32) (i : BitVec 19), s.acts →
    exec (.liLo d i) s = .next (s.putX d.val (BitVec.ofInt 64 i.toInt)) ∧
    exec (.liHi d i) s = .next (s.putX d.val (BitVec.ofNat 64 ((s.me.rx d.val).toNat * 2 ^ 19 + i.toNat)))

/-- JMP goes to its register's target or raises the instruction-alignment trap; LI.LO and LI.HI load their immediates: its parts, each a definition above. -/
def Obligations.JumpsAndImmediates : Prop :=
  Claims.JumpsGoToTheirRegister ∧ Claims.ImmediatesLoadIntoRegisters

/-- WORKID reads field i of the thread's work identifier, zero-extended, or for i = 6 all of it; nothing in a dead stage
(R287). -/
def Obligations.WorkidReadsIdentifier : Prop :=
  ∀ (s : State) (d : Fin 32) (i : Fin 7),
    encode (.workid 6 0) = [0xF40C0000#32] ∧ encode (.workid 5 1) = [0xF40A0001#32] ∧
    encode (.workid d i) = [packK 0x7A 0 d.val 0 0 0 i.val] ∧
    (∀ sc a b sel m, sc < 8 → a < 32 → b < 32 → sel < 8 → m < 16 → sc ≠ 0 ∨ a ≠ 0 ∨ b ≠ 0 ∨ sel ≠ 0 ∨ 7 ≤ m →
      decode (packK 0x7A sc d.val a b sel m) = .error .undefined) ∧
    (s.me.stageLive = false → exec (.workid d i) s = .next (s.setMe s.me.onward)) ∧
    (s.acts → i.val = 6 → exec (.workid d i) s = .next (s.putX d.val s.me.workId)) ∧
    (∀ (n : Nat) (c : Ctx), s.acts → i.val < 6 → s.me.ctx = some n → s.ctxOf (some n) = some c →
      let lo := (List.range i.val).foldl (fun acc j => acc + c.widths.getD j 0) 0
      exec (.workid d i) s =
        .next (s.putX d.val (BitVec.ofNat 64 (s.me.workId.toNat / 2 ^ lo % 2 ^ c.widths.getD i.val 0))))

/-- LOOP sets its counters to zero, with an event when one of them was not, and opens the nest or, with no pass to make, goes
past the body; a trip count of more than 32 bits and more than 2^47 passes are illegal operands (R95, R98, R101). -/
def Claims.LoopOpensNest : Prop :=
  ∀ (s : State) (n : Fin 8) (x : Fin 32) (l : Fin 64) (u : Fin 4),
    (Instr.loop n x l u).wf = true → s.outsideNest → s.untraced →
    let sl := s.me
    let ts : Nat → Nat := fun i => (sl.rx (x.val + i)).toNat
    let total := (List.range n.val).foldl (fun acc i => acc * ts i) 1
    let moved : Nat → Bool := fun j => decide (j < n.val) && decide (vat sl.k j 0 ≠ 0)
    let zeroed := zeroedBy sl n.val
    ((∃ i, i < n.val ∧ 2 ^ 32 ≤ ts i) ∨ 2 ^ 47 < total → s.trapsAtOnce → trapsHere (.loop n x l u) s .illegalOperand 0 0) ∧
    ((∀ i, i < n.val → ts i < 2 ^ 32) → total ≤ 2 ^ 47 → ((∃ j, moved j = true) → sl.emits) →
      ∃ t sl', exec (.loop n x l u) s = .next t ∧ t = s.setMe sl' ∧
        ((∀ j, moved j = false) → sl'.queue = sl.queue ∧ sl'.lastCv = sl.lastCv) ∧
        ((∃ j, moved j = true) → ∃ named, (∀ j, j < 6 → named.getLsbD j = moved j) ∧
          sl'.queue = sl.queue ++ [eventEntry sl named 3 0 sl.pc] ∧ sl'.lastCv = some (eventEntry sl named 3 0 sl.pc)) ∧
        sl' = loopDone sl { sl with k := zeroed, queue := sl'.queue, lastCv := sl'.lastCv } n.val l.val u.val ts)

/-- The end of a pass counts up with carry and emits an event while passes of the nest remain; then the next pass begins at
NBODY, or the nest ends after the last epilogue pass (R96, R98). -/
def Claims.PassEndCountsAndReplays : Prop :=
  ∀ (s : State) (k : Fin 1024) (i : Nat),
    let sl := s.slot k.val
    let nest := sl.nest
    let more := nest.npass.toNat + 1 < nest.total
    sl.endsPass i → { s with cur := k.val }.untraced → (more → sl.emits) →
    let e := eventEntry sl (BitVec.ofNat 6 (2 ^ (i + 1) - 1)) 0 0 (nest.nbody - 4)
    exec (.passEnd k) s = .next ({ s with cur := k.val }.setMe (passDone sl (if more then sl.emitted (carried sl i) e else sl)))

/-- KRD reads a counter; KADV adds one and KSET sets it, each with one event that names the counter alone (R102). -/
def Claims.CounterInstructionsAct : Prop :=
  ∀ (s : State) (k : Fin 6) (r : Fin 32),
    encode (.kadv 2) = [0xE2800000#32] ∧ encode (.krd 0 7) = [0xE40E0000#32] ∧ encode (.kset 1 9) = [0xE6520000#32] ∧
    (s.acts → exec (.krd k r) s = .next (s.putX r.val (BitVec.ofNat 64 (vat s.me.k k.val 0).toNat))) ∧
    (s.outsideNest → s.untraced → s.me.emits →
      let one := BitVec.ofNat 6 (2 ^ k.val)
      let ka := vat s.me.k k.val 0 + 1
      let kb := BitVec.ofNat 32 (s.me.rx r.val).toNat
      exec (.kadv k) s =
        .next (s.setMe (s.me.emitted (s.me.k.setIfInBounds k.val ka) (eventEntry s.me one 1 0 s.me.pc)).onward) ∧
      exec (.kset k r) s =
        .next (s.setMe (s.me.emitted (s.me.k.setIfInBounds k.val kb) (eventEntry s.me one 2 kb.toNat s.me.pc)).onward))

/-- Before a counter event the slice stalls with cause 5 while a live register that it advances has as many unlanded deliveries as
its depth; otherwise each of them is given its next delivery under the new counters, whose bit of LANDED is clear, and no other
register changes: the events of KADV and KSET, of a LOOP that sets counters to zero and of the end of a pass (R96, R97, R102, R182, R185). -/
def Claims.EventsCreateDeliveries : Prop :=
  (∀ (s : State) (k : Fin 6) (r : Fin 32) (i : Instr) (ks : Vector (BitVec 32) 6) (kind value : Nat),
    let one := BitVec.ofNat 6 (2 ^ k.val)
    let kb := BitVec.ofNat 32 (s.me.rx r.val).toNat
    (i = .kadv k ∧ ks = s.me.k.setIfInBounds k.val (vat s.me.k k.val 0 + 1) ∧ kind = 1 ∧ value = 0 ∨
      i = .kset k r ∧ ks = s.me.k.setIfInBounds k.val kb ∧ kind = 2 ∧ value = kb.toNat) →
    s.outsideNest → s.untraced →
    (s.me.deep one → exec i s = .next (s.setMe (s.me.depthStall one))) ∧
    (s.me.advances one →
      ∃ t, exec i s = .next t ∧ Delivered s.me (t.slot s.cur) one ks s.me.pc ∧
        t = s.setMe { (s.me.emitted ks (eventEntry s.me one kind value s.me.pc)).onward with
          q := (t.slot s.cur).q, landed := (t.slot s.cur).landed })) ∧
  (∀ (s : State) (n : Fin 8) (x : Fin 32) (l : Fin 64) (u : Fin 4) (named : BitVec 6),
    let ts : Nat → Nat := fun i => (s.me.rx (x.val + i)).toNat
    let ks := zeroedBy s.me n.val
    (Instr.loop n x l u).wf = true → s.outsideNest → s.untraced → (∀ i, i < n.val → ts i < 2 ^ 32) →
    (List.range n.val).foldl (fun acc i => acc * ts i) 1 ≤ 2 ^ 47 →
    named ≠ 0 → (∀ j, j < 6 → named.getLsbD j = (decide (j < n.val) && decide (vat s.me.k j 0 ≠ 0))) →
    (s.me.deep named → exec (.loop n x l u) s = .next (s.setMe (s.me.depthStall named))) ∧
    (s.me.advances named →
      ∃ t, exec (.loop n x l u) s = .next t ∧ Delivered s.me (t.slot s.cur) named ks s.me.pc ∧
        t = s.setMe { loopDone s.me (s.me.emitted ks (eventEntry s.me named 3 0 s.me.pc)) n.val l.val u.val ts with
          q := (t.slot s.cur).q, landed := (t.slot s.cur).landed })) ∧
  (∀ (s : State) (k : Fin 1024) (i : Nat),
    let here := { s with cur := k.val }
    let sl := s.slot k.val
    let named := BitVec.ofNat 6 (2 ^ (i + 1) - 1)
    let ks := carried sl i
    let pc := sl.nest.nbody - 4
    sl.endsPass i → sl.nest.npass.toNat + 1 < sl.nest.total → here.untraced →
    (sl.deep named → exec (.passEnd k) s = .next (here.setMe (sl.depthStall named))) ∧
    (sl.advances named →
      ∃ t, exec (.passEnd k) s = .next t ∧ Delivered sl (t.slot k.val) named ks pc ∧
        t = here.setMe { passDone sl (sl.emitted ks (eventEntry sl named 0 0 pc)) with
          q := (t.slot k.val).q, landed := (t.slot k.val).landed }))

/-- Without vector state a counter event changes the counters and pushes nothing, whatever the queue and the registers hold: KADV, KSET,
a LOOP and the end of a pass (R95, R96, R102, R258). -/
def Claims.EventsWithoutVectorState : Prop :=
  ∀ (s : State) (k : Fin 6) (r : Fin 32) (n : Fin 8) (x : Fin 32) (l : Fin 64) (u : Fin 4) (j : Fin 1024) (i : Nat),
    (s.outsideNest → s.me.tr.vu = false →
      let ts : Nat → Nat := fun i => (s.me.rx (x.val + i)).toNat
      exec (.kadv k) s =
        .next (s.setMe { s.me with k := s.me.k.setIfInBounds k.val (vat s.me.k k.val 0 + 1) }.onward) ∧
      exec (.kset k r) s =
        .next (s.setMe { s.me with k := s.me.k.setIfInBounds k.val (BitVec.ofNat 32 (s.me.rx r.val).toNat) }.onward) ∧
      ((Instr.loop n x l u).wf = true → (∀ i, i < n.val → ts i < 2 ^ 32) →
        (List.range n.val).foldl (fun acc i => acc * ts i) 1 ≤ 2 ^ 47 →
        exec (.loop n x l u) s =
          .next (s.setMe (loopDone s.me { s.me with k := zeroedBy s.me n.val } n.val l.val u.val ts)))) ∧
    (let sl := s.slot j.val
     sl.endsPass i → sl.tr.vu = false →
      exec (.passEnd j) s = .next ({ s with cur := j.val }.setMe
        (passDone sl { sl with k := if sl.nest.npass.toNat + 1 < sl.nest.total then carried sl i else sl.k })))

/-- Nothing that would push a counter event runs while the queue is frozen: KADV, KSET, a LOOP that zeroes a counter and the end of a
pass are illegal operands, which make a context with INH = 1 FAULTED (R102, R254, R256). That R256 covers these four, and that EPC is then
the address of the pass's end, are the model's reading (log 50). -/
def Claims.FrozenQueuesHoldEvents : Prop :=
  ∀ (s : State) (k : Fin 6) (r : Fin 32) (i : Instr) (j : Fin 1024),
    let frozen (sl : Slot) : Prop := sl.tr.vu = true ∧ sl.tr.froz = true
    let faulted (t : State) (n : Nat) : Prop := (s.coreAt (coreOf n)).waiting.contains n = false → s.sameSlotsBut t n ∧
      t.slot n = { s.slot n with st := .stop, prev := (s.slot n).st, cst := .faulted, pend := none, cause := 0 }
    (i = .kadv k ∨ i = .kset k r ∨
      ∃ n x l u, i = .loop n x l u ∧ i.wf = true ∧ (∀ a, a < n.val → (s.me.rx (x.val + a)).toNat < 2 ^ 32) ∧
        (List.range n.val).foldl (fun acc a => acc * (s.me.rx (x.val + a)).toNat) 1 ≤ 2 ^ 47 ∧
        ∃ a, a < 6 ∧ a < n.val ∧ vat s.me.k a 0 ≠ 0) →
    (s.outsideNest → frozen s.me →
      (s.trapsAtOnce → trapsHere i s .illegalOperand 0 0) ∧
      (s.me.tr.inh = true → s.untraced → ∃ t, exec i s = .next t ∧ faulted t s.cur)) ∧
    (let sl := s.slot j.val
     let here := { s with cur := j.val }
     frozen sl → sl.st = .run → sl.jumped = false → sl.nest.act = true → sl.nest.own = sl.tr.inh → sl.nest.npass.toNat + 1 < sl.nest.total →
      sl.pc = sl.nest.nbody + 4 * BitVec.ofNat 64 (sl.nest.lenm1.toNat + 1) →
      (here.trapsAtOnce → exec (.passEnd j) s = .next (here.setMe (sl.trapped .illegalOperand 0 0 sl.pc))) ∧
      (sl.tr.inh = true → here.untraced → ∃ t, exec (.passEnd j) s = .next t ∧ faulted t j.val))

/-- LOOP opens a nest, a pass end counts and replays, KRD, KADV and KSET act on the counters and create deliveries: its parts, each a definition above. -/
def Obligations.LoopsCountTheirPasses : Prop :=
  Claims.LoopOpensNest ∧ Claims.PassEndCountsAndReplays ∧ Claims.CounterInstructionsAct ∧ Claims.EventsCreateDeliveries ∧ Claims.EventsWithoutVectorState ∧ Claims.FrozenQueuesHoldEvents

/-- What the slice refuses at decode traps with the word in TVAL, in any stage: a CSR number that does not exist, LOOP, CALL,
JMP, KADV and KSET in the body of a live nest, a privileged instruction in user mode, an illegal type, an element-granular
move of a scaled type (R5, R74, R77, R99, R100, R253, R254). -/
def Claims.RefusedWordsTrapAtDecode : Prop :=
  ∀ (s : State) (i : Instr) (code : TrapCode),
    (i.encodable = true ∨ (csrwOf i).isSome = true) → sliceTrapOf s i = some code → s.trapsAtOnce →
    trapsHere i s code 0 ((sliceWord i).setWidth 64)

/-- Without vector state a vector word traps with VECTOR-UNAVAILABLE, at a frozen queue with ILLEGAL-OPERAND, and at a full
queue the slice stalls with cause 1 (R24, R86, R256, R258). -/
def Claims.VectorWordsNeedTheQueue : Prop :=
  ∀ (s : State) (i : Instr), i.wf = true → entersQueue i = true →
    (s.me.tr.vu = false → s.trapsAtOnce → trapsHere i s .vectorUnavailable 0 ((wordOf i).setWidth 64)) ∧
    (s.me.tr.vu = true → s.me.tr.froz = true → s.trapsAtOnce → trapsHere i s .illegalOperand 0 0) ∧
    (s.me.tr.vu = true → s.me.tr.froz = false → 64 ≤ s.me.queue.length →
      exec i s = .next (s.setMe { s.me with st := .wait, cause := 1, busy := true }))

/-- What decode refuses traps with its code and word; vector words need vector state and room in the queue: its parts, each a definition above. -/
def Obligations.RefusedWordsTrap : Prop :=
  Claims.RefusedWordsTrapAtDecode ∧ Claims.VectorWordsNeedTheQueue

/-- TRAP and SVC enter the handler: saved PC, value and status are written, the slice is privileged with INH = 1 at TVEC, and
it returns behind them (R252, R254, R265). -/
def Claims.TrapAndSvcEnterHandler : Prop :=
  ∀ (s : State) (n : BitVec 11), s.acts → s.trapsAtOnce →
    encode (.trap 5) = [0xFE000005#32] ∧ encode (.svc 12) = [0xFE20000C#32] ∧
    exec (.trap n) s = .next (s.setMe (s.me.trapped .trap 0 (BitVec.ofNat 64 n.toNat) (s.me.pc + 4))) ∧
    exec (.svc n) s = .next (s.setMe (s.me.trapped .svc 0 (BitVec.ofNat 64 n.toNat) (s.me.pc + 4)))

/-- With entries in the queue the slot drains first with cause 6, and the trap enters once the queue is empty; with INH = 1 the
slot stops and its context is FAULTED, every register as it was (R77, R85, R250, R254). -/
def Claims.TrapsDrainOrFault : Prop :=
  ∀ (s : State) (n : BitVec 11) (k : Fin 1024) (p : PendTrap),
    (s.acts → s.drainsFirst →
      exec (.svc n) s = .next (s.setMe { s.me with
        st := .drain, cause := 6
        pend := some { code := .svc, kind := 0, lane := false, epc := s.me.pc, tval := BitVec.ofNat 64 n.toNat
                       rpc := s.me.pc + 4 } })) ∧
    ((s.slot k.val).st = .drain → (s.slot k.val).queue = [] → (s.slot k.val).pend = some p → p.lane = false →
      p.code ≠ .preempt → p.code ≠ .resume → p.epc = (s.slot k.val).pc → (s.slot k.val).tr.inh = false →
      bitAt (s.coreAt (coreOf k.val)).dbg.trctl 0 = false →
      exec (.trapEntry k) s = .next (s.setSlot k.val ((s.slot k.val).trapped p.code p.kind p.tval p.rpc))) ∧
    (s.acts → s.me.tr.inh = true → s.me.queue = [] → ∃ t, exec (.svc n) s = .next t ∧ s.sameSlotsBut t s.cur ∧
      t.slot s.cur = { s.me with st := .stop, prev := s.me.st, cst := .faulted, pend := none, cause := 0 })

/-- ERET restores the privilege, ends the handler and goes on at RPC; a dormant nest of INH = 0 is live again (R101, R251,
R265). -/
def Claims.EretReturns : Prop :=
  ∀ (s : State), s.acts → s.me.tr.priv = true → ∃ t, exec .eret s = .next t ∧ s.sameSlotsBut t s.cur ∧
    (s.me.ctx = none → s.sameMemory t) ∧
    t.slot s.cur = { s.me.onward with
      pc := s.me.tr.rpc, cst := if s.me.cst = .preempting then .running else s.me.cst
      tr := { s.me.tr with priv := s.me.tr.ppriv, inh := false, froz := false } }

/-- TRAP, SVC and pending traps enter the handler with everything saved; ERET returns; INH = 1 faults the context: its parts, each a definition above. -/
def Obligations.TrapsEnterAndReturn : Prop :=
  Claims.TrapAndSvcEnterHandler ∧ Claims.TrapsDrainOrFault ∧ Claims.EretReturns

/-- CSRR reads its register into x[d]: one of the lanes once every earlier entry has retired, or at a frozen queue at once, and
without vector state not at all; a count of lane-cycles has a value the model leaves open (log 4) (R5, R17, R18, R27, R79, R91,
R188, R256, R258, R265, R327). -/
def Claims.CsrrReadsItsRegister : Prop :=
  ∀ (s : State) (d : Fin 32) (c : BitVec 11) (v : X64),
    s.acts → (privilegedCsrs.contains c.toNat = true → s.me.tr.priv = true) →
    (sliceCsrValue s s.me c.toNat = some v → exec (.csrr d c) s = .next (s.putX d.val v)) ∧
    (laneCsr s.me.lane c.toNat = some v → s.me.tr.vu = true → s.me.queue = [] ∨ s.me.tr.froz = true →
      exec (.csrr d c) s = .next (s.putX d.val v)) ∧
    (laneCsr s.me.lane c.toNat = some v → s.me.tr.vu = true → s.me.queue ≠ [] → s.me.tr.froz = false →
      exec (.csrr d c) s = .next (s.setMe { s.me with st := .wait, cause := 2, busy := true })) ∧
    ((laneCsr s.me.lane c.toNat).isSome = true → s.me.tr.vu = false → s.trapsAtOnce →
      trapsHere (.csrr d c) s .vectorUnavailable 0 ((wordOf (.csrr d c)).setWidth 64)) ∧
    (0x050 ≤ c.toNat → c.toNat < 0x055 →
      ∃ n, exec (.csrr d c) s = .next ({ s with free := s.free + 1 }.putX d.val n))

/-- CSRW writes a register of the slice in program order, VLCAP once the queue is empty and RLATE in its core; a value that its
field does not support changes nothing and traps (R18, R21, R90, R101, R188, R247, R251, R263, R265, R327, R357). -/
def Claims.CsrwWritesSliceRegister : Prop :=
  ∀ (s : State) (i : Instr) (a c : Nat) (r : Option Slot),
    s.acts → csrwOf i = some (a, c) → (privilegedCsrs.contains c = true → s.me.tr.priv = true) →
    (c = 0x100 → s.me.queue ≠ [] → exec i s = .next (s.setMe { s.me with st := .wait, cause := 7, busy := true })) ∧
    (c = 0x111 → exec i s = .next ((s.modCore (coreOf s.cur) fun x => { x with rlate := s.me.rx a }).setMe s.me.onward)) ∧
    ((c = 0x100 → s.me.queue = []) →
      sliceCsrSet s.me (s.clusterAt (clusterOf s.cur)).energy (s.me.rx a) c = some r →
      (∀ sl, r = some sl → exec i s = .next (s.setMe sl.onward)) ∧
      (r = none → s.trapsAtOnce → trapsHere i s .illegalOperand 0 0))

/-- CSRW of a lane-state register enters the queue and takes effect at the lanes, where an unsupported value changes nothing and
raises a lane fault, which is the model's reading of where it is judged (log 27); at a frozen queue it takes effect or traps at
once; at a full queue the slice stalls, and without vector state it traps (R18, R19, R20, R24, R86, R256, R258, R288). -/
def Claims.CsrwWritesLaneRegister : Prop :=
  ∀ (s : State) (i : Instr) (a c : Nat),
    s.acts → csrwOf i = some (a, c) → (privilegedCsrs.contains c = true → s.me.tr.priv = true) →
    (laneCsr s.me.lane c).isSome = true →
    (s.me.tr.vu = false → s.trapsAtOnce → trapsHere i s .vectorUnavailable 0 ((sliceWord i).setWidth 64)) ∧
    (s.me.tr.vu = true → s.me.tr.froz = false → 64 ≤ s.me.queue.length →
      exec i s = .next (s.setMe { s.me with st := .wait, cause := 1, busy := true })) ∧
    (s.me.tr.vu = true → s.me.tr.froz = false → s.me.queue.length < 64 →
      ∃ t e, exec i s = .next t ∧ s.onlySlot t s.cur ∧
        t.slot s.cur = { s.me.onward with queue := s.me.queue ++ [e], lastCv := some e } ∧
        e.kind = .instr ∧ e.ins = none ∧ e.word = sliceWord i ∧ e.scalar = s.me.rx a ∧ e.p = true) ∧
    (s.me.tr.vu = true → s.me.tr.froz = true →
      (∀ l, laneCsrSet s.me.lane (s.me.rx a) c = some l → exec i s = .next (s.setMe { s.me.onward with lane := l })) ∧
      (laneCsrSet s.me.lane (s.me.rx a) c = none → s.trapsAtOnce → trapsHere i s .illegalOperand 0 0)) ∧
    (∀ (k : Nat) (e : Entry) (core : Fin 64), s.lanesFree k → core.val = coreOf k →
      (s.slot k).queue.head? = some e → e.kind = .instr → e.ins = none → e.p = true → e.word = sliceWord i →
      (∀ l, laneCsrSet (s.slot k).lane e.scalar c = some l →
        ∃ u, exec (.issueOpportunity core) s = .next u ∧ OnlyLanes s u k ∧ (u.slot k).lane = l ∧
          (u.slot k).queue = (s.slot k).queue.tail) ∧
      (laneCsrSet (s.slot k).lane e.scalar c = none → (∀ q ∈ s.reqs, q.owner ≠ 4 * k) →
        ∃ u, exec (.issueOpportunity core) s = .next u ∧
          LaneFault s u k .illegalOperand 0 e.pc 0 (s.slot k).lane.vstart))

/-- CSRR reads every register, CSRW writes those of the slice and of the lanes, and unsupported values trap: its parts, each a definition above. -/
def Obligations.ControlRegistersAreReadAndWritten : Prop :=
  Claims.CsrrReadsItsRegister ∧ Claims.CsrwWritesSliceRegister ∧ Claims.CsrwWritesLaneRegister

/-- LDS reads 1 to 8 bytes at x[a] + x[b], dirty scalar bytes first, and extends them into x[d]; nothing of memory changes
(R3, R31, R221). -/
def Claims.ScalarLoadsReadMemory : Prop :=
  ∀ (s : State) (i : Instr) (n : Nat) (sg : Bool) (d a b : Fin 32),
    loadOf i = some (n, sg, d, a, b) → s.acts → s.reaches s.cur (s.me.rx a.val + s.me.rx b.val) n →
    let v := s.seenNat (physOf (s.me.rx a.val + s.me.rx b.val)) n
    ∃ t, exec i s = .next t ∧ t = { s.putX d.val (extended sg (8 * n) v) with cores := t.cores } ∧
      (∀ c, t.coreAt c = { s.coreAt c with pieces := (t.coreAt c).pieces })

/-- STS stores the low 1 to 8 bytes of x[d] at x[a] + x[b]; every other byte stays as it was seen, and the store stays dirty in
the core's data L1. When every line of that L1 is dirty, one of them goes to memory first (R2, R3, R31, R221; that it is one line,
and which one is free, is the model's choice, log 85). -/
def Claims.ScalarStoresWriteMemory : Prop :=
  ∀ (s : State) (i : Instr) (n : Nat) (d a b : Fin 32),
    storeOf i = some (n, d, a, b) → s.acts → s.reaches s.cur (s.me.rx a.val + s.me.rx b.val) n →
    let pa := physOf (s.me.rx a.val + s.me.rx b.val)
    ∃ t, exec i s = .next t ∧
      t = { s.setMe s.me.onward with cores := t.cores, mem := t.mem, free := t.free } ∧
      (∀ c, t.coreAt c = { s.coreAt c with l1 := (t.coreAt c).l1, pieces := (t.coreAt c).pieces }) ∧
      (∀ j, j < n → t.seen (pa + j) = byteOf (s.me.rx d.val).toNat j) ∧
      (∀ x, x < pa ∨ pa + n ≤ x → s.dirtyOnce x → t.seen x = s.seen x) ∧
      ((s.coreAt (coreOf s.cur)).hasRoom pa →
        t.mem = s.mem ∧ t.free = s.free ∧ ∀ x, x < pa ∨ pa + n ≤ x → t.seen x = s.seen x) ∧
      (∀ x, s.dirtyOnce x → t.dirtyOnce x)

/-- A scalar access whose size does not divide its address traps with MISALIGNED, one beyond bit 56 with PAGE-FAULT; TVAL
holds the address, KIND the access, and nothing is written (R221, R222, R240, R253). -/
def Claims.ScalarAccessesTrapPrecisely : Prop :=
  ∀ (s : State) (i : Instr) (n kind : Nat) (va : X64),
    ((∃ sg d a b, loadOf i = some (n, sg, d, a, b) ∧ kind = 0 ∧ va = s.me.rx a.val + s.me.rx b.val) ∨
      (∃ d a b, storeOf i = some (n, d, a, b) ∧ kind = 1 ∧ va = s.me.rx a.val + s.me.rx b.val) ∨
      (∃ d a t f, atomicOf i = some (d, a, t, f) ∧ i.wf = true ∧ n = t.bits / 8 ∧ kind = 2 ∧ va = s.me.rx a.val)) →
    s.acts → s.trapsAtOnce → s.reqs = [] →
    (va.toNat % n ≠ 0 → trapsHere i s .misaligned kind va) ∧
    (va.toNat % n = 0 → 2 ^ 57 ≤ va.toNat → trapsHere i s .pageFault kind va)

/-- LDS, STS: the bytes read and stored, every other byte as it was, and precise traps: its parts, each a definition above. -/
def Obligations.ScalarAccessesReachMemory : Prop :=
  Claims.ScalarLoadsReadMemory ∧ Claims.ScalarStoresWriteMemory ∧ Claims.ScalarAccessesTrapPrecisely

/-- An atomic reads the old value into x[d], leaves the new one in memory in one step, and changes no other byte (R222,
R223). -/
def Obligations.AtomicsUpdateOnce : Prop :=
  ∀ (s : State) (i : Instr) (d a : Fin 32) (t : Ty) (f : Slot → Nat → Option Nat),
    atomicOf i = some (d, a, t, f) → i.wf = true → s.acts → s.reaches s.cur (s.me.rx a.val) (t.bits / 8) → s.plain →
    s.me.tr.froz = true ∨ s.me.queue = [] → s.me.written →
    let n := t.bits / 8
    let pa := physOf (s.me.rx a.val)
    let old := memNat s.mem pa n
    ∃ u, exec i s = .next u ∧ u.slot s.cur = (s.me.wx d.val (extended t.isSigned t.bits old)).onward ∧ s.sameSlotsBut u s.cur ∧
      (∀ c, u.coreAt c = { s.coreAt c with pieces := (u.coreAt c).pieces }) ∧
      (∀ j, j < n → Memory.read u.mem (pa + j) = byteOf ((f s.me old).getD old) j) ∧
      (∀ x, x < pa ∨ pa + n ≤ x → Memory.read u.mem x = Memory.read s.mem x) ∧
      u = { s with slots := u.slots, cores := u.cores, mem := u.mem }

/-- FENCE.SV and FENCE.VV push a marker without a stall, SV after writing the dirty scalar bytes back; FENCE.VS stalls with cause
2 while an entry is left and then goes on (R27, R86, R231). -/
def Claims.FencesOrderAccesses : Prop :=
  ∀ (s : State) (sc : Scope), s.acts →
    encode (.fenceSv .thread) = [0xCC000000#32] ∧ encode (.fenceVs .core) = [0xCC400001#32] ∧
    encode (.fenceVv .device) = [0xCCC00002#32] ∧ encode (.fenceAll .system) = [0xCD000003#32] ∧
    (s.pushes → s.cur < 1024 → ∃ t, exec (.fenceSv sc) s = .next t ∧ WrittenBack s t (coreOf s.cur) ∧
      t = { s.setMe (s.me.marked (wordOf (.fenceSv sc))).onward with cores := t.cores, mem := t.mem }) ∧
    (s.pushes → exec (.fenceVv sc) s = .next (s.setMe (s.me.marked (wordOf (.fenceVv sc))).onward)) ∧
    (s.me.tr.vu = true → s.me.tr.froz = false → s.me.queue = [] → exec (.fenceVs sc) s = .next (s.setMe s.me.onward)) ∧
    (s.me.tr.vu = true → s.me.tr.froz = false → s.me.queue ≠ [] →
      exec (.fenceVs sc) s = .next (s.setMe { s.me with st := .wait, cause := 2, busy := true }))

/-- FENCE.ALL writes the dirty scalar bytes back, pushes its marker and stalls; once the lanes have acknowledged the marker it
goes on (R27, R231). -/
def Claims.FenceAllAwaitsItsMarker : Prop :=
  ∀ (s : State) (k : Fin 1024) (c : Fin 64) (sc : Scope),
    s.cur = k.val → c.val = coreOf k.val → s.acts → s.pushes → s.me.phase = .fresh →
    ∃ t, exec (.fenceAll sc) s = .next t ∧ WrittenBack s t (coreOf s.cur) ∧
      t = { s.setMe { s.me.marked (wordOf (.fenceAll sc)) with st := .wait, cause := 2, busy := true, phase := .pushed 0 } with
        cores := t.cores, mem := t.mem } ∧
      (t.lanesFree k.val → s.me.queue = [] → s.flushes (coreOf s.cur) →
        ∃ u r w, exec (.issueOpportunity c) t = .next u ∧ exec (.stallClears k) u = .next r ∧
          exec (.fenceAll sc) r = .next w ∧ w.me = { s.me.onward with lastCv := none, cvVl := w.me.cvVl, fences := s.me.fences + 1 } ∧
          s.sameSlotsBut w k.val ∧ w.mem = t.mem)

/-- The four fences push their markers, write dirty bytes back and stall as R231 says: its parts, each a definition above. -/
def Obligations.FencesOrderAccesses : Prop :=
  Claims.FencesOrderAccesses ∧ Claims.FenceAllAwaitsItsMarker

/-- LDR and LDRX load the active elements of one element group from the loft copy of their set, scales included, and change no
other element, no memory and no set (R203, R205, R206). -/
def Claims.ResidentLoadsReadTheSet : Prop :=
  ∀ (s : State) (k : Nat) (i : Instr) (e : Entry) (c : Fin 64) (d : Fin 32) (q : Fin 16) (t : Ty) (ix : Option Nat)
    (v scale : Nat → Nat),
    AtHead s k i e → c.val = coreOf k → residentOf i = some (false, d, q, t, ix) → i.wf = true →
    ResidentReady s k e false q.val t ix → (s.slot k).lane.vstart.toNat < (s.slot k).lane.vl.toNat →
    let n := s.lenv k e
    let lo := n.l.vstart.toNat
    let hi := groupEnd n.l (groupWidth t ix)
    (∀ x, lo ≤ x → x < hi → n.l.gov x = true → ResidentAt (s.slot k) q.val (offsetsOf n ix x) (v x) (scale x)) →
    (t.isBlock = true → ∀ x y, x / 16 = y / 16 → scale x = scale y) → (∀ x, scale x < 256) →
    ∃ u, exec (.issueOpportunity c) s = .next u ∧ OnlyLanesAndStalls s u k ∧
      LoadedInto n (u.slot k).lane d.val t lo hi v scale ∧ Advanced s u k hi

/-- STR and STRX store the active elements of one element group into the loft copy and mark them dirty; of two that name one
element the higher remains, and no other element of the set, no lane and no memory changes (R184, R203, R206). -/
def Claims.ResidentStoresWriteTheSet : Prop :=
  ∀ (s : State) (k : Nat) (i : Instr) (e : Entry) (c : Fin 64) (d : Fin 32) (q : Fin 16) (t : Ty) (ix : Option Nat)
    (co : Nat → List Int),
    AtHead s k i e → c.val = coreOf k → residentOf i = some (true, d, q, t, ix) → i.wf = true →
    ResidentReady s k e true q.val t ix → (s.slot k).lane.vstart.toNat < (s.slot k).lane.vl.toNat →
    let n := s.lenv k e
    let lo := n.l.vstart.toNat
    let hi := groupEnd n.l (groupWidth t ix)
    (∀ x, lo ≤ x → x < hi → n.l.gov x = true → StorableAt (s.slot k) q.val (offsetsOf n ix x) (co x)) →
    ∃ u, exec (.issueOpportunity c) s = .next u ∧ s.sameSlotsBut u k ∧ u.mem = s.mem ∧ Advanced s u k hi ∧
      (u.slot k).lane = { n.l with vstart := (u.slot k).lane.vstart } ∧
      (u.slot k).cellsOf q.val = ((s.slot k).cellsOf q.val).map (fun cell =>
        match lastAt n.l.gov co lo cell.co (hi - lo) with
        | some x => { cell with
            val := BitVec.ofNat 64 (n.l.rd d.val t.bits x), dirty := true
            scale := if t.isBlock then BitVec.ofNat 8 (n.l.scaleOf t d.val x) else 0 }
        | none => cell) ∧
      (∀ j, (u.slot k).reg j = { (s.slot k).reg j with cells := ((u.slot k).reg j).cells }) ∧
      (∀ j, j ≠ (s.slot k).cellsAt q.val → (u.slot k).reg j = (s.slot k).reg j) ∧
      u.slot k = { s.slot k with
        lane := (u.slot k).lane, q := (u.slot k).q, queue := (u.slot k).queue, lastCv := (u.slot k).lastCv
        cvVl := (u.slot k).cvVl, bankstall := (u.slot k).bankstall }

/-- LDR, LDRX, STR and STRX act on the loft copy of their set and on nothing else: its parts, each a definition above. -/
def Obligations.ResidentAccessesReachTheSet : Prop :=
  Claims.ResidentLoadsReadTheSet ∧ Claims.ResidentStoresWriteTheSet

/-- A resident access at a register that is not LIVE raises RESIDENCY-MISS at its first active element: the lane fault is
decided with VSTART at that element and its packed offsets in TVAL, and no element changes (R77, R85, R103, R206, R207). -/
def Claims.ResidencyMissIsPrecise : Prop :=
  ∀ (s : State) (k : Nat) (i : Instr) (e : Entry) (c : Fin 64) (store : Bool) (d : Fin 32) (q : Fin 16) (t : Ty)
    (ix : Option Nat) (x : Nat),
    AtHead s k i e → c.val = coreOf k → residentOf i = some (store, d, q, t, ix) → i.wf = true →
    (∀ r ∈ s.reqs, r.owner ≠ 4 * k) →
    (s.slot k).lane.vl.toNat ≤ perReg (s.slot k).cap.toNat t.bits →
    (ix ≠ none → (s.slot k).lane.vl.toNat ≤ perReg (s.slot k).cap.toNat 64) → q.val < (s.limits k).2.1 →
    ((s.slot k).reg q.val).lanesSee = false →
    (s.slot k).lane.vstart.toNat ≤ x → x < (s.slot k).lane.vl.toNat → (s.slot k).lane.gov x = true →
    (∀ y, (s.slot k).lane.vstart.toNat ≤ y → y < x → (s.slot k).lane.gov y = false) →
    ∃ u, exec (.issueOpportunity c) s = .next u ∧
      LaneFault s u k .residencyMiss 0 e.pc (BitVec.ofNat 64 ((List.range 4).foldl (fun acc j =>
        acc + ((coordAt (offsetsOf (s.lenv k e) ix x) j) % 2 ^ 16).toNat * 2 ^ (16 * j)) 0)) (BitVec.ofNat 12 x)

/-- A decided lane fault enters the handler with the queue frozen, LANE = 1 and EPC at the entry, whatever is queued; the lanes
keep the VSTART of the fault (R103, R253, R254, R256). -/
def Claims.LaneFaultsFreezeTheQueue : Prop :=
  ∀ (s : State) (k : Fin 1024) (p : PendTrap),
    let sl := s.slot k.val
    sl.st = .drain → sl.pend = some p → p.lane = true → p.code ≠ .preempt → p.code ≠ .resume → sl.tr.inh = false →
    bitAt (s.coreAt (coreOf k.val)).dbg.trctl 0 = false →
    exec (.trapEntry k) s = .next (s.setSlot k.val
      { sl.trapped p.code p.kind p.tval p.rpc with
        tr := { (sl.trapped p.code p.kind p.tval p.rpc).tr with
          cause := BitVec.ofNat 64 (2 ^ 62 + p.kind * 256 + p.code.num), epc := p.epc, froz := true } })

/-- RESIDENCY-MISS is precise, and a decided lane fault enters the handler with the queue frozen: its parts, each a definition above. -/
def Obligations.LaneFaultsArePrecise : Prop :=
  Claims.ResidencyMissIsPrecise ∧ Claims.LaneFaultsFreezeTheQueue

/-- LDF and LDFX load the active elements of the element group that VSTART lies in, scales included, from the addresses of R210,
and change no other element and no byte of memory (R14, R178, R203, R209, R210, R212). -/
def Claims.FarLoadsReadMemory : Prop :=
  ∀ (s : State) (k : Nat) (i : Instr) (e : Entry) (c : Fin 64) (d : Fin 32) (t : Ty) (ix : Option Nat),
    AtHead s k i e → c.val = coreOf k → farLoadOf i = some (d, t, ix) → i.wf = true →
    let n := s.lenv k e
    let lo := n.l.vstart.toNat
    let hi := groupEnd n.l (groupWidth t ix)
    FarReady s k n t ix false → (t.isBlock = true → n.x.toNat % 16 = 0) → lo < n.l.vl.toNat →
    (∀ x ∈ activesIn n lo hi, ∀ r ∈ runsOf n t ix n.x x, runOk t r) →
    ∃ u, exec (.issueOpportunity c) s = .next u ∧ FarFrame s u k ∧ u.mem = s.mem ∧
      LoadedInto n (u.slot k).lane d.val t lo hi (valueIn s.mem n t ix)
        (fun x => (Memory.read s.mem (physOf (scaleByte t n.x x))).toNat) ∧
      FarAdvanced s u k hi

/-- A far load is fault-only-first: a misaligned or unimplemented address at its first active element, when it has performed none
before, is a precise lane fault that changes no element; at a later one it trims VL to that element, and the entry retires (R103,
R104, R212, R240). -/
def Claims.FarLoadsFaultOnlyFirst : Prop :=
  ∀ (s : State) (k : Nat) (i : Instr) (e : Entry) (c : Fin 64) (d : Fin 32) (t : Ty) (ix : Option Nat) (f b : Nat),
    AtHead s k i e → c.val = coreOf k → farLoadOf i = some (d, t, ix) → i.wf = true → t.isBlock = false →
    let n := s.lenv k e
    let lo := n.l.vstart.toNat
    let va := elementAddr n t.bits ix n.x b
    FarReady s k n t ix false →
    lo ≤ f → n.l.gov f = true → (∀ x, lo ≤ x → x < f → n.l.gov x = false) →
    f ≤ b → b < groupEnd n.l (groupWidth t ix) → n.l.gov b = true → (va.toNat % (t.bits / 8) ≠ 0 ∨ 2 ^ 57 ≤ va.toNat) →
    (∀ x ∈ activesIn n lo b, ∀ r ∈ runsOf n t ix n.x x, runOk t r) →
    ∃ u, exec (.issueOpportunity c) s = .next u ∧
      (b = f ∧ e.leave = 0 →
        LaneFault s u k (if va.toNat % (t.bits / 8) ≠ 0 then .misaligned else .pageFault) 0 e.pc va n.l.vstart) ∧
      (f < b ∨ e.leave ≠ 0 → FarFrame s u k ∧ u.mem = s.mem ∧ (u.slot k).queue = (s.slot k).queue.tail ∧
        (u.slot k).lane.vl.toNat = b ∧ (u.slot k).lane.vstart = 0 ∧
        LoadedInto n { (u.slot k).lane with vl := n.l.vl } d.val t lo b (valueIn s.mem n t ix) (fun _ => 0))

/-- LDF and LDFX load their elements from memory and fault only on the first: its parts, each a definition above. -/
def Obligations.FarLoadsReadMemory : Prop :=
  Claims.FarLoadsReadMemory ∧ Claims.FarLoadsFaultOnlyFirst

/-- STF and STFX store the active elements of the element group that VSTART lies in, scales included, at the addresses of R210,
and no other byte; of two elements that store one byte the higher remains (R14, R178, R203, R209, R210, R213). -/
def Claims.FarStoresWriteMemory : Prop :=
  ∀ (s : State) (k : Nat) (i : Instr) (e : Entry) (c : Fin 64) (d : Fin 32) (t : Ty) (ix : Option Nat) (ord : Bool),
    AtHead s k i e → c.val = coreOf k → farStoreOf i = some (d, t, ix, ord) → i.wf = true →
    let n := s.lenv k e
    let lo := n.l.vstart.toNat
    let hi := groupEnd n.l (groupWidth t ix)
    FarReady s k n t ix true → (t.isBlock = true → n.x.toNat % 16 = 0 ∧ lo % 16 = 0) →
    (ord = true → (s.slot k).written) → lo < n.l.vl.toNat →
    (∀ x ∈ activesIn n lo hi, ∀ r ∈ runsOf n t ix n.x x, runOk t r) →
    ∃ u, exec (.issueOpportunity c) s = .next u ∧ FarFrame s u k ∧
      StoredBytes s u ((activesIn n lo hi).flatMap (bytesOf n d.val t ix n.x)) ∧
      (u.slot k).lane = { n.l with vstart := (u.slot k).lane.vstart } ∧ FarAdvanced s u k hi

/-- STFM stores its active elements at every destination of its multicast list, in order, and no other byte, and retires
(R210, R218). -/
def Claims.MulticastStoresEveryDestination : Prop :=
  ∀ (s : State) (k : Nat) (e : Entry) (c : Fin 64) (sc : Scope) (d a b : Fin 32) (t : Ty) (ord urg strm : Bool) (ds : List X64),
    let i := Instr.stfm sc d a b t ord urg strm
    AtHead s k i e → c.val = coreOf k → i.wf = true →
    let n := s.lenv k e
    FarReady s k n t none true → n.l.vstart = 0 → 1 ≤ ds.length → ds.length ≤ 16 →
    (ord = true → (s.slot k).written) →
    n.x.toNat % 8 = 0 → n.x.toNat + 8 * 17 < 2 ^ 57 → n.x.toNat % 2 ^ 52 + 8 * 17 ≤ hbmBytes →
    memNat s.mem (physOf n.x) 8 = ds.length →
    (∀ j x, ds[j]? = some x → memNat s.mem (physOf (n.x + BitVec.ofNat 64 (8 + 8 * j))) 8 = x.toNat) →
    (∀ x ∈ ds, t.isBlock = true → x.toNat % 16 = 0) →
    (∀ dst ∈ ds, ∀ x ∈ activesIn n 0 n.l.vl.toNat, ∀ r ∈ runsOf n t none dst x, runOk t r) →
    ∃ u, exec (.issueOpportunity c) s = .next u ∧ FarFrame s u k ∧
      StoredBytes s u (ds.flatMap fun dst => (activesIn n 0 n.l.vl.toNat).flatMap (bytesOf n d.val t none dst)) ∧
      (u.slot k).lane = n.l ∧ (u.slot k).queue = (s.slot k).queue.tail

/-- STF, STFX and STFM store their active elements and no other byte: its parts, each a definition above. -/
def Obligations.FarStoresWriteMemory : Prop :=
  Claims.FarStoresWriteMemory ∧ Claims.MulticastStoresEveryDestination

/-- SCADD adds one combined sum to each distinct address of its active elements, in the order of their lowest elements, and
changes no other byte; the float form draws and raises flags in that order (R219, R220). -/
def Obligations.ScatterAddUpdatesEachAddress : Prop :=
  ∀ (s : State) (k : Nat) (i : Instr) (e : Entry) (c : Fin 64) (d b : Fin 32) (t : Ty) (flt : Bool),
    AtHead s k i e → c.val = coreOf k → scaddOf i = some (d, b, t, flt) → i.wf = true →
    let n := s.lenv k e
    FarReady s k n t (some b.val) true → n.l.vstart = 0 →
    let els := (activesIn n 0 n.l.vl.toNat).map fun x => (elementAddr n t.bits (some b.val) n.x x, n.l.rd d.val t.bits x)
    (∀ x ∈ els, runOk t (x.1, t.bits / 8)) →
    let sums := scaddCombined flt t els { mode := n.l.mode 0, seed := n.l.srseed, flags := n.l.flags } (els.map (·.1)).eraseDups
    let r := scaddUpdated flt t sums.2 s.mem sums.1
    ∃ u, exec (.issueOpportunity c) s = .next u ∧ FarFrame s u k ∧ (∀ a, Memory.read u.mem a = Memory.read r.1 a) ∧
      (u.slot k).lane = { n.l with flags := r.2.flags, srseed := r.2.seed } ∧ (u.slot k).queue = (s.slot k).queue.tail

/-- QSET sets a retired register up from a descriptor that passes the checks: LIVE with its ring, its bits of LANDED and QDONE
clear, delivery 0 at the slice's counters, and a marker in the queue (R171, R182, R187, R193, R194). That the descriptor is read as a
scalar load would read it is the model's reading (log 41). -/
def Claims.QsetSetsRegisterUp : Prop :=
  ∀ (s : State) (q : Fin 16) (a : Fin 32) (sc : Scope),
    let i := Instr.qset q a sc
    let va := s.me.rx a.val
    let d := descriptorAt s va
    s.setsUp q.val → s.direct s.cur → s.settled → va.toNat % 128 = 0 → va.toNat < 2 ^ 57 → physOf va + 128 ≤ hbmBytes →
    (∀ j, j < 16 → (s.me.reg j).st = .retired) → d.mfc ≠ 3 → d.check q.val (s.me.reg d.ixq) = none →
    d.ringBytes ≤ (s.limits s.cur).2.2 →
    ∃ t g, exec i s = .next t ∧ t = { s.setMe t.me with cores := t.cores } ∧
      (∀ c, t.coreAt c = { s.coreAt c with pieces := (t.coreAt c).pieces }) ∧
      (t.slot s.cur).reg q.val = { ResReg.reset with
        st := .live, desc := d, acq := sc, qsetPc := s.me.pc, ringBase := 0, ringBytes := d.ringBytes, lens := d.ringLens, created := 1
        slabs := ((t.slot s.cur).reg q.val).slabs, gens := [g] } ∧
      g.n = 0 ∧ g.ks = s.me.k ∧ g.old = none ∧ g.landed = false ∧ g.causePc = s.me.pc ∧
      (d.wme = false → g.gate = true) ∧
      (∀ j, j ≠ q.val → (t.slot s.cur).reg j = s.me.reg j) ∧
      t.slot s.cur = { (s.me.qMarked (wordOf i)).onward with
        q := (t.slot s.cur).q, landed := landedWithout s.me.landed q.val, qdone := s.me.qdone.setIfInBounds q.val 0 }

/-- A QSET that may not set its register up changes no register and no byte of memory: it traps at a register that is LIVE or not the launch's, at a
misaligned address, at a descriptor that fails a check and at a ring that does not fit, and waits with cause 3 while the
register is DROPPING (R175, R187, R194, R253). -/
def Claims.QsetRefusesOrWaits : Prop :=
  ∀ (s : State) (q : Fin 16) (a : Fin 32) (sc : Scope),
    let i := Instr.qset q a sc
    let va := s.me.rx a.val
    let d := descriptorAt s va
    s.acts → s.pushes → s.trapsAtOnce →
    ((s.limits s.cur).2.1 ≤ q.val → trapsHere i s .illegalOperand 0 0) ∧
    (q.val < (s.limits s.cur).2.1 → (s.me.reg q.val).st = .dropping →
      exec i s = .next (s.setMe { s.me with st := .wait, cause := 3, busy := true })) ∧
    ((s.me.reg q.val).st = .live → trapsHere i s .illegalOperand 0 0) ∧
    ((s.me.reg q.val).st = .retired → va.toNat % 128 ≠ 0 → trapsHere i s .illegalOperand 0 0) ∧
    (q.val < (s.limits s.cur).2.1 → s.direct s.cur → s.settled → va.toNat % 128 = 0 → va.toNat < 2 ^ 57 →
      physOf va + 128 ≤ hbmBytes → (∀ j, j < 16 → (s.me.reg j).st = .retired) → d.mfc ≠ 3 →
      (∀ o, d.check q.val (s.me.reg d.ixq) = some o → trapsAsking i s .descriptor 0 (BitVec.ofNat 64 o)) ∧
      (d.check q.val (s.me.reg d.ixq) = none → (s.limits s.cur).2.2 < d.ringBytes →
        trapsAsking i s .capacity 0 (BitVec.ofNat 64 d.ringBytes)))

/-- QSET sets a register up from a descriptor that passes, and otherwise traps or waits: its parts, each a definition above. -/
def Obligations.QsetSetsRegisterUp : Prop :=
  Claims.QsetSetsRegisterUp ∧ Claims.QsetRefusesOrWaits

/-- QDROP turns a LIVE register DROPPING with a marker, and does nothing at a RETIRED one, nor at a DROPPING one (the model's choice,
log 95); once the lanes have passed the marker and every writeback is acknowledged, and not before, the register is RETIRED and keeps
QDONE (R181, R193, R195). -/
def Obligations.QdropRetiresRegister : Prop :=
  ∀ (s : State) (q : Fin 16) (k : Fin 1024),
    encode (.qdrop 3) = [0xD2600000#32] ∧
    (s.setsUp q.val → (s.me.reg q.val).st ≠ .live → exec (.qdrop q) s = .next (s.setMe s.me.onward)) ∧
    (s.setsUp q.val → (s.me.reg q.val).st = .live →
      (∀ j, j < 16 → ¬ ((s.me.reg j).st = .live ∧ (s.me.reg j).desc.ixd ≠ 7 ∧ (s.me.reg j).desc.ixq = q.val)) →
      exec (.qdrop q) s = .next (s.setMe { (s.me.qMarked (wordOf (.qdrop q))).onward with
        q := s.me.q.setIfInBounds q.val { s.me.reg q.val with st := .dropping, dropPc := s.me.pc } })) ∧
    (((s.slot k.val).reg q.val).st = .dropping → ((s.slot k.val).reg q.val).lanesSee = false →
      ((s.slot k.val).reg q.val).wbs = [] →
      (∀ e ∈ (s.slot k.val).queue, e.p = false ∨ e.kind ≠ .qMarker ∨ e.word.toNat / 2 ^ 25 ≠ 0x69 ∨ e.word.toNat / 2 ^ 21 % 16 ≠ q.val) →
      exec (.qdropComplete k q) s = .next (s.setSlot k.val { s.slot k.val with
        q := (s.slot k.val).q.setIfInBounds q.val { ResReg.reset with created := ((s.slot k.val).reg q.val).created }
        landed := landedWithout (s.slot k.val).landed q.val })) ∧
    (((s.slot k.val).reg q.val).st ≠ .dropping ∨ ((s.slot k.val).reg q.val).lanesSee = true ∨
        ((s.slot k.val).reg q.val).wbs ≠ [] ∨
        (∃ e ∈ (s.slot k.val).queue, e.p = true ∧ e.kind = .qMarker ∧ e.word.toNat / 2 ^ 25 = 0x69 ∧ e.word.toNat / 2 ^ 21 % 16 = q.val) →
      exec (.qdropComplete k q) s = .next s)

/-- QSTAT reads STATUS, the number of deliveries, the ring's bytes or BASE of a register (R197). -/
def Claims.QstatReadsRegister : Prop :=
  ∀ (s : State) (q : Fin 16) (d : Fin 32) (u : Fin 4), s.acts →
    encode (.qstat 3 9 1) = [0xD6604801#32] ∧
    (q.val < (s.limits s.cur).2.1 → exec (.qstat q d u) s = .next (s.putX d.val (qstatOf (s.me.reg q.val) u.val))) ∧
    ((s.limits s.cur).2.1 ≤ q.val → s.trapsAtOnce → trapsHere (.qstat q d u) s .illegalOperand 0 0)

/-- QWAIT and WAIT go on when their deliveries have landed and stall with causes 3 and 4 until then; a QWAIT for deliveries
that do not exist is an illegal operand (R196, R198). -/
def Claims.WaitsFollowDeliveries : Prop :=
  ∀ (s : State) (q : Fin 16) (a : Fin 32), s.acts →
    let x := s.me.rx a.val
    let none_ := (s.me.reg q.val).st = .retired
    encode (.qwait 0 7) = [0xD4070000#32] ∧ encode (.waitAll 6) = [0xD8060001#32] ∧
    (q.val < (s.limits s.cur).2.1 → (¬ none_ → x.toNat ≤ deliveriesOf (s.me.reg q.val)) → x ≤ vat s.me.qdone q.val 0 →
      exec (.qwait q a) s = .next (s.setMe s.me.onward)) ∧
    (q.val < (s.limits s.cur).2.1 → ¬ none_ → x.toNat ≤ deliveriesOf (s.me.reg q.val) → vat s.me.qdone q.val 0 < x →
      exec (.qwait q a) s = .next (s.setMe { s.me with st := .wait, cause := 3, busy := true, phase := .qwait q.val x })) ∧
    ((none_ ∧ vat s.me.qdone q.val 0 < x ∨ ¬ none_ ∧ deliveriesOf (s.me.reg q.val) < x.toNat) → s.trapsAtOnce →
      trapsHere (.qwait q a) s .illegalOperand 0 0) ∧
    exec (.waitAny a) s = .next (s.setMe (
      if x = 0 ∨ s.me.landed &&& x ≠ 0 then s.me.onward else { s.me with st := .wait, cause := 4, busy := true, phase := .bits false x })) ∧
    exec (.waitAll a) s = .next (s.setMe (
      if s.me.landed &&& x = x then s.me.onward else { s.me with st := .wait, cause := 4, busy := true, phase := .bits true x }))

/-- QSTAT, QWAIT and WAIT read and await the deliveries of the residency registers: its parts, each a definition above. -/
def Obligations.ResidencyIsObserved : Prop :=
  Claims.QstatReadsRegister ∧ Claims.WaitsFollowDeliveries

/-- FFRDY sets x[d] to the index of the lowest set bit of LANDED and x[a], or to 64 if there is none (R199). -/
def Obligations.FfrdyFindsLowestReady : Prop :=
  ∀ (s : State) (a d : Fin 32), s.acts → encode (.ffrdy a d) = [packQ 0x6D 0 a.val d.val 0] ∧
    encode (.ffrdy 6 8) = [0xDA064000#32] ∧
    (s.me.landed &&& s.me.rx a.val = 0 → exec (.ffrdy a d) s = .next (s.putX d.val 64)) ∧
    (∀ j, j < 64 → (s.me.landed &&& s.me.rx a.val).getLsbD j = true →
      (∀ i, i < j → (s.me.landed &&& s.me.rx a.val).getLsbD i = false) →
      exec (.ffrdy a d) s = .next (s.putX d.val (BitVec.ofNat 64 j)))

/-- A delivery lands: every element that the set fetches is in the loft as memory then holds it, its bit of LANDED is set and
QDONE is one more than its number; memory does not change. BANKSTALL stays where R188 rules every conflict out, and is left open
elsewhere (R176, R177, R182, R186, R188, R349; log 4). -/
def Claims.DeliveriesLand : Prop :=
  ∀ (s : State) (k : Fin 1024) (q : Fin 16) (g : Gen),
    let sl := s.slot k.val
    let r := sl.reg q.val
    let d := r.desc
    LandsNext s k.val q.val g → d.plainSet → (∀ a ∈ d.coords g.ks, elementOk d a) →
    bitAt (s.coreAt (coreOf k.val)).dbg.trctl 0 = false →
    ∃ stalls used, exec (.deliveryLands k q) s = .next { s.setSlot k.val { sl with
        landed := sl.landed ||| 1#64 <<< (4 * q.val + g.n % 4)
        qdone := sl.qdone.setIfInBounds q.val (BitVec.ofNat 64 (g.n + 1)), bankstall := stalls
        q := sl.q.setIfInBounds q.val { r with
          gens := [{ g with landed := true }]
          cells := (d.coords g.ks).map fun a =>
            { co := a, val := BitVec.ofNat 64 (memNat s.mem (physOf (elementOf d a)) (d.stored.bits / 8))
              scale := 0x7F, base := d.base, dirty := false, fail := none } } } with free := used } ∧
      ((∀ a ∈ d.coords g.ks, loftFree (d.runWords r.lens (sl.loft + r.ringBase) a) = true) →
        stalls = sl.bankstall ∧ used = s.free)

/-- A delivery waits at its gate until the watermark exceeds hi, and passes it then (R191). -/
def Claims.WatermarkOpensGate : Prop :=
  ∀ (s : State) (k : Fin 1024) (q : Fin 16) (g : Gen) (hi : Int),
    let sl := s.slot k.val
    let r := sl.reg q.val
    s.direct k.val → s.plain → s.fills k.val → sl.cst ≠ .faulted → r.st ≠ .retired → r.gens = [g] → g.landed = false →
    g.gate = false → g.n < r.created → r.desc.waddr.toNat % 8 = 0 → r.desc.waddr.toNat < 2 ^ 57 →
    physOf r.desc.waddr + 8 ≤ hbmBytes → r.desc.gateHi g.ks = some hi →
    let w := memNat s.mem (physOf r.desc.waddr) 8
    (hi < (w : Int) → exec (.watermarkReread k q) s = .next (s.setSlot k.val { sl with
      q := sl.q.setIfInBounds q.val { r with gens := [{ g with gate := true, gateFail := none }] } })) ∧
    ((w : Int) ≤ hi → exec (.watermarkReread k q) s = .next s)

/-- A delivery passes its gate, lands with the bytes memory holds, and sets LANDED and QDONE: its parts, each a definition above. -/
def Obligations.DeliveriesLand : Prop :=
  Claims.DeliveriesLand ∧ Claims.WatermarkOpensGate

/-- Once the lanes have passed the event of a delivery, the elements that leave the set are released: clean ones are dropped,
dirty ones become writebacks at their addresses, in one order, and the others stay (R183, R184). That an element which an earlier
writeback lost is not sent again once this one writes it is the model's reading (log 107). -/
def Claims.LeavingElementsAreReleased : Prop :=
  ∀ (s : State) (k : Fin 1024) (q : Fin 16) (g : Gen) (rest : List Gen) (old : Vector (BitVec 32) 6),
    let sl := s.slot k.val
    let r := sl.reg q.val
    let d := r.desc
    let leaves : Cell → Bool := fun c => d.inSet old c.co && !d.inSet g.ks c.co
    let w := (r.cells.filter fun c => leaves c && c.dirty && c.fail.isNone).map fun c =>
      ((elementOf d c.co).toNat, toBytes (d.stored.bits / 8) c.val.toNat)
    let mine : Writeback → Writeback := fun x => { x with lost := x.lost.filter fun u => !w.any fun p => u.head?.map (·.1) == some p.1 }
    s.fills k.val → sl.cst ≠ .faulted → r.st ≠ .retired → r.lanesSee = true → r.paired = false → r.gens = g :: rest → g.released = false →
    g.old = some old → d.plainSet → (∀ j, j < 16 → (sl.reg j).desc.ixd = 7 ∨ (sl.reg j).st = .retired) →
    (w.map (·.1)).Nodup →
    (∀ g', g' ∈ rest → g'.n ≠ g.n) →
    exec (.elementRelease k q) s = .next (s.setSlot k.val { sl with
      q := sl.q.setIfInBounds q.val { r with
        cells := r.cells.filter fun c => !leaves c
        gens := { g with released := true } :: rest
        wbs := if w = [] then r.wbs
          else r.wbs.map mine ++
            [{ elems := w.map fun p => [p], causePc := g.causePc, fail := none, raised := false, epoch := g.epoch }] } })

/-- The oldest writeback of a register performs: its bytes are in memory, no other byte changes, and it is acknowledged (R184,
R186). -/
def Claims.WritebacksPerform : Prop :=
  ∀ (s : State) (k : Fin 1024) (q : Fin 16) (w : Writeback) (rest : List Writeback),
    let sl := s.slot k.val
    let r := sl.reg q.val
    r.wbs = w :: rest → w.fail = none → w.raised = false → w.lost = [] → sl.cst ≠ .faulted → s.direct k.val → s.plain →
    (∀ p ∈ w.elems.flatten, p.2 ≠ [] ∧ p.1 < 2 ^ 57 ∧ p.1 % 2 ^ 52 + p.2.length ≤ hbmBytes) →
    ∃ u, exec (.writebackAck k q) s = .next u ∧
      u = { s.setSlot k.val { sl with q := sl.q.setIfInBounds q.val { r with wbs := rest } } with mem := u.mem } ∧
      StoredBytes s u (w.elems.flatten.flatMap fun p => p.2.zipIdx.map fun b => (p.1 % 2 ^ 52 + b.2, b.1))

/-- Elements that leave a set are dropped or written back, and the writeback stores their bytes: its parts, each a definition above. -/
def Obligations.ElementsLeaveTheSet : Prop :=
  Claims.LeavingElementsAreReleased ∧ Claims.WritebacksPerform

/-- BAR.INIT, BAR.ARRIVE, BAR.WAIT and BAR.TEST at a legal barrier: INIT sets EXPECT, ARRIVE counts and flips the phase in the
same step, WAIT stalls with cause 8 until the phase is not its parity, TEST reads; both writers release first. Reserved bits and an
offset beyond the group area are illegal operands of all four, a count of 0 or above 2^32 − 1 of INIT, and a frozen queue of INIT and
ARRIVE (R292, R293, R295, R296). -/
def Obligations.BarriersSynchronize : Prop :=
  ∀ (s : State) (sc : Scope) (a b d : Fin 32) (off n : Nat) (p : Bool) (g : Group),
    encode (.barInit .cluster 8 9) = [0xFA808480#32] ∧ encode (.barArrive .cluster 8) = [0xFA808010#32] ∧
    encode (.barWait .cluster 8) = [0xFA808020#32] ∧ encode (.barTest .cluster 5 8) = [0xFA8A8030#32] ∧
    (s.atBarrier (s.me.rx a.val) off p n g → s.cur < 1024 → s.flushes (coreOf s.cur) →
      (s.me.tr.froz = false → s.me.performed → 0 < (s.me.rx b.val).toNat → (s.me.rx b.val).toNat < 2 ^ 32 →
        ∃ t, exec (.barInit sc a b) s = .next t ∧
          BarrierSet s t n g off { g.barAt off with count := 0, expect := BitVec.ofNat 32 (s.me.rx b.val).toNat }) ∧
      (s.me.tr.froz = false → s.me.performed → (g.barAt off).expect ≠ 0 →
        ∃ t, exec (.barArrive sc a) s = .next t ∧ BarrierSet s t n g off (arrived (g.barAt off))) ∧
      (s.me.tr.froz = false → s.me.performed → (g.barAt off).expect = 0 →
        exec (.barArrive sc a) s = .next (s.setMe { s.me with st := .wait, cause := 8, busy := true, phase := .barrier off none })) ∧
      exec (.barWait sc a) s = .next (s.setMe (
        if (g.barAt off).phase = p then { s.me with st := .wait, cause := 8, busy := true, phase := .barrier off (some p) } else s.me.onward)) ∧
      exec (.barTest sc d a) s = .next (s.putX d.val (BitVec.ofNat 64 (
        (g.barAt off).count.toNat * 2 ^ 32 + bitOf (g.barAt off).phase 1 + bitOf ((g.barAt off).phase != p) 0)))) ∧
    (s.acts → s.trapsAtOnce →
      (s.barrierIllegal (s.me.rx a.val) →
        trapsHere (.barInit sc a b) s .illegalOperand 0 0 ∧ trapsHere (.barArrive sc a) s .illegalOperand 0 0 ∧
        trapsHere (.barWait sc a) s .illegalOperand 0 0 ∧ trapsHere (.barTest sc d a) s .illegalOperand 0 0) ∧
      (s.me.rx b.val = 0 ∨ 2 ^ 32 ≤ (s.me.rx b.val).toNat → trapsHere (.barInit sc a b) s .illegalOperand 0 0) ∧
      (s.me.tr.froz = true →
        trapsHere (.barInit sc a b) s .illegalOperand 0 0 ∧ trapsHere (.barArrive sc a) s .illegalOperand 0 0))

/-- WMARK pushes a marker and stalls until every write before it has performed; then its eight bytes are in memory, after the
dirty scalar bytes of its thread's core, and every other byte is as it was seen (R31, R86, R230, R282). That the dirty bytes of its own
line leave every core's data L1 for memory first is the model's reading (log 84). -/
def Claims.WmarkPublishesWatermark : Prop :=
  ∀ (s : State) (sc : Scope) (a b : Fin 32),
    let w := wordOf (.wmark sc a b)
    let va := s.me.rx a.val
    encode (.wmark .device 8 9) = [0xF8C08480#32] ∧
    (s.acts → s.pushes → va.toNat % 8 = 0 → s.me.phase = .fresh →
      exec (.wmark sc a b) s = .next (s.setMe { s.me.marked w with st := .wait, cause := 2, busy := true, phase := .marked })) ∧
    (s.acts → s.me.tr.vu = true → s.me.phase = .marked → va.toNat % 8 = 0 →
      s.me.owesRelease ∨ ¬ s.flushes (coreOf s.cur) →
      exec (.wmark sc a b) s = .next (s.setMe { s.me with st := .wait, cause := 2, busy := true })) ∧
    (s.acts → s.me.tr.vu = true → s.me.phase = .marked → s.me.performed → s.reaches s.cur va 8 →
      ∃ t, exec (.wmark sc a b) s = .next t ∧ t = { s.setMe s.me.onward with cores := t.cores, mem := t.mem } ∧
        (∀ c, t.coreAt c = { s.coreAt c with l1 := (t.coreAt c).l1, pieces := (t.coreAt c).pieces }) ∧
        (t.coreAt (coreOf s.cur)).l1 = [] ∧
        (∀ c, ∀ p ∈ (t.coreAt c).l1, p.1 / 128 ≠ physOf va / 128) ∧
        (∀ c, ∀ p ∈ (s.coreAt c).l1, p.1 / 128 = physOf va / 128 → p.1 < physOf va ∨ physOf va + 8 ≤ p.1 → s.dirtyOnce p.1 →
          Memory.read t.mem p.1 = p.2) ∧
        (∀ j, j < 8 → Memory.read t.mem (physOf va + j) = byteOf (s.me.rx b.val).toNat j ∧
          t.seen (physOf va + j) = byteOf (s.me.rx b.val).toNat j) ∧
        (∀ x, x < physOf va ∨ physOf va + 8 ≤ x → s.dirtyOnce x → t.seen x = s.seen x) ∧
        (∀ p ∈ (s.coreAt (coreOf s.cur)).l1, p.1 < physOf va ∨ physOf va + 8 ≤ p.1 → s.dirtyOnce p.1 →
          Memory.read t.mem p.1 = p.2) ∧
        (∀ x, x < physOf va ∨ physOf va + 8 ≤ x → (∀ c, ∀ p ∈ (s.coreAt c).l1, p.1 ≠ x) →
          Memory.read t.mem x = Memory.read s.mem x)) ∧
    (s.acts → s.me.tr.vu = true → s.trapsAtOnce → va.toNat % 8 ≠ 0 → trapsHere (.wmark sc a b) s .misaligned 1 va)

/-- LAUNCH copies the 64 bytes of its packet to ring index TAIL and rings the doorbell in one step; a packet address that is no
multiple of 64 and a queue above 63 or of another address space trap (R267, R283). -/
def Claims.LaunchPutsPacketOnQueue : Prop :=
  ∀ (s : State) (a b : Fin 32),
    let va := s.me.rx a.val
    let n := (s.me.rx b.val).toNat
    let q := s.hqAt n
    let dst := physOf (ringAddr q q.tail)
    encode (.launch 10 11) = [0xDC0A5800#32] ∧
    (s.launches va n → ∃ t, exec (.launch a b) s = .next t ∧
      t = { s.setMe s.me.onward with mem := t.mem, hqs := t.hqs, cores := t.cores } ∧
      (∀ c, t.coreAt c = { s.coreAt c with pieces := (t.coreAt c).pieces }) ∧
      t.hqAt n = { q with
        tail := q.tail + 1, st := if q.st = .idle ∧ q.head ≠ q.tail + 1 ∧ s.halted = false then .active else q.st } ∧
      (∀ j, j ≠ n → t.hqAt j = s.hqAt j) ∧
      (∀ j, j < 64 → Memory.read t.mem (dst + j) = Memory.read s.mem (physOf va + j)) ∧
      (∀ x, x < dst ∨ dst + 64 ≤ x → Memory.read t.mem x = Memory.read s.mem x)) ∧
    (s.acts → s.trapsAtOnce →
      (va.toNat % 64 ≠ 0 → trapsHere (.launch a b) s .misaligned 0 va) ∧
      (va.toNat % 64 = 0 → (63 < n ∨ q.st = .disabled ∨ q.root.toNat / 2 ^ 52 ≠ s.me.ptroot.toNat / 2 ^ 52) →
        trapsHere (.launch a b) s .illegalOperand 0 0))

/-- WMARK publishes a watermark behind every earlier write; LAUNCH copies its packet and rings the doorbell: its parts, each a definition above. -/
def Obligations.ThreadsPublishAndLaunch : Prop :=
  Claims.WmarkPublishesWatermark ∧ Claims.LaunchPutsPacketOnQueue

/-- VPUSH lands n registers in an armed peer in one step, which then reads them full and dirty; it waits with cause 2 while
the peer's registers are not armed. A push to itself, to a thread that has ended or that the group does not have, to a peer of another
VLCAP and one at a frozen queue are illegal operands (R289, R290). -/
def Obligations.VpushLandsInPeer : Prop :=
  ∀ (s : State) (d a b : Fin 32) (m : Fin 16) (j : Nat) (g : Group),
    let i := Instr.vpush d a b m
    let p := (s.me.rx a.val).toNat
    let n := m.val + 1
    (Instr.vpush d a b m).wf = true →
    (s.pushesTo p j g → s.me.cap = (s.slot j).cap → s.me.cap.toNat ≤ 5 →
      (∀ r, d.val ≤ r → r < d.val + n → (s.slot j).lane.femask.getLsbD r = true) →
      ∃ l, exec i s = .next ((s.setSlot j { s.slot j with lane := l }).setMe s.me.onward) ∧
        Pushed s.me.lane (s.slot j).lane l s.me.cap.toNat d.val b.val n) ∧
    (s.pushesTo p j g → (∃ r, d.val ≤ r ∧ r < d.val + n ∧ (s.slot j).lane.femask.getLsbD r = false) →
      exec i s = .next (s.setMe { s.me with st := .wait, cause := 2, busy := true, phase := .peer p d.val n })) ∧
    (s.acts → s.trapsAtOnce → s.me.tr.vu = true → s.me.tr.froz = false → s.me.queue = [] →
      (p = s.me.f0 ∨ ∃ c, s.me.ctx = some c ∧ s.groupAt c s.me.group = some g ∧
        (g.ended.length ≤ p ∨ g.ended.getD p true = true)) →
      trapsHere i s .illegalOperand 0 0) ∧
    (s.pushesTo p j g → s.trapsAtOnce → s.me.cap ≠ (s.slot j).cap →
      (∀ r, d.val ≤ r → r < d.val + n → (s.slot j).lane.femask.getLsbD r = true) → trapsHere i s .illegalOperand 0 0) ∧
    (s.acts → s.trapsAtOnce → s.me.tr.vu = true → s.me.tr.froz = true → trapsHere i s .illegalOperand 0 0)

/-- ENDK pushes its marker and the slot drains with cause 9; once every entry has retired and nothing is owed, a thread that is
not the last of its group leaves: its flags go to the launch, its slot is VACANT, and the group stays BOUND (R85, R280, R281,
R285). -/
def Claims.EndkEndsThread : Prop :=
  ∀ (s : State) (sc : Scope) (k : Fin 1024) (n : Nat) (c : Ctx) (g : Group),
    let sl := s.slot k.val
    encode (.endk .device) = [0xF6C00000#32] ∧
    (s.acts → s.pushes → s.me.tr.inh = false →
      exec (.endk sc) s = .next (s.setMe { s.me.marked (wordOf (.endk sc)) with st := .drain, cause := 9 })) ∧
    (sl.st = .drain → sl.cause = 9 → sl.pend = none → sl.performed → (∀ j, j < 16 → (sl.reg j).st = .retired) →
      sl.ctx = some n → s.ctxOf (some n) = some c → c.st = .running → s.halted = false → s.groupAt n sl.group = some g →
      g.st = .bound → (g.ended.set sl.f0 true).all id = false →
      (∀ p ∈ s.slots, p.2.ctx = some n → p.2.st ≠ .vacant → p.2.cst = .running) →
      (∃ p ∈ s.slots, p.1 ≠ k.val ∧ p.2.ctx = some n ∧ p.2.st ≠ .vacant ∧ p.2.group = sl.group) →
      s.flushes (coreOf k.val) →
      ∃ t, exec (.stallClears k) s = .next t ∧ (t.slot k.val).st = .vacant ∧ (t.slot k.val).ctx = none ∧
        s.sameSlotsBut t k.val ∧
        t.groupAt n sl.group = some { g with ended := g.ended.set sl.f0 true, slots := g.slots.set sl.f0 none } ∧
        (∃ gs, t.ctxOf (some n) = some { c with groups := gs, flags := c.flags.or sl.lane.flags }) ∧
        WrittenBack s t (coreOf k.val))

/-- When the last thread of a launch has ended, its completion word is written with the flags of all, the record reads ENDED, OPEN
of its queue falls by one, its vector is signalled when its packet asked for that, and the slot is VACANT (R250, R269, R279, R280,
R281, R285; that the vectors are those of the function that owns the queue is the model's reading, log 102). -/
def Claims.LastEndkCompletesLaunch : Prop :=
  ∀ (s : State) (k : Fin 1024) (n : Nat) (c : Ctx) (g : Group),
    let sl := s.slot k.val
    let flags := c.flags.or sl.lane.flags
    sl.st = .drain → sl.cause = 9 → sl.pend = none → sl.performed → (∀ j, j < 16 → (sl.reg j).st = .retired) →
    sl.ctx = some n → s.ctxOf (some n) = some c → c.st = .running → c.word = none → s.groupAt n sl.group = some g →
    g.st = .bound → (g.ended.set sl.f0 true).all id = true → c.endedGroups + 1 = (c.counts.drop 1).foldl (· * ·) 1 →
    s.plain → s.reqs = [] → c.hq < 64 → bitAt c.hqroot 0 = false → wholeIn c.crec 8 8 → wholeIn c.cwaddr 8 8 →
    ∃ t, exec (.stallClears k) s = .next t ∧ (t.slot k.val).st = .vacant ∧ (t.slot k.val).ctx = none ∧
      s.sameSlotsBut t k.val ∧
      t.mem = storeNat (storeNat s.mem (physOf c.cwaddr) 8 (2 ^ 63 + flags.bits)) (physOf c.crec) 8 8 ∧
      t.groupAt n sl.group = some { g with st := .ended, ended := g.ended.set sl.f0 true, slots := g.slots.set sl.f0 none } ∧
      (∃ gs, t.ctxOf (some n) = some { c with
        st := .ended, groups := gs, flags := flags, endedGroups := c.endedGroups + 1, wordAt := none }) ∧
      t.hqAt c.hq = { s.hqAt c.hq with opn := (s.hqAt c.hq).opn - 1 } ∧ (∀ j, j ≠ c.hq → t.hqAt j = s.hqAt j) ∧
      t.svc.msi = if c.irq then s.svc.msi ++ [(functionOf s c.hq, (s.hqAt c.hq).vec.toNat)] else s.svc.msi

/-- IDLE writes the dirty scalar bytes back and vacates the slot; outside a pre-emption the group turns SAVING and every other
bound slot of it is pre-empted; with vector state, entries or live registers it is an illegal operand (R31, R255, R262,
R285). -/
def Claims.IdleVacatesSlot : Prop :=
  ∀ (s : State) (n : Nat) (c : Ctx) (g : Group), s.acts → s.me.tr.priv = true →
    (s.me.tr.vu = false → s.me.queue = [] → (∀ q, q < 16 → (s.me.reg q).st = .retired) → s.cur < 1024 → s.halted = false →
      s.me.ctx = some n → s.ctxOf (some n) = some c → c.st = .running → s.groupAt n s.me.group = some g → g.st = .bound →
      g.ended.all id = false → s.flushes (coreOf s.cur) →
      (∀ p ∈ s.slots, p.2.ctx = some n → p.2.st ≠ .vacant → p.2.cst = .running) →
      (∃ p ∈ s.slots, p.1 ≠ s.cur ∧ p.2.ctx = some n ∧ p.2.st ≠ .vacant ∧ p.2.group = s.me.group) →
      ∃ t, exec .idle s = .next t ∧ (t.slot s.cur).st = .vacant ∧ (t.slot s.cur).ctx = none ∧ WrittenBack s t (coreOf s.cur) ∧
        t.groupAt n s.me.group = some { g with st := .saving, slots := g.slots.set s.me.f0 none } ∧
        (∀ j, j ≠ s.cur → t.slot j = { s.slot j with preempt := (t.slot j).preempt } ∧
          ((s.slot j).ctx = some n → (s.slot j).group = s.me.group → (s.slot j).st ≠ .vacant → (t.slot j).preempt = true))) ∧
    (s.trapsAtOnce → s.me.tr.vu = true ∨ s.me.queue ≠ [] ∨ (∃ q, q < 16 ∧ (s.me.reg q).st ≠ .retired) →
      trapsHere .idle s .illegalOperand 0 0)

/-- ENDK ends a thread once everything has retired; IDLE vacates the slot: its parts, each a definition above. -/
def Obligations.ThreadsEndAndIdle : Prop :=
  Claims.EndkEndsThread ∧ Claims.LastEndkCompletesLaunch ∧ Claims.IdleVacatesSlot

/-- TLBI writes the dirty scalar bytes back and broadcasts without waiting; every core drops exactly the covered entries, the
last reception lets it be acknowledged, and TLBS stalls with cause 2 until every TLBI of its thread is acknowledged (R86,
R249). -/
def Obligations.InvalidatesReachEveryCore : Prop :=
  ∀ (s : State) (a : Fin 32) (c : Fin 64) (t : Tlbi) (rest : List Tlbi),
    let x := s.me.rx a.val
    (s.acts → s.me.tr.priv = true → x.toNat / 2 % 2 ^ 15 = 0 → s.cur < 1024 → s.flushes (coreOf s.cur) →
      ∃ u, exec (.tlbi a) s = .next u ∧ WrittenBack s u (coreOf s.cur) ∧
        u = { s.setMe s.me.onward with
          cores := u.cores, mem := u.mem
          tlbis := s.tlbis ++ [{
            asid := s.me.ptroot.toNat / 2 ^ 52, page := if x.getLsbD 0 then none else some (x.toNat / 2 ^ 16 % 2 ^ 41)
            thread := some (threadIdOf s s.cur), drover := none, received := [] }] }) ∧
    (s.acts → s.me.tr.priv = true → s.trapsAtOnce → x.toNat / 2 % 2 ^ 15 ≠ 0 → trapsHere (.tlbi a) s .illegalOperand 0 0) ∧
    (s.acts → s.me.tr.priv = true → s.me.queue = [] → (∀ t ∈ s.tlbis, t.thread ≠ some (threadIdOf s s.cur)) →
      exec .tlbs s = .next (s.setMe s.me.onward)) ∧
    (s.acts → s.me.tr.priv = true → (∃ t ∈ s.tlbis, t.thread = some (threadIdOf s s.cur)) →
      exec .tlbs s = .next (s.setMe { s.me with st := .wait, cause := 2, busy := true })) ∧
    (s.tlbis = t :: rest → c.val ∉ t.received → s.reqs = [] →
      ∃ u, exec (.tlbiReceive c) s = .next u ∧
        u.tlbis = { t with received := t.received ++ [c.val] } :: rest ∧
        (∀ e, e ∈ (u.coreAt c.val).tlb ↔ e ∈ (s.coreAt c.val).tlb ∧ ¬ dropsEntry t e) ∧
        (∀ j, u.coreAt j = { s.coreAt j with tlb := (u.coreAt j).tlb } ∧ (j ≠ c.val → (u.coreAt j).tlb = (s.coreAt j).tlb)) ∧
        (∀ k, u.slot k = { s.slot k with queue := (u.slot k).queue } ∧ (u.slot k).queue.length = (s.slot k).queue.length) ∧
        u = { s with cores := u.cores, slots := u.slots, tlbis := u.tlbis }) ∧
    (s.tlbis = t :: rest → t.drover = none → (∀ j, j < 64 → j ∈ t.received) → s.held = [] →
      (∀ r ∈ s.reqs, r.outcome ≠ .waiting) → exec .tlbiAcknowledge s = .next { s with tlbis := rest })

/-- RELMOVE with a legal descriptor and pages that may move: every source entry turns moving (MST 01), no core keeps an old
translation, the old pages forward, STATUS is STARTED, and the slice goes on; with four operations active STATUS is BUSY and
nothing else happens (R242, R246, R247). -/
def Claims.RelmoveStartsMove : Prop :=
  ∀ (s : State) (d a : Fin 32) (pd op : Nat) (src ctl : X64) (fs : List Fwd),
    let desc := s.me.rx d.val
    let dst := s.me.rx a.val
    let root := s.me.ptroot
    let n := ctl.toNat % 2 ^ 9 + 1
    let marked := fs.foldl (fun m f => storeNat m f.ea 8 f.pte.toNat) s.mem
    let u : State := { s with mem := marked, fwds := s.fwds ++ fs }
    s.readsDesc desc pd src ctl → desc.toNat % 32 = 0 → dst.toNat % 2 ^ 16 = 0 → src.toNat % 2 ^ 16 = 0 →
    ctl.toNat / 2 ^ 9 % 2 ^ 7 = 0 → ctl.toNat / 2 ^ 23 = 0 →
    ((∀ i, i < 4 → (vat s.drover i none).isSome = true) → s.reportsTo root desc 3 (pd + 16) →
      exec (.relmove d a) s = .next { s.setMe s.me.onward with mem := reported s.mem (pd + 16) 3 0 0 }) ∧
    (op < 4 → vat s.drover op none = none → (∀ i, i < op → (vat s.drover i none).isSome = true) →
      fs.length = n → (∀ i f, fs[i]? = some f → movesPage s root src dst op i f) →
      (src.toNat + n * 65536 ≤ dst.toNat ∨ dst.toNat + n * 65536 ≤ src.toNat) → u.reportsTo root desc 1 (pd + 16) →
      ∃ t, exec (.relmove d a) s = .next t ∧ t.mem = reported marked (pd + 16) 1 0 0 ∧ t.fwds = s.fwds ++ fs ∧
        (∀ j, j < 4 → vat t.drover j none =
          if j = op then some (.move root desc src dst n (ctl.toNat / 2 ^ 16 % 2 ^ 7) 0 0 none) else vat s.drover j none) ∧
        (∀ c, c < 64 → ∀ e, e ∈ (t.coreAt c).tlb ↔ e ∈ (s.coreAt c).tlb ∧ ∀ i, i < n → ¬ dropsEntry
          { asid := root.toNat / 2 ^ 52, page := some (src.toNat / 2 ^ 16 % 2 ^ 41 + i), thread := none, drover := none, received := [] }
          e) ∧
        (∀ k, t.slot k = { (if k = s.cur then s.me.onward else s.slot k) with queue := (t.slot k).queue }))

/-- The drover copies the line of a moving page of HBM that comes next, installs the mark once the whole page is copied, and after the
last page has the old translations dropped; then the old places forward no longer and STATUS is DONE with the count of marked
pages (R242, R246). -/
def Claims.DroverCopiesAndMarks : Prop :=
  ∀ (s : State) (op : Fin 4) (root desc src dst : X64) (n mcls i m pd : Nat) (f : Fwd),
    (vat s.drover op.val none = some (.move root desc src dst n mcls i m none) → i < n → s.poison = [] → s.svc.offParts = [] →
      (∀ c, (s.coreAt c).l1 = []) → f.old * 65536 + 65535 < hbmBytes → f.new * 65536 + 65535 < hbmBytes → s.fwds = [f] → f.op = op.val → f.page = i → f.old ≠ f.new → f.upto = 0 →
      ∀ j, j < 512 → f.ahead = List.range j →
      let copied := fun a => if f.new * 65536 + 128 * j ≤ a ∧ a < f.new * 65536 + 128 * (j + 1) then
        Memory.read s.mem (a - f.new * 65536 + f.old * 65536) else Memory.read s.mem a
      (j < 511 → ∃ t, exec (.droverCopyLine op) s = .next t ∧
        t = { s with mem := t.mem, fwds := [{ f with ahead := f.ahead ++ [j] }] } ∧ ∀ a, Memory.read t.mem a = copied a) ∧
      (j = 511 → f.ea % 8 = 0 → f.ea / 65536 ≠ f.old → f.ea / 65536 ≠ f.new → memNat s.mem f.ea 8 = f.pte.toNat →
        ∃ t, exec (.droverCopyLine op) s = .next t ∧
          t = { s with mem := t.mem, fwds := [{ f with ahead := f.ahead ++ [j] }], drover := t.drover, tlbis := t.tlbis } ∧
          memNat t.mem f.ea 8 = markEntry (dst + BitVec.ofNat 64 (i * 65536)) mcls ∧
          (∀ a, a < f.ea ∨ f.ea + 8 ≤ a → Memory.read t.mem a = copied a) ∧
          (∀ x, x < 4 → vat t.drover x none =
            if x = op.val then some (.move root desc src dst n mcls (i + 1) (m + 1) none) else vat s.drover x none) ∧
          (i + 1 < n → t.tlbis = s.tlbis) ∧
          (i + 1 = n → ∃ l, t.tlbis = s.tlbis ++ l ∧ l.length = n ∧ ∀ x q, l[x]? = some q →
            q = ({ asid := root.toNat / 2 ^ 52, page := some ((src.toNat / 2 ^ 16 + x) % 2 ^ 41), thread := none
                   drover := some op.val, received := [] } : Tlbi)))) ∧
    (vat s.drover op.val none = some (.move root desc src dst n mcls n m none) →
      (∀ t ∈ s.tlbis, t.drover = some op.val → ∀ c, c < 64 → c ∈ t.received) → s.held = [] → (∀ r ∈ s.reqs, r.outcome ≠ .waiting) →
      let u : State := { s with
        fwds := s.fwds.filter (fun g => g.op ≠ op.val), tlbis := s.tlbis.filter (fun t => t.drover ≠ some op.val)
        drover := s.drover.setIfInBounds op.val none }
      u.reportsTo root desc (m % 2 ^ 40 * 2 ^ 24 + 2) pd →
      exec (.droverInvalidateAck op) s = .next { u with mem := reported u.mem pd 2 m 0 })

/-- RELMOVE starts a move, and the drover copies lines, marks pages and reports: its parts, each a definition above. -/
def Obligations.RelocationsMovePages : Prop :=
  Claims.RelmoveStartsMove ∧ Claims.DroverCopiesAndMarks

/-- SWEEP starts a sweep with STATUS STARTED; the drover leaves a word whose page carries no mark of the class, rewrites one by
a hop, or two whatever the second class, leaves one at a third mark, and ends with STATUS DONE and the count of rewritten words
(R243, R246, R248). -/
def Obligations.SweepRewritesMarkedPointers : Prop :=
  ∀ (s : State) (d a : Fin 32) (op : Fin 4) (pd pa : Nat) (start len root desc p stop w e1 e2 : X64) (cls count : Nat)
    (again : Bool) (x1 x2 : Nat),
    let D := s.me.rx d.val
    let on := fun (c : Nat) (m : List Host.Cell) => ({ s with
      mem := m, drover := s.drover.setIfInBounds op.val (some (.sweep root desc (p + 8) stop cls c false)) } : State)
    let u : State := { s with
      drover := s.drover.setIfInBounds op.val (some (.sweep s.me.ptroot D start (start + len) (s.me.rx a.val).toNat 0 false)) }
    (s.readsDesc D pd start len → D.toNat % 32 = 0 → (s.me.rx a.val).toNat < 2 ^ 7 → start.toNat % 8 = 0 → len.toNat % 8 = 0 →
      len.toNat ≤ 2 ^ 40 → vat s.drover op.val none = none → (∀ i, i < op.val → (vat s.drover i none).isSome = true) →
      u.reportsTo s.me.ptroot D 1 (pd + 16) →
      exec (.sweep d a) s = .next { u.setMe s.me.onward with mem := reported s.mem (pd + 16) 1 0 0 }) ∧
    (s.sweepsAt op.val root desc p stop cls count again pa → memNat s.mem pa 8 = w.toNat →
      (s.pageLeaf root w = .ok none ∨ (s.pageLeaf root w = .ok (some (e1, x1)) ∧ (fld e1 12 2 < 2 ∨ fld e1 57 7 ≠ cls)) →
        exec (.sweepWord op) s = .next (on count s.mem)) ∧
      (s.pageLeaf root w = .ok (some (e1, x1)) → 2 ≤ fld e1 12 2 → fld e1 57 7 = cls →
        let w1 := hopped e1 w
        (s.pageLeaf root w1 = .ok none ∨ (s.pageLeaf root w1 = .ok (some (e2, x2)) ∧ fld e2 12 2 < 2) →
          exec (.sweepWord op) s = .next (on (count + 1) (storeNat s.mem pa 8 w1.toNat))) ∧
        (s.pageLeaf root w1 = .ok (some (e2, x2)) → 2 ≤ fld e2 12 2 →
          let w2 := hopped e2 w1
          (s.pageLeaf root w2 = .ok none ∨ (∃ e3 x3, s.pageLeaf root w2 = .ok (some (e3, x3)) ∧ fld e3 12 2 < 2) → exec (.sweepWord op) s = .next (on (count + 1) (storeNat s.mem pa 8 w2.toNat))) ∧
          ((∃ e3 x3, s.pageLeaf root w2 = .ok (some (e3, x3)) ∧ 2 ≤ fld e3 12 2) →
            exec (.sweepWord op) s = .next (on count s.mem))))) ∧
    (vat s.drover op.val none = some (.sweep root desc stop stop cls count again) → s.reqs = [] →
      let v : State := { s with drover := s.drover.setIfInBounds op.val none }
      v.reportsTo root desc (count % 2 ^ 40 * 2 ^ 24 + 2) pd →
      exec (.sweepWord op) s = .next { v with mem := reported s.mem pd 2 count 0 })

/-- VSAVE writes back what the registers owe memory, writes every field of the save image that has changed, the records of live
registers among them, and no other byte, and leaves the thread without vector state; without vector state it does nothing (R184,
R200, R257, R258, R260). -/
def Claims.VsaveWritesImage : Prop :=
  ∀ (s : State) (a : Fin 32),
    let va := s.me.rx a.val
    let pa := physOf va
    let fields := imageFields s.me (memNat s.mem (pa + 8) 8)
    (s.hasImage va → s.me.paysAt pa → s.me.tr.vu = true → s.me.queue = [] ∨ s.me.tr.froz = true → s.me.cap.toNat ≤ 5 →
      s.me.lane.vext.toNat ≤ 32 → s.me.queue.length ≤ 64 →
      ∃ t, exec (.vsave a) s = .next t ∧
        t = { s.setMe { s.me.onward with
          lane := { s.me.lane with vdirty := 0, adirty := 0, vext := 0 }, q := Vector.replicate 16 ResReg.reset, landed := 0
          queue := [], lastCv := none, tr := { s.me.tr with froz := false, vu := false } } with mem := t.mem, cores := t.cores } ∧
        (∀ c, t.coreAt c = { s.coreAt c with pieces := (t.coreAt c).pieces }) ∧
        (∀ f ∈ fields, ∀ j, j < f.2.1 → Memory.read t.mem (pa + f.1 + j) = byteOf f.2.2 j) ∧
        (∀ p ∈ owedBy s.me, ∀ j b, p.2[j]? = some b → Memory.read t.mem (p.1 % 2 ^ 52 + j) = b) ∧
        (∀ x, (∀ f ∈ fields, x < pa + f.1 ∨ pa + f.1 + f.2.1 ≤ x) →
          (∀ p ∈ owedBy s.me, x < p.1 % 2 ^ 52 ∨ p.1 % 2 ^ 52 + p.2.length ≤ x) → Memory.read t.mem x = Memory.read s.mem x)) ∧
    (s.acts → s.me.tr.priv = true → s.me.tr.vu = true → va.toNat % 256 = 0 → s.me.queue ≠ [] → s.me.tr.froz = false →
      exec (.vsave a) s = .next (s.setMe { s.me with st := .wait, cause := 2, busy := true })) ∧
    (s.acts → s.me.tr.priv = true → va.toNat % 256 = 0 → s.me.tr.vu = false → exec (.vsave a) s = .next (s.setMe s.me.onward)) ∧
    (s.acts → s.me.tr.priv = true → s.trapsAtOnce → va.toNat % 256 ≠ 0 → trapsHere (.vsave a) s .illegalOperand 0 0)

/-- VREST loads CAP, registers, accumulators, masks, codebooks, lane state, VL and the queue of an image, sets its live registers up
and freezes a queue that is not empty; the slice waits for entries of a queue that runs; with vector state, and for a FORMAT that is
not 1 or a CAP above 5, it is an illegal operand (R27, R200, R257, R261; that restored entries see the registers LIVE is the model's
reading, log 99). -/
def Claims.VrestLoadsImage : Prop :=
  ∀ (s : State) (a : Fin 32),
    let va := s.me.rx a.val
    let pa := physOf va
    let h := memNat s.mem pa 8
    let count := memNat s.mem (pa + 0x58) 8
    let ready := s.me.queue = [] ∨ s.me.tr.froz = true
    let live := (List.range 16).filter fun q => (memNat s.mem (pa + 0x60) 8).testBit q
    let descOf (q : Nat) : Desc := Desc.parse ((List.range 128).map fun i => Memory.read s.mem (pa + 0x1200 + 256 * q + i))
    (s.hasImage va → s.me.tr.vu = false → ready → s.me.q = Vector.replicate 16 ResReg.reset → h % 2 ^ 16 = 1 →
      h / 2 ^ 16 % 2 ^ 4 ≤ 5 → count ≤ 64 → (∀ q ∈ live, (descOf q).mfc ≠ 3 ∧ (descOf q).shv = false) →
      (live ≠ [] → ∀ i, i < count → memNat s.mem (pa + 0x2200 + 32 * i) 8 / 2 ^ 36 % 2 ^ 2 ≠ 1) →
      ∃ l es sl t, exec (.vrest a) s = .next t ∧ (∀ c, t.coreAt c = { s.coreAt c with pieces := (t.coreAt c).pieces }) ∧
        t = { s.setMe { s.me.onward with
          q := sl.q, landed := sl.landed, qdone := sl.qdone
          cap := BitVec.ofNat 4 (h / 2 ^ 16), lane := l, queue := es, lastCv := none
          svl := BitVec.ofNat 13 (memNat s.mem (pa + 0x50) 8)
          swidth := some (Ty.ofCode (Fin.ofNat 16 (memNat s.mem (pa + 0x50) 8 / 2 ^ 16)))
          tr := { s.me.tr with vu := true, froz := s.me.tr.froz || decide (0 < count) } } with cores := t.cores } ∧
        RestoredLanes s.mem pa (if count = 0 then memNat s.mem (pa + 0x20) 8 else memNat s.mem (pa + 0x2218) 8) l ∧
        RestoredRegisters s.mem pa live s.me sl ∧ es.length = count ∧ ∀ i e, es[i]? = some e → RestoredEntry s.mem (pa + 0x2200 + 32 * i) e) ∧
    (s.acts → s.me.tr.priv = true → s.me.tr.vu = false → va.toNat % 256 = 0 → ¬ ready →
      exec (.vrest a) s = .next (s.setMe { s.me with st := .wait, cause := 2, busy := true })) ∧
    (s.acts → s.me.tr.priv = true → s.trapsAtOnce → s.me.tr.vu = true → trapsHere (.vrest a) s .illegalOperand 0 0) ∧
    (s.hasImage va → s.trapsAtOnce → s.me.tr.vu = false → ready → h % 2 ^ 16 ≠ 1 ∨ 5 < h / 2 ^ 16 % 2 ^ 4 →
      trapsAsking (.vrest a) s .illegalOperand 0 0)

/-- VSAVE writes the save image and VREST loads it: its parts, each a definition above. -/
def Obligations.ImagesAreSavedAndRestored : Prop :=
  Claims.VsaveWritesImage ∧ Claims.VrestLoadsImage

/-- A pre-emption request stays pending at a bound slot; at an instruction boundary with INH = 0 it is taken: the queue freezes
with its head's VSTART, the status and the PC are saved, and the handler runs with CAUSE PREEMPT; while the accesses that a far
store has issued are open the slot is in STOP (R85, R215, R253, R254, R255). That EPC is the PC of the next word is the model's reading
(log 55). -/
def Claims.PreemptionFreezesTheQueue : Prop :=
  ∀ (s : State) (k : Fin 1024),
    let sl := s.slot k.val
    (sl.st ≠ .vacant → exec (.preemptRequest k) s = .next (s.setSlot k.val { sl with preempt := true })) ∧
    (sl.st = .vacant → exec (.preemptRequest k) s = .next s) ∧
    (sl.preempt = true → sl.tr.inh = true → exec (.preemptTaken k) s = .next s) ∧
    (sl.preempt = true → sl.tr.inh = false → sl.st ≠ .vacant → sl.st ≠ .stop → (∀ p, sl.pend = some p → p.lane = false) →
      (∀ r ∈ s.reqs, r.owner ≠ 4 * k.val) → (∀ d, sl.phase ≠ .pushed d) → (∀ d v, sl.phase ≠ .value d v) →
      ((∀ r ∈ s.reqs, r.owner = 4 * k.val + 1 → sl.headStores = false ∧ (sl.headLoads = true → r.lost = false)) →
        ∃ t, exec (.preemptTaken k) s = .next t ∧ s.sameSlotsBut t k.val ∧
          t.slot k.val = { sl.preempted ((s.coreAt (coreOf k.val)).waiting.contains k.val) with pend := none }) ∧
      (sl.headStores = true → (∃ r ∈ s.reqs, r.owner = 4 * k.val + 1) → s.halted = false →
        bitAt (s.coreAt (coreOf k.val)).dbg.trctl 0 = false →
        exec (.preemptTaken k) s = .next (s.setSlot k.val { sl with st := .stop, prev := sl.st, closing := true })))

/-- A debugger writes a register of a stopped thread as an x write or a CSRW does, and nothing of a thread that runs (R330). -/
def Claims.StoppedThreadsAreWritten : Prop :=
  ∀ (s : State) (k : Fin 1024) (v : BitVec 64) (i : Fin 32) (c : BitVec 11) (l : Lane) (r : Option Slot),
    let sl := s.slot k.val
    let csr := Instr.threadStateWrite k (.csr c) v
    (sl.st = .stop → exec (.threadStateWrite k (.x i) v) s = .next (s.setSlot k.val (sl.wx i.val v))) ∧
    (sl.st = .stop → laneCsrSet sl.lane v c.toNat = some l → exec csr s = .next (s.setSlot k.val { sl with lane := l })) ∧
    (sl.st = .stop → (c.toNat = 0x100 → sl.queue = []) →
      sliceCsrSet sl (s.clusterAt (clusterOf k.val)).energy v c.toNat = some r →
      ∃ t, exec csr s = .next t ∧ t.slot k.val = r.getD sl ∧ s.sameSlotsBut t k.val ∧ t = { s with slots := t.slots }) ∧
    (sl.st ≠ .stop → ∀ reg, exec (.threadStateWrite k reg v) s = .next s)

/-- A pre-emption freezes the queue and enters the handler; a debugger writes registers of stopped threads alone: its parts, each a definition above. -/
def Obligations.PreemptedAndStoppedThreads : Prop :=
  Claims.PreemptionFreezesTheQueue ∧ Claims.StoppedThreadsAreWritten

/-- A counter event at the head of a queue retires in queue order, once its thread holds lane groups: every residency register that
uses a counter it names goes on to its next generation for the entries behind it, a generation that it leaves stays until it has landed,
and no other register changes (R11, R97, R182). -/
def Claims.CounterEventsAdvanceRegisters : Prop :=
  ∀ (s : State) (k : Fin 1024) (e : Entry) (rest : List Entry),
    let sl := s.slot k.val
    sl.queue = e :: rest → e.kind = .counter → sl.tr.froz = false → sl.pend = none → sl.cst ≠ .faulted → sl.st ≠ .stop →
    bitAt (s.coreAt (coreOf k.val)).dbg.trctl 0 = false → (s.claimLanes k.val).isSome = true →
    (∀ q, q < 16 → advances e (sl.reg q) →
      (∀ m ∈ sl.queue, m.kind ≠ .qMarker ∨ m.word.toNat / 2 ^ 25 ≠ 0x68 ∨ m.word.toNat / 2 ^ 21 % 16 ≠ q) ∧
      ∃ g, (sl.reg q).gens[(sl.reg q).past + 1]? = some g ∧ g.n < (sl.reg q).created) →
    ∃ t, exec (.counterEventRetire k) s = .next t ∧ t = { s.setSlot k.val (t.slot k.val) with cores := t.cores } ∧
      (∀ c, t.coreAt c = { s.coreAt c with lanes := (t.coreAt c).lanes }) ∧
      t.slot k.val = { sl with
        queue := rest, lastCv := if rest = [] then none else sl.lastCv, cvVl := (t.slot k.val).cvVl, q := (t.slot k.val).q } ∧
      ∀ q, q < 16 →
        (advances e (sl.reg q) →
          let r := sl.reg q
          let r' := (t.slot k.val).reg q
          r' = { r with gens := r'.gens, past := r'.past } ∧
            r'.atHead = r.gens[r.past + 1]?.map (fun g => { g with epoch := sl.fences }) ∧
            Forgot (r.gens.modify (r.past + 1) fun g => { g with epoch := sl.fences }) r'.gens (r.past + 1) r'.past) ∧
        (¬ advances e (sl.reg q) → (t.slot k.val).reg q = sl.reg q)

/-- A far load whose element lies on a REMOTE page writes the bytes that its answer brought, once no packet of it is still
unanswered, and retires (R213, R216, R301). -/
def Claims.RemoteLoadsCompleteWithTheirAnswer : Prop :=
  ∀ (s : State) (k : Fin 1024) (e : Entry) (sc : Scope) (d a b : Fin 32) (t : Ty) (ord urg strm : Bool)
    (req : LinkReq) (port part addr rcls : Nat) (bytes : List Byte),
    let i := Instr.ldf sc d a b t ord urg strm
    let n := s.lenv k.val e
    AtHead s k.val i e → i.wf = true → t.isUnscaled = true → n.l.vl = 1 → n.l.vstart = 0 → n.l.gov 0 = true →
    (∀ j, j < 8 → vat (s.coreAt (coreOf k.val)).dbg.dbk j 0 = 0) → (s.slot k.val).fenced → s.reqs = [req] → req.owner = 4 * k.val + 1 → req.kind = 2 →
    req.port = port → req.part = part → req.addr = addr → req.len = t.bits / 8 → e.scalar.toNat % (t.bits / 8) = 0 →
    s.translate (coreOf k.val) (s.slot k.val).ptroot (s.slot k.val).tr.priv .read (t.bits / 8) e.scalar =
      .ok (s, .ok (.far port part addr rcls) e.scalar 0 none) →
    (req.outcome = .waiting → exec (.farAccessComplete k) s = .next s) ∧
    (req.outcome = .ok bytes → bytes.length = t.bits / 8 →
      ∃ u, exec (.farAccessComplete k) s = .next u ∧ FarFrame { s with reqs := [] } u k.val ∧ u.mem = s.mem ∧
        (u.slot k.val).queue = (s.slot k.val).queue.tail ∧
        LoadedInto n (u.slot k.val).lane d.val t 0 1 (fun _ => ofBytes bytes) (fun _ => 0))

/-- Counter events advance the registers in queue order; remote loads complete with their answer: its parts, each a definition above. -/
def Obligations.EventsAndAnswersRetire : Prop :=
  Claims.CounterEventsAdvanceRegisters ∧ Claims.RemoteLoadsCompleteWithTheirAnswer

/-- The current bucket refills up to its capacity, which takes effect there, PLIM follows its window, a lane group that no thread holds
gates, CCUR stores the nearest legal values, at once or when its cluster runs again, and a cluster gates and wakes as its table says; the
energy counter takes its meter's value (R263, R315, R316, R317, R318, R319). -/
def Claims.PowerFollowsItsTables : Prop :=
  ∀ (s : State) (c : Fin 64) (n : Fin 16) (lg : Fin 32) (waited : Nat) (v : BitVec 64),
    let x := s.coreAt c.val
    let cl := s.clusterAt n.val
    (∃ t, exec (.bucketRefill c) s = .next t ∧
      OnlyCore s t c.val { x with
        bal16 := min (16 * x.capacity) (x.bal16 + x.rate), capNow := x.capacity }) ∧
    (∃ t, exec (.pressureWindowEnd c waited) s = .next t ∧
      OnlyCore s t c.val { x with plim := plimAfter x.plim x.plimmax waited }) ∧
    (∃ t, exec (.laneGroupGate c lg) s = .next t ∧
      ((∃ p ∈ x.lanes, p.1 = lg.val) → OnlyCore s t c.val x) ∧
      ((∀ p ∈ x.lanes, p.1 ≠ lg.val) → (∀ g, g ∈ (t.coreAt c.val).gatedLanes ↔ g = lg.val ∨ g ∈ x.gatedLanes) ∧
        OnlyCore s t c.val { x with gatedLanes := (t.coreAt c.val).gatedLanes })) ∧
    (∃ t, exec (.laneGroupUngate c lg) s = .next t ∧
      (∀ g, g ∈ (t.coreAt c.val).gatedLanes ↔ g ≠ lg.val ∧ g ∈ x.gatedLanes) ∧
      OnlyCore s t c.val { x with gatedLanes := (t.coreAt c.val).gatedLanes }) ∧
    WindowWrite s (.ccurWrite c v) c.val (16 + 8 * (c.val % 4)) v (fun t => OnlyCore s t c.val { x with
      capacity := max 32 (v.toNat / 2 ^ 32 % 2 ^ 12), rate := max 16 (v.toNat / 2 ^ 16 % 2 ^ 11)
      plimmax := legalLimit (v.toNat / 2 ^ 8 % 2 ^ 6), plim := min x.plim (legalLimit (v.toNat / 2 ^ 8 % 2 ^ 6)) }) ∧
    (∃ t, exec (.clusterIdleTimeout n) s = .next t ∧ OnlyCluster s t n.val
      (if cl.st = .running ∧ cl.auto = true ∧ cl.gidle ≠ 0 ∧ ∀ p ∈ s.slots, clusterOf p.1 = n.val → p.2.st = .vacant then
        { cl with st := .gating } else cl)) ∧
    (∃ t, exec (.clusterGatingComplete n) s = .next t ∧ ClusterTurns s t n.val (if cl.st = .gating then .gated else cl.st)) ∧
    (∃ t, exec (.cpwrWake n) s = .next t ∧
      ClusterTurns s t n.val (if cl.st = .gated then .waking else if cl.st = .gating then .running else cl.st)) ∧
    (∃ t, exec (.clusterWakeComplete n) s = .next t ∧ ClusterTurns s t n.val (if cl.st = .waking then .running else cl.st)) ∧
    (∃ t, exec (.energyMeterUpdate n v) s = .next t ∧ OnlyCluster s t n.val { cl with energy := v })

/-- A core's network port shares 1,024 tokens among the active IDs at a refill, issues one piece of the next ID in rising order
for one token while its window is not full, and its window halves on the first mark of 1,024 cycles and grows by one without (R264,
R314, R353). A cycle in which no piece issues still makes the waiting ones old, which is the model's choice (log 62); an ID whose last slot has been vacated counts with the SHARE that the port read last, which is its
reading (log 109); how many
outstanding pieces have their reply in a cycle, and whether one carries a mark, is left open (log 97). -/
def Claims.PortsShareTheirPieces : Prop :=
  ∀ (s : State) (c : Fin 64) (ids : List Nat) (i : Nat),
    let x := s.coreAt c.val
    (ids.Pairwise (· < ·) → (∀ j, j ∈ ids ↔ j ∈ x.issued ∨ ∃ p ∈ x.pieces, p.old = true ∧ p.id = j) →
      ∃ t, exec (.portRefill c) s = .next t ∧
        OnlyCore s t c.val { x with
          buckets := (t.coreAt c.val).buckets, issued := [], pieces := x.pieces.map fun p => { p with old := true }
          shares := ids.map fun j => (j, shareOfId s c.val j) } ∧
        ∀ j, alookup 0 (t.coreAt c.val).buckets j = if j ∈ ids then tokensOf (shareOfId s c.val) ids j else 0) ∧
    (∃ t n marked, exec (.pieceIssue c) s = .next t ∧ n ≤ x.outstanding ∧ (n = 0 → marked = false) ∧
      let y := x.answered n marked
      (x.outstanding = 0 → t.free = s.free) ∧
      (y.outstanding < y.window → issuesNext x i →
        OnlyCore { s with free := t.free } t c.val { y with
          pieces := (x.pieces.eraseP fun p => p.id == i).map fun p => { p with old := true }
          buckets := (t.coreAt c.val).buckets, issued := (t.coreAt c.val).issued, lastId := some i
          outstanding := y.outstanding + 1 } ∧
        (∀ j, j ∈ (t.coreAt c.val).issued ↔ j = i ∨ j ∈ x.issued) ∧
        ∀ j, alookup 0 (t.coreAt c.val).buckets j = alookup 0 x.buckets j - if j = i then 1 else 0) ∧
      (y.window ≤ y.outstanding ∨ (∀ j, ¬ mayIssue x j) →
        OnlyCore { s with free := t.free } t c.val { y with pieces := x.pieces.map fun p => { p with old := true } })) ∧
    (∃ t, exec (.congestionWindowIncrease c true) s = .next t ∧
      OnlyCore s t c.val { x with halved := false, window := if x.halved = true then x.window else max 4 (x.window / 2) }) ∧
    (∃ t, exec (.congestionWindowIncrease c false) s = .next t ∧
      OnlyCore s t c.val { x with halved := false, window := if x.halved = true then x.window else min 256 (x.window + 1) })

/-- Buckets, pressure windows, gating, cluster power and the network port follow their tables: its parts, each a definition above. -/
def Obligations.PowerAndPortsFollowTheirTables : Prop :=
  Claims.PowerFollowsItsTables ∧ Claims.PortsShareTheirPieces

/-- HALT stops every thread of the device, sets every core's REASON and makes running contexts HALTED, RESUME lets them all go on,
STEP releases one stopped thread of its core, as writes of DHALT in the window of the core's cluster, and a drain limit ends an unfinished drain, or a step that stalls, with DRAIN 0 (R85,
R215, R225, R250, R318, R320, R321, R322, R323, R324). -/
def Claims.DebugHaltsAndResumes : Prop :=
  ∀ (s : State) (c : Fin 64) (thr : Fin 16) (k : Fin 1024),
    let j := 16 * c.val + thr.val
    let off := 0x140 + 128 * (c.val % 4)
    let sthr := (s.coreAt c.val).dbg.sthr
    WindowWrite s (.dhaltHalt c) c.val off (BitVec.ofNat 64 (1 + sthr * 2 ^ 20)) (fun t =>
      (s.halted = false → t.halted = true ∧ t.haltCore = c.val ∧ (∀ k, HaltedSlot s k (t.slot k)) ∧
        (s.untracedPart → (∀ i, i < 64 → (t.coreAt i).dbg =
          { (s.coreAt i).dbg with reason := if i = c.val then 3 else 5, drain := true }) ∧ (s.ctxs = [] → s.sameMemory t)) ∧
        ∀ n x, s.runsContext n x → ∃ y, t.ctxOf (some n) = some y ∧ y.st = .halted) ∧
      (s.halted = true → t = s)) ∧
    WindowWrite s (.dhaltResume c) c.val off (BitVec.ofNat 64 (2 + sthr * 2 ^ 20)) (fun t =>
      t.halted = false ∧ (∀ k, t.slot k = resumedSlot (s.slot k)) ∧
      (∀ i, (t.coreAt i).dbg = (s.coreAt i).dbg) ∧ (s.ctxs = [] → s.sameMemory t) ∧
      ∀ n x, { s with slots := t.slots }.runsContext n x → ∃ y, t.ctxOf (some n) = some y ∧ y.st = .running) ∧
    WindowWrite s (.dhaltStep c thr) c.val off (BitVec.ofNat 64 (4 + thr.val * 2 ^ 20)) (fun t =>
      (s.halted = true → t.slot j = resumedSlot (s.slot j)) ∧ (s.halted = false → t.slot j = s.slot j) ∧ s.sameSlotsBut t j ∧
      OnlyCore { s with slots := t.slots } t c.val { s.coreAt c.val with
        dbg := { (s.coreAt c.val).dbg with sthr := thr.val } }) ∧
    let sl := s.slot k.val
    let dbg := (s.coreAt (coreOf k.val)).dbg
    (s.halted = true → sl.st = .stop → sl.stopping = true →
      ∃ t, exec (.convoyDrainLimit k) s = .next t ∧ t.slot k.val = sl.cutShort sl.prev ∧ CutShort s t k.val dbg) ∧
    (s.halted = true → sl.st ≠ .stop → sl.st ≠ .vacant → bitAt dbg.trctl 0 = false →
      ∃ t, exec (.convoyDrainLimit k) s = .next t ∧ t.slot k.val = sl.cutShort sl.st ∧
        CutShort s t k.val { dbg with reason := 4, sthr := k.val % 16 }) ∧
    (s.halted = false ∨ sl.st = .vacant ∨ sl.st = .stop ∧ sl.stopping = false → exec (.convoyDrainLimit k) s = .next s)

/-- A sample writes one 32-byte record for the bound slot of its core behind the last one: the kind, core and thread, the PC,
TSTAT and LANDED, in physical memory (R86, R325, R326). -/
def Claims.SamplesAreTraced : Prop :=
  ∀ (s : State) (c : Fin 64) (thr : Fin 16),
    let k := 16 * c.val + thr.val
    let sl := s.slot k
    let d := (s.coreAt c.val).dbg
    let n := 128 * 2 ^ (d.trbase.toNat % 2 ^ 4)
    let at_ := d.trbase.toNat / 2 ^ 12 % 2 ^ 40 * 2 ^ 12 + 32 * (d.tridx % n)
    d.trctl.toNat / 2 ^ 32 % 2 ^ 16 ≠ 0 → d.trctl.getLsbD 0 = true → d.trctl.getLsbD 22 = true → d.trfull = false →
    s.plain → at_ + 32 ≤ hbmBytes → sl.st ≠ .vacant → (∀ j, j < 16 → j ≠ thr.val → (s.slot (16 * c.val + j)).st = .vacant) →
    ∃ t, exec (.traceSample c) s = .next t ∧
      memNat t.mem at_ 8 / 2 ^ 40 = 6 * 2 ^ 16 + c.val * 2 ^ 8 + thr.val ∧ memNat t.mem (at_ + 8) 8 = sl.pc.toNat ∧
      memNat t.mem (at_ + 16) 8 =
        (if sl.st = .wait ∨ sl.st = .drain then sl.cause % 16 else 0) * 2 ^ 8 +
          (match sl.st with | .vacant => 0 | .run => 1 | .wait => 2 | .drain => 3 | .stop => 4) ∧
      memNat t.mem (at_ + 24) 8 = sl.landed.toNat ∧
      (∀ a, a < at_ ∨ at_ + 32 ≤ a → Memory.read t.mem a = Memory.read s.mem a) ∧
      OnlyCore { s with mem := t.mem, free := t.free } t c.val { s.coreAt c.val with
        dbg := { d with tridx := (d.tridx + 1) % n, trfull := decide (d.tridx % n + 1 = n ∧ d.trctl.getLsbD 1 = false) } }

/-- HALT, RESUME and STEP act on the threads; a sample writes its trace record: its parts, each a definition above. -/
def Obligations.DebugHaltsAndTraces : Prop :=
  Claims.DebugHaltsAndResumes ∧ Claims.SamplesAreTraced

/-- The queue registers act as their table says: the doorbell sets TAIL and wakes an IDLE queue with packets, RESUME and SKIP act
on a FAULTED queue alone, EN enables a DISABLED queue and disables any other; a queue whose head has a WRITE on its way keeps that
packet until it is done (R266, R267, R270). -/
def Claims.QueueRegistersAct : Prop :=
  ∀ (s : State) (n : Fin 64) (tail : BitVec 32),
    let q := s.hqAt n.val
    (∃ t, exec (.hqtailDoorbell n tail) s = .next t ∧ OnlyQueue s t n.val { q with
      tail := tail, st := if q.st = .idle ∧ q.head ≠ tail ∧ s.halted = false then .active else q.st }) ∧
    (∃ t, exec (.hqctlResume n) s = .next t ∧
      OnlyQueue s t n.val (if q.st = .faulted then { q with st := .active, err := 0 } else q)) ∧
    (∃ t, exec (.hqctlSkip n) s = .next t ∧
      OnlyQueue s t n.val (if q.st = .faulted then { q with st := .active, err := 0, head := q.head + 1 } else q)) ∧
    (q.st ≠ .disabled → exec (.hqcfgEnable n) s = .next s) ∧ (q.st = .disabled → exec (.hqcfgDisable n) s = .next s) ∧
    ((∀ r ∈ s.reqs, r.owner ≠ queueOwner n.val) →
      (q.st = .disabled → ∃ t, exec (.hqcfgEnable n) s = .next t ∧
        OnlyQueue s t n.val { q with st := if q.head = q.tail then .idle else .active, err := 0, pkt := [], memWait := false }) ∧
      (q.st ≠ .disabled → ∃ t, exec (.hqcfgDisable n) s = .next t ∧
        OnlyQueue s t n.val { q with st := .disabled, err := 0, pkt := [], memWait := false })) ∧
    ((∃ r ∈ s.reqs, r.owner = queueOwner n.val ∧ r.kind = 1) →
      (q.st = .disabled → ∃ t, exec (.hqcfgEnable n) s = .next t ∧ OnlyQueue s t n.val { q with st := .active }) ∧
      (q.st ≠ .disabled → ∃ t, exec (.hqcfgDisable n) s = .next t ∧ OnlyQueue s t n.val { q with st := .disabled, err := 0 }))

/-- WAIT-WORD passes once its word is at least VALUE and blocks the queue until then, WRITE-WORD stores VALUE, MARKER writes its
tag to MARK; a packet that is ordered behind open launches blocks first; a packet of an unknown type, a misaligned address and a tail
overrun fault the queue with ERR 1, 3 and 6, and an ACTIVE queue without packets turns IDLE (R267, R268, R269, R270). That a vector
belongs to the function that owns the queue is the model's reading (log 102). -/
def Claims.PacketsActAtTheHead : Prop :=
  ∀ (s : State) (n : Fin 64) (w : Nat → X64),
    let q := s.hqAt n.val
    let word := memNat s.mem (physOf (w 1)) 8
    (s.headIs n.val w → packetOk s n.val w 2 4 (some 3) → wholeIn (w 1) 8 8 → (w 2).toNat ≤ word →
      (∃ t, exec (.packetWaitWord n) s = .next t ∧
        OnlyQueue { s with svc := { s.svc with msi := signalled s n.val w } } t n.val (passedHead q)) ∧
      (q.st = .blocked → exec (.waitWordReread n) s = exec (.packetWaitWord n) s)) ∧
    (s.headIs n.val w → packetOk s n.val w 2 4 (some 3) → wholeIn (w 1) 8 8 → word < (w 2).toNat →
      (q.st ≠ .blocked ∨ q.memWait = false → ∃ t, exec (.packetWaitWord n) s = .next t ∧
        OnlyQueue s t n.val { q with st := .blocked, pkt := (List.range 8).map w, memWait := true }) ∧
      (q.st = .blocked → q.memWait = true → exec (.packetWaitWord n) s = .next s)) ∧
    (∀ i type used scope, shortPacket n i type used scope → s.headIs n.val w → packetForm w type used scope →
      (w 0).getLsbD 8 = true → q.opn ≠ 0 → q.st ≠ .blocked → ∃ t, exec i s = .next t ∧
        OnlyQueue s t n.val { q with st := .blocked, pkt := (List.range 8).map w, memWait := false }) ∧
    (∀ i type used scope, shortPacket n i type used scope → type ≠ 4 → s.headIs n.val w →
      packetOk s n.val w type used scope → (w 1).toNat % 8 ≠ 0 →
      ∃ t, exec i s = .next t ∧ t.hqAt n.val = faultedQueue q 3) ∧
    (∀ i type used scope, shortPacket n i type used scope → s.halted = false → s.svc.boot = 4 → s.svc.offParts = [] →
      s.reqs = [] → q.st = .active → q.head = q.tail →
      ∃ t, exec i s = .next t ∧ OnlyQueue s t n.val { q with st := .idle, pkt := [] }) ∧
    (s.headIs n.val w → packetOk s n.val w 3 4 (some 3) → wholeIn (w 1) 8 8 →
      ∃ t, exec (.packetWriteWord n) s = .next t ∧ OnlyQueue { s with
        mem := storeNat s.mem (physOf (w 1)) 8 (w 2).toNat, svc := { s.svc with msi := signalled s n.val w } } t n.val (passedHead q)) ∧
    (s.headIs n.val w → packetOk s n.val w 4 1 none →
      ∃ t, exec (.packetMarker n) s = .next t ∧
        OnlyQueue { s with svc := { s.svc with msi := signalled s n.val w } } t n.val
          { passedHead q with mark := BitVec.ofNat 32 ((w 0).toNat / 2 ^ 32) }) ∧
    (s.headIs n.val w → (w 0).toNat % 2 ^ 8 = 0 ∨ 4 < (w 0).toNat % 2 ^ 8 →
      ∃ t, exec (.packetLaunch n) s = .next t ∧ t.hqAt n.val = faultedQueue q 1) ∧
    (s.halted = false → s.svc.boot = 4 → s.svc.offParts = [] → q.st ≠ .disabled → q.st ≠ .faulted → q.head ≠ q.tail →
      s.reqs = [] → 64 * 2 ^ (q.base.toNat % 16) < (q.tail - q.head).toNat →
      ∃ t, exec (.packetLaunch n) s = .next t ∧ t.hqAt n.val = faultedQueue q 6)

/-- Queue registers act as their table says, and the packets at a queue's head take effect: its parts, each a definition above. -/
def Obligations.QueuesRunTheirPackets : Prop :=
  Claims.QueueRegistersAct ∧ Claims.PacketsActAtTheHead

/-- A LAUNCH whose record is FREE and whose kernel object keeps the limits is accepted: its context is LOADING, the record says
so, OPEN grows and HEAD advances (R268, R269, R271, R276, R279). That the kernel object is read under the record's PTROOT is the model's
reading (log 103). -/
def Claims.LaunchesAreAccepted : Prop :=
  ∀ (s : State) (n : Fin 64) (w : Nat → X64),
    let q := s.hqAt n.val
    let r := wordAt s (w 2)
    let o := wordAt s (w 1)
    s.headIs n.val w → packetOk s n.val w 1 5 (some 4) → wholeIn (w 1) 256 256 → wholeIn (w 2) 256 256 → (w 3).toNat % 8 = 0 →
    q.opn < 16 → (r 0).toNat % 16 = 0 → (r 1).getLsbD 0 = false → ObjectOk o →
    (∀ p ∈ s.ctxs, p.1 ≠ s.nextCtx ∧ p.2.crec ≠ w 2) →
    ∃ t, exec (.packetLaunch n) s = .next t ∧
      OnlyQueue { s with
        mem := storeNat s.mem (physOf (w 2)) 8 1, ctxs := s.ctxs ++ [(s.nextCtx, acceptedCtx s n.val w r o)]
        nextCtx := s.nextCtx + 1 } t n.val { passedHead q with opn := q.opn + 1 }

/-- On an empty part the first group of a launch is placed in one step on the first cluster, by PACK or spread; every thread
starts at the entry PC with its registers at reset, its group is BOUND, and the record reads RUNNING (R250, R271, R273, R278, R284,
R285, R349); where the loft bytes of a thread and of the group area lie is left open (log 96). -/
def Claims.GroupsArePlaced : Prop :=
  ∀ (s : State) (n : Nat) (c : Ctx), s.placesFirst n c →
    let n0 := c.counts.getD 0 1
    ∃ t area, exec .groupPlace s = .next t ∧ area % 256 = 0 ∧ area + c.loftg ≤ 32 * 2 ^ 20 ∧
      (∀ f, f < n0 → ∃ l, l % 256 = 0 ∧ l + c.loftt ≤ 32 * 2 ^ 20 ∧
        t.slot (firstSlot c f) = { startedSlot c n f (s.clusterAt 0).energy with loft := l }) ∧
      (∀ k, (∀ f, f < n0 → k ≠ firstSlot c f) → (t.slot k).st = .vacant) ∧
      t.mem = storeNat s.mem (physOf c.crec) 8 3 ∧
      t.ctxs = [(n, { c with
        st := .running, nextGroup := 1
        groups := [(0, {
          st := .bound, cluster := 0, slots := (List.range n0).map fun f => some (firstSlot c f), ended := List.replicate n0 false
          bars := [], badBars := [], boundAt := 0, area := area })] })]

/-- Releasing the record of a FAULTED launch writes its completion word with FLT, the fault's code and the flags, lowers OPEN,
vacates the faulted slot and frees the record; releasing that of an ENDED one frees it (R250, R279, R280, R285). That the vector
belongs to the function that owns the queue is the model's reading (log 102). -/
def Claims.ReleasedRecordsComplete : Prop :=
  ∀ (s : State) (crec : BitVec 64) (n k : Nat) (c : Ctx) (sl : Slot),
    s.ctxs = [(n, c)] → c.crec = crec → c.word = none → bitAt c.hqroot 0 = false → wholeIn crec 8 8 → s.plain →
    s.reqs = [] → c.hq < 64 →
    (c.st = .faulted → s.slots = [(k, sl)] → sl.ctx = some n → sl.st = .stop → sl.cst = .faulted → wholeIn c.cwaddr 8 8 →
      c.faultCode < 2 ^ 8 → k < 1024 →
      let word := 2 ^ 63 + 2 ^ 62 + c.faultCode * 2 ^ 32 + (c.flags.or sl.lane.flags).bits
      ∃ t, exec (.mgmtReleaseRecord crec) s = .next t ∧
        t.mem = storeNat (storeNat s.mem (physOf c.cwaddr) 8 word) (physOf crec) 8 0 ∧ t.ctxs = [] ∧
        (t.slot k).st = .vacant ∧ (t.slot k).ctx = none ∧ s.sameSlotsBut t k ∧
        t.hqAt c.hq = { s.hqAt c.hq with opn := (s.hqAt c.hq).opn - 1 } ∧ (∀ j, j ≠ c.hq → t.hqAt j = s.hqAt j) ∧
        t.svc.msi = if c.irq then s.svc.msi ++ [(functionOf s c.hq, (s.hqAt c.hq).vec.toNat)] else s.svc.msi) ∧
    (c.st = .ended →
      exec (.mgmtReleaseRecord crec) s = .next { s with ctxs := [], mem := storeNat s.mem (physOf crec) 8 0 })

/-- A launch is accepted, its group placed, and its record completed when it is released: its parts, each a definition above. -/
def Obligations.LaunchesRunToCompletion : Prop :=
  Claims.LaunchesAreAccepted ∧ Claims.GroupsArePlaced ∧ Claims.ReleasedRecordsComplete

/-- A port follows its table: TRAIN, RELEASE and DISABLE, the end or failure of training, the loss of keep-alive and a peer's
ERROR-HELD; leaving UP closes it and ends every request over it, UP grants 512, 128 and 16 credits (R306, R308, R309, R312). -/
def Claims.LinkStatesFollowTheirTable : Prop :=
  ∀ (s : State) (p : Fin 16) (cls : LinkClass) (n : Nat),
    let q := s.portAt p.val
    (q.st = .down → s.svc.offParts = [] → ∃ t, exec (.tlctlTrain p) s = .next t ∧ OnlyPort s t p.val (closedPort q .training 0)) ∧
    (q.st ≠ .down → exec (.tlctlTrain p) s = .next s) ∧
    (q.st = .errorHeld → ∃ t, exec (.tlctlRelease p) s = .next t ∧ OnlyPort s t p.val (closedPort q .down 0)) ∧
    (q.st ≠ .errorHeld → exec (.tlctlRelease p) s = .next s) ∧
    (q.st = .training →
      (∃ t, exec (.trainingComplete p) s = .next t ∧ OnlyPort s t p.val { closedPort q .up 0 with credit := #v[512, 128, 16] }) ∧
      (∃ t, exec (.trainingTimeout p) s = .next t ∧ OnlyPort s t p.val (closedPort q .errorHeld 3))) ∧
    (q.st ≠ .up → ∃ t, exec (.tlctlDisable p) s = .next t ∧ OnlyPort s t p.val (closedPort q .down 0)) ∧
    (q.st = .up → s.wordsDone →
      (∃ t, exec (.tlctlDisable p) s = .next t ∧ LeftUp s t p.val (closedPort q .down 0)) ∧
      (∃ t, exec (.keepAliveLoss p) s = .next t ∧ LeftUp s t p.val (closedPort q .errorHeld 2)) ∧
      (∃ t, exec (.peerErrorHeld p) s = .next t ∧ LeftUp s t p.val (closedPort q .errorHeld 4)) ∧
      (∃ t, exec (.keepAliveDue p) s = .next t ∧ OnlyPort s t p.val { q with ctl := q.ctl ++ [.keepAlive] }) ∧
      (∃ t, exec (.linkCredit p cls n) s = .next t ∧ OnlyPort s t p.val { q with
        credit := q.credit.setIfInBounds (classCode cls) (vat q.credit (classCode cls) 0 + n) })) ∧
    exec (.linkKeepAlive p) s = .next s

/-- A DISCARD closes the sender's open packet and ends its request; 64 µs without a flit discard a receiver's entry whole with a
notice; 256 µs without a response end a request with LINK-INCOMPLETE (R304, R308, R309). -/
def Claims.UnansweredRequestsEnd : Prop :=
  ∀ (s : State) (p : Fin 16) (cls : LinkClass) (o : OpenPacket) (tag : BitVec 16) (fs : List (BitVec 1024)),
    let q := s.portAt p.val
    let c := classCode cls
    (∀ r ∈ s.reqs, r.owner < 4096) → s.wordsDone →
    (vat q.tx c none = some o → o.started = true →
      ∃ t, exec (.linkDiscard p cls) s = .next t ∧
        OnlyPort { s with
          reqs := if o.isReq then endedReqs s (fun r => r.port == p.val && r.tag == o.tag) .incomplete else s.reqs } t p.val
          { q with tx := q.tx.setIfInBounds c none, starve := if c = 0 then 0 else q.starve }) ∧
    (vat q.rx c none = some fs →
      ∃ t, exec (.reassemblyTimeout p cls) s = .next t ∧ OnlyPort s t p.val { q with
        rx := q.rx.setIfInBounds c none, discards := q.discards + 1, ctl := q.ctl ++ [.discard cls] }) ∧
    exec (.responseTimeout p tag) s =
      .next { s with reqs := endedReqs s (fun r => r.port == p.val && r.tag == tag.toNat) .incomplete }

/-- Link ports follow their state table, and unanswered requests end: its parts, each a definition above. -/
def Obligations.LinkPortsFollowTheirTable : Prop :=
  Claims.LinkStatesFollowTheirTable ∧ Claims.UnansweredRequestsEnd

/-- At a flit boundary a port sends link control first, then a replay, then the flit of the class that R303 and R304 choose, with
the next SEQ; a whole packet lies in the flit as its tables say, and takes one credit (R300, R301, R303, R304, R307). ACK 4,095 before
any flit was accepted is the model's reading (log 64), and the form of the CRC its choice (log 40). -/
def Claims.FlitsAreSentInOrder : Prop :=
  ∀ (s : State) (p : Fin 16) (c : Nat) (m : LinkCtl) (ms : List LinkCtl) (g : BitVec 1024) (gs : List (BitVec 1024)) (k : Packet)
    (ks : List Packet) (o : OpenPacket),
    let q := s.portAt p.val
    let ack := (q.rxSeq + 4095) % 4096
    q.st = .up →
    (q.ctl = m :: ms → ∃ t, exec (.flitSend p) s = .next t ∧ OnlyPort s t p.val { q with ctl := ms, wire := some (.ctl m ack) }) ∧
    (q.ctl = [] → q.toResend = g :: gs →
      ∃ t, exec (.flitSend p) s = .next t ∧ OnlyPort s t p.val { q with toResend := gs, wire := some (.flit g) }) ∧
    (q.ctl = [] → q.toResend = [] → q.replay.length < 2048 → q.seq < 4096 →
      (c = classCode k.cls → (∀ j, j < 3 → vat q.tx j none = none) → (∀ j, j < 3 → j ≠ c → vat q.wait j [] = []) →
        vat q.wait c [] = k :: ks → k.small → 0 < vat q.credit c 0 →
        ∃ t w, exec (.flitSend p) s = .next t ∧ CarriesPacket w k ∧ w.toNat / 2 ^ 52 = q.seq + w.toNat / 2 ^ 64 * 2 ^ 12 ∧
          w.toNat / 2 ^ 40 % 2 ^ 12 = ack ∧
          OnlyPort s t p.val { q with
            wait := q.wait.setIfInBounds c ks, credit := q.credit.setIfInBounds c (vat q.credit c 0 - 1)
            seq := (q.seq + 1) % 4096, replay := q.replay ++ [w], wire := some (.flit w), starve := 0
            tx := (t.portAt p.val).tx } ∧
          ∀ j, j < 3 → vat (t.portAt p.val).tx j none = none) ∧
      ((∀ j, j < 3 → vat q.tx j none = none → vat q.wait j [] = []) → c < 3 → nextClass q c → vat q.tx c none = some o →
        o.flits = g :: gs → g.toNat % 2 ^ 32 = 0 → g.toNat / 2 ^ 40 % 2 ^ 24 = 0 →
        ∃ t w, exec (.flitSend p) s = .next t ∧ w.toNat / 2 ^ 64 = g.toNat / 2 ^ 64 ∧
          w.toNat / 2 ^ 32 % 2 ^ 8 = g.toNat / 2 ^ 32 % 2 ^ 8 ∧ w.toNat / 2 ^ 52 % 2 ^ 12 = q.seq ∧
          OnlyPort s t p.val { q with
            seq := (q.seq + 1) % 4096, replay := q.replay ++ [w], wire := some (.flit w)
            credit := q.credit.setIfInBounds c (vat q.credit c 0 - 1)
            tx := q.tx.setIfInBounds c (if gs = [] then none else some { o with flits := gs, started := true })
            starve := if c = 0 ∨ ¬ ((vat q.tx 0 none).isSome = true ∧ 0 < vat q.credit 0 0) then 0 else q.starve + 1
            starves := (t.portAt p.val).starves }))

/-- A flit in order whose CRC is right delivers its packet once, gives a credit back and moves the expected SEQ; a bad one is
dropped with one NAK; an ACK empties the replay buffer, a NAK and an ACK timeout replay from their flit, the sixteenth replay from
one SEQ holds the port (R300, R301, R305, R306, R307). One CREDIT for each accepted flit is the model's reading (log 64), and the form
of the CRC the model's choice (log 40). -/
def Claims.FlitsAreReceivedInOrder : Prop :=
  ∀ (s : State) (p : Fin 16) (f g : BitVec 1024) (k : Packet) (before after : List (BitVec 1024)) (n : BitVec 12),
    let q := s.portAt p.val
    let run := if q.retrySeq = n.toNat then q.retryRun + 1 else 1
    let replayed := { q with toResend := g :: after, retries := q.retries + 1, retrySeq := n.toNat, retryRun := run }
    q.st = .up →
    (flitGood f = true → CarriesPacket f k → k.small → f.toNat / 2 ^ 52 % 2 ^ 12 = q.rxSeq → q.replay = [] →
      vat q.rx (classCode k.cls) none = none → (k.kind = 1 ∨ k.kind = 2 ∨ k.kind = 4 → k.dpart = s.svc.partid) →
      ∃ t, exec (.flitReceive p f) s = .next t ∧ OnlyPort s t p.val { q with
        rxSeq := (q.rxSeq + 1) % 4096, naked := false, ctl := q.ctl ++ [.credit k.cls 1], delivered := q.delivered ++ [k] }) ∧
    (flitGood f = false → ∃ t, exec (.flitReceive p f) s = .next t ∧ OnlyPort s t p.val
      (if q.naked = true then q else { q with naked := true, ctl := q.ctl ++ [.nak q.rxSeq] })) ∧
    (q.replay = before ++ g :: after → g.toNat / 2 ^ 52 % 2 ^ 12 = n.toNat → (∀ h ∈ before, h.toNat / 2 ^ 52 % 2 ^ 12 ≠ n.toNat) →
      (q.toResend = [] →
        ∃ t, exec (.linkAck p n) s = .next t ∧ OnlyPort s t p.val { q with
          replay := after
          retryRun := if ∃ h ∈ before ++ [g], h.toNat / 2 ^ 52 % 2 ^ 12 = q.retrySeq then 0 else q.retryRun }) ∧
      (run < 16 → ∃ t, exec (.linkNak p n) s = .next t ∧ OnlyPort s t p.val replayed) ∧
      (16 ≤ run → ∃ t, exec (.linkNak p n) s = .next t ∧ LeftUp s t p.val (closedPort replayed .errorHeld 1)) ∧
      (before = [] → exec (.ackTimeout p) s = exec (.linkNak p n) s))

/-- Flits are sent in the order of the classes and received in sequence, with replay: its parts, each a definition above. -/
def Obligations.FlitsTravelInOrder : Prop :=
  Claims.FlitsAreSentInOrder ∧ Claims.FlitsAreReceivedInOrder

/-- A delivered WRITE, READ or ATOMIC acts at its home slice and is answered once in its class; a delivered answer gives its
waiting request its data, and one that no request waits for is counted (R216, R301, R309, R311). That a response carries ADDR 0 is the
model's reading (log 64), and that a request outside HBM is answered with STATUS 1 its choice (log 104). -/
def Obligations.DeliveredPacketsAct : Prop :=
  ∀ (s : State) (p : Fin 16) (k : Packet),
    let q := s.portAt p.val
    let c := classCode k.cls
    let w := (Ty.ofCode k.atype).bits
    let t0 := Ty.ofCode k.atype
    let v := ofBytes (k.data.take (w / 8))
    let new := ofBytes ((k.data.drop (w / 8)).take (w / 8))
    let old := memNat s.mem k.addr (w / 8)
    let reply := fun (kind opc : Nat) (data : List Byte) => ({
      cls := k.cls, dpart := k.spart, spart := s.svc.partid, kind := kind, opc := opc, tag := k.tag, addr := 0, len := data.length
      status := 0, atype := 0, arm := 0, draw := 0, data := data } : Packet)
    let answered := fun (r : Packet) => { q with delivered := [], wait := q.wait.setIfInBounds c (vat q.wait c [] ++ [r]) }
    let matched := fun (kind : Nat) (r : LinkReq) => r.port == p.val && r.tag == k.tag && r.kind == kind
    let meets := fun (i : Instr) (kind : Nat) (data : List Byte) =>
      ((∃ r ∈ s.reqs, matched kind r = true ∧ r.outcome = .waiting) →
        ∃ t, exec i s = .next t ∧
          OnlyPort { s with reqs := endedReqs s (matched kind) (if k.status = 1 then .notCarried else .ok data) } t p.val
            { q with delivered := [] }) ∧
      ((∀ r ∈ s.reqs, matched kind r = true → r.outcome ≠ .waiting) →
        ∃ t, exec i s = .next t ∧ OnlyPort s t p.val { q with delivered := [], discards := q.discards + 1 })
    q.delivered = [k] → s.plain →
    (k.kind = 1 → q.st = .up → k.addr + k.data.length ≤ hbmBytes →
      ∃ t, exec (.write p) s = .next t ∧ OnlyPort { s with mem := t.mem } t p.val (answered (reply 6 0 [])) ∧
        StoredBytes s t (k.data.zipIdx.map fun b => (k.addr + b.2, b.1))) ∧
    (k.kind = 2 → q.st = .up → k.addr + k.len ≤ hbmBytes →
      ∃ t, exec (.read p) s = .next t ∧
        OnlyPort s t p.val (answered (reply 3 0 ((List.range k.len).map fun j => Memory.read s.mem (k.addr + j))))) ∧
    (k.kind = 4 → q.st = .up → k.opc ≤ 7 → 4 ≤ k.atype → k.atype ≤ 7 → k.arm ≤ 4 → k.addr + w / 8 ≤ hbmBytes →
      k.data.length = (if k.opc = 7 then 2 * (w / 8) else w / 8) →
      ∃ t, exec (.atomic p) s = .next t ∧
        OnlyPort { s with mem := t.mem } t p.val
          (answered (reply 5 k.opc ((List.range (w / 8)).map fun j => Memory.read s.mem (k.addr + j)))) ∧
        (∀ j, j < w / 8 → Memory.read t.mem (k.addr + j) =
          byteOf (if k.opc = 7 then atomicResult 7 t0 old new v else atomicResult k.opc t0 old v 0) j) ∧
        (∀ x, x < k.addr ∨ k.addr + w / 8 ≤ x → Memory.read t.mem x = Memory.read s.mem x)) ∧
    (q.st = .up → hbmBytes < k.addr + k.len → (k.kind = 4 → k.len = w / 8) →
      (k.kind = 1 → k.len = k.data.length →
        ∃ t, exec (.write p) s = .next t ∧ OnlyPort s t p.val (answered { reply 6 0 [] with status := 1 })) ∧
      (k.kind = 2 → ∃ t, exec (.read p) s = .next t ∧ OnlyPort s t p.val (answered { reply 3 0 [] with status := 1 })) ∧
      (k.kind = 4 → ∃ t, exec (.atomic p) s = .next t ∧ OnlyPort s t p.val (answered { reply 5 k.opc [] with status := 1 }))) ∧
    ((∀ r ∈ s.reqs, r.owner < 4096) → s.wordsDone →
      (k.kind = 3 → meets (.readData p) 2 k.data) ∧
      (k.kind = 5 → meets (.atomicData p) 4 (k.data ++ [BitVec.ofNat 8 k.atype])) ∧
      (k.kind = 6 → meets (.writeAck p) 1 k.data))

/-- An update goes through its states: GO starts one and changes nothing while one runs, the image read once passes or is
REJECTED, a complete drain loads, and the loaded part rejoins with its new measurement, what it held performing next, or stays
drained; each outcome is recorded (R335, R336, R337, R338, R339). UNIT and COUNT of the record are the model's reading (log 36), and
so are a UNIT out of range and an image outside HBM (log 67). -/
def Claims.UpdatesFollowTheirStates : Prop :=
  ∀ (s : State) (v : BitVec 64),
    let x := s.svc
    let busy := x.upst = .verifying ∨ x.upst = .draining ∨ x.upst = .loading
    let image := stagedBytes s.mem (x.upsrc.toNat % 2 ^ 52)
    let inHbm := x.upsrc.toNat % 2 ^ 52 + image.length ≤ hbmBytes
    let drains : Service := { x with
      upst := .draining, staged := image
      offParts := x.offParts.filter (fun u => u ≠ partKey x.upPart x.upUnit) ++ [partKey x.upPart x.upUnit] }
    (busy → exec (.upctlGo v) s = .next s) ∧
    (¬ busy → exec (.upctlGo v) s = .next { s with svc := { x with
      ctlUnit := v.toNat / 2 ^ 8 % 2 ^ 8, ctlPart := v.toNat / 2 ^ 4 % 2 ^ 2, upst := .verifying
      upUnit := v.toNat / 2 ^ 8 % 2 ^ 8, upPart := v.toNat / 2 ^ 4 % 2 ^ 2, staged := [] } }) ∧
    (x.upst = .verifying → s.fwds = [] → s.poison = [] → s.stacksIn → inHbm →
      (Passes x.upPart image →
        (x.upPart = 0 ∨ x.upPart = 3 ∨ (x.upPart = 1 ∧ s.ctxs = []) →
          exec .updateVerifyDone s = .next { s with svc := drains }) ∧
        (x.upPart = 2 → x.upUnit < 16 → (s.portAt x.upUnit).st ≠ .up →
          ∃ t, exec .updateVerifyDone s = .next t ∧
            OnlyPort { s with svc := drains } t x.upUnit (closedPort (s.portAt x.upUnit) .down 0))) ∧
      (¬ Passes x.upPart image → s.ringInMemory → ∃ t, exec .updateVerifyDone s = .next t ∧ EndedAs s t .rejected 5)) ∧
    (x.upst = .draining →
      (x.upPart = 1 → ∀ c ∈ s.ctxs, ∀ g ∈ c.2.groups, g.2.cluster = x.upUnit → g.2.st ≠ .bound ∧ g.2.st ≠ .saving) →
      exec .updateDrainDone s = .next { s with svc := { x with upst := .loading } }) ∧
    (x.upst = .draining → x.upPart = 1 → (∃ c ∈ s.ctxs, ∃ g ∈ c.2.groups, g.2.cluster = x.upUnit ∧ g.2.st = .bound) →
      exec .updateDrainDone s = .next s) ∧
    (x.upst = .loading → unitOk x.upPart x.upUnit → s.ringInMemory →
      ((∀ u ∈ x.offParts, u / 256 = 3 → u = partKey x.upPart x.upUnit) →
        ∃ t images, exec (.updateLoadDone true) s = .next t ∧
          (∀ d j, alookup d images j = if j = indexOfPart x.upPart x.upUnit then x.staged else alookup d x.images j) ∧
          EndedAs { s with
            agenda := s.held ++ s.agenda, held := []
            svc := { x with
              offParts := x.offParts.filter (fun u => u ≠ partKey x.upPart x.upUnit), images := images, staged := [] } } t .done 4) ∧
      (s.stacksIn → ∃ t, exec (.updateLoadDone false) s = .next t ∧ EndedAs s t .loadFailed 6))

/-- A cold reset leaves every register at its reset value and runs the boot: BOOT reads 4 with every queue DISABLED and every port DOWN, or
15 when the firmware fails to verify, as a stored copy that is not intact does (R334). That memory is empty and the images stay is the
model's choice (logs 69 and 3), and so is that a cluster, port or stack whose image does not verify stays in service (log 105). -/
def Claims.ColdResetBoots : Prop :=
  ∀ (intact : Bool) (s : State), ∃ t, exec (.coldReset intact) s = .next t ∧
    (∀ n, (t.hqAt n).st = .disabled) ∧ (∀ p, (t.portAt p).st = .down) ∧
    (intact = true → Passes 0 (runningImage s 2) → t.svc.boot = 4) ∧
    (intact = false ∨ ¬ Passes 0 (runningImage s 2) → t.svc.boot = 15) ∧
    t = { State.reset with
      svc := { State.reset.svc with boot := t.svc.boot, images := s.svc.images, offParts := [] }
      hostMem := s.hostMem, agenda := s.agenda, turn := s.turn, free := s.free }

/-- The part answers each SPDM request once; without a selected asymmetric algorithm the digests, certificate, challenge and
measurements answer ERROR, KEY_EXCHANGE always UnsupportedRequest; ALGORITHMS names ML-DSA-44 as an ExtAsym entry and no BaseAsymAlgo;
a measurement is the digest of the running image (R335). The entry of VERSION and which request an ERROR answers beyond R335's are
taken from SPDM 1.3 (log 68). -/
def Claims.SpdmRequestsAreAnswered : Prop :=
  ∀ (s : State) (h a : Bool) (slot : Fin 8) (nonce : BitVec 256) (i : BitVec 8),
    (∃ t, exec .getVersion s = .next t ∧ Answered s t (.version 0x1300)) ∧
    (∃ t, exec .getCapabilities s = .next t ∧ Answered s t (.capabilities Config.spdmCapabilities)) ∧
    (∃ t, exec (.negotiateAlgorithms h a) s = .next t ∧
      Answered { s with spdm := { s.spdm with negotiated := true, asymOk := a } } t
        (.algorithms h 0 (if a = true then [{ registry := .iana, vendor := Config.camyon, id := 1 }] else []))) ∧
    (∃ t, exec .keyExchange s = .next t ∧ Answered s t .unsupportedRequest) ∧
    (s.spdm.asymOk = false → ∃ t, Answered s t .error ∧ exec .getDigests s = .next t ∧ exec (.getCertificate slot) s = .next t ∧
      exec (.challenge slot nonce) s = .next t ∧ exec (.getMeasurements i) s = .next t) ∧
    (s.spdm.asymOk = true →
      (∃ t, exec .getDigests s = .next t ∧ Answered s t (.digests (Config.sha3 Config.certChain))) ∧
      (∃ t, exec (.getCertificate 0) s = .next t ∧ Answered s t (.certificate Config.certChain)) ∧
      (∃ t, exec (.challenge 0 nonce) s = .next t ∧
        Answered s t (.challengeAuth (Config.signature (toBytes 32 nonce.toNat ++ Config.certChain)))) ∧
      (1 ≤ i.toNat → i.toNat ≤ 42 → ∃ t, exec (.getMeasurements i) s = .next t ∧
        Answered s t (.measurements i.toNat [Config.sha3 (runningImage s i.toNat)])))

/-- Live updates follow their states, a cold reset boots, SPDM requests are answered: its parts, each a definition above. -/
def Obligations.UpdatesResetAndIdentity : Prop :=
  Claims.UpdatesFollowTheirStates ∧ Claims.ColdResetBoots ∧ Claims.SpdmRequestsAreAnswered

/-- Errors are recorded in the ring, and dropped with LOST set while it is full; an uncorrectable one poisons its line, ERCONS
never passes ERPTR, and LOST is cleared by writing 1 (R334, R339). That COUNT counts a dropped record too is the model's reading (log
36). -/
def Claims.ErrorsAreRecorded : Prop :=
  ∀ (s : State) (unit : BitVec 16) (pa : BitVec 52) (i : BitVec 64),
    let line := pa.toNat / 128
    (¬ s.ringFull → s.stacksIn → s.ringInMemory → ∃ t, exec (.eccCorrected unit pa) s = .next t ∧ Recorded s t 1 unit.toNat (pa.setWidth 64) 0) ∧
    (s.ringFull → ∃ t, exec (.eccCorrected unit pa) s = .next t ∧ Dropped s t) ∧
    (s.fwds = [] → pa.toNat < hbmBytes → ∃ t poison, exec (.eccUncorrectable unit pa) s = .next t ∧
      (∀ l, l ∈ poison ↔ l = line ∨ l ∈ s.poison) ∧
      (¬ s.ringFull → s.stacksIn → s.ringInMemory → Recorded { s with poison := poison } t 2 unit.toNat (pa.setWidth 64) 0) ∧
      (s.ringFull → Dropped { s with poison := poison } t)) ∧
    exec (.erconsWrite i) s = .next { s with svc := { s.svc with
      ercons := if (i.setWidth 32 - s.svc.ercons).toNat ≤ (s.svc.eridx - s.svc.ercons).toNat then i.setWidth 32 else s.svc.eridx } } ∧
    exec .erptrLostClear s = .next { s with svc := { s.svc with lost := false } }

/-- The windows reach the registers they name: a write of a queue, port, cluster or service register does what that register's
own instruction does; QOWN changes only while its queue is DISABLED (R331, R333, R334). -/
def Claims.WindowsReachTheirRegisters : Prop :=
  ∀ (s : State) (n : Fin 64) (p c : Fin 16) (v : BitVec 64) (b : BitVec 8),
    let queue := fun (off : Nat) => BitVec.ofNat 52 (0x00F000100000 + 64 * n.val + off)
    let port := BitVec.ofNat 52 (0x00F000101000 + 64 * p.val + 8)
    let cluster := fun (off : Nat) => BitVec.ofNat 52 (0x00F000000000 + 0x10000 * c.val + off)
    let service := fun (off : Nat) => BitVec.ofNat 52 (0x00F000102000 + off)
    ((s.hqAt n.val).st = .disabled → ∃ t, exec (.qownWrite n b) s = .next t ∧
      t = { s with svc := { s.svc with qown := t.svc.qown } } ∧
      ∀ j, j < 64 → vat t.svc.qown j 0 = if j = n.val then b &&& 0xBF else vat s.svc.qown j 0) ∧
    ((s.hqAt n.val).st ≠ .disabled → exec (.qownWrite n b) s = .next s) ∧
    (s.svc.boot = 4 →
      exec (.registerWrite (queue 0x20) v) s = exec (.hqtailDoorbell n (v.setWidth 32)) s ∧
      exec (.registerWrite (queue 0x30) 1) s = exec (.hqctlResume n) s ∧
      exec (.registerWrite (queue 0x30) 2) s = exec (.hqctlSkip n) s) ∧
    exec (.registerWrite port 1) s = exec (.tlctlTrain p) s ∧
    exec (.registerWrite port 2) s = exec (.tlctlRelease p) s ∧
    exec (.registerWrite port 3) s = exec (.tlctlDisable p) s ∧
    (∀ h : 4 * c.val < 64, exec (.registerWrite (cluster 0x10) v) s = exec (.ccurWrite ⟨4 * c.val, h⟩ v) s) ∧
    exec (.registerWrite (service 0x30) v) s = .next { s with svc := { s.svc with partid := v.toNat % 2 ^ 12 } } ∧
    exec (.registerWrite (service 0x10) v) s = .next { s with svc := { s.svc with upsrc := BitVec.ofNat 64 (v.toNat % 2 ^ 52) } } ∧
    (v.getLsbD 0 = true → exec (.registerWrite (service 0x18) v) s = exec (.upctlGo v) s) ∧
    exec (.registerWrite (service 0x20) v) s = .next s ∧
    exec (.registerWrite (service 0x28) v) s = exec (.erconsWrite v) s ∧
    (∀ m, m < 8 → ∃ t, exec (.registerWrite (service (0x100 + 8 * m)) v) s = .next t ∧
      t = { s with svc := { s.svc with qown := t.svc.qown } } ∧
      ∀ j, j < 64 → vat t.svc.qown j 0 =
        if j / 8 = m ∧ (s.hqAt j).st = .disabled then BitVec.ofNat 8 (v.toNat / 2 ^ (8 * (j % 8))) &&& 0xBF else vat s.svc.qown j 0)

/-- The host reads, writes and updates device memory through BAR2 and receives Unsupported Request above its range; a virtual
function reaches the blocks of its own queues alone: every other block reads zero and ignores writes (R332, R333). How a request is
written down as an operand is the model's choice (log 25). -/
def Claims.HostRequestsComplete : Prop :=
  ∀ (s : State) (a f n : Nat) (data : List Byte) (v old : Nat),
    let new := fun (m : List Host.Cell) (r : Nat) => ({ s with
      mem := storeNat s.mem a 8 r, svc := { s.svc with hostReply := some (toBytes 8 (memNat m a 8)) } } : State)
    (s.hostReady → a + data.length ≤ hbmBytes →
      (∃ t, exec (.hostMemoryRequest false (hostAddr 0 0 a) data) s = .next t ∧
        HostSees s t (some ((List.range data.length).map fun i => Memory.read s.mem (a + i)))) ∧
      ∃ t, exec (.hostMemoryRequest true (hostAddr 0 0 a) data) s = .next t ∧ t = { s with mem := t.mem } ∧
        (∀ i b, data[i]? = some b → Memory.read t.mem (a + i) = b) ∧
        ∀ x, x < a ∨ a + data.length ≤ x → Memory.read t.mem x = Memory.read s.mem x) ∧
    (hbmBytes < a + data.length → a < 2 ^ 62 → ∀ w, ∃ t,
      exec (.hostMemoryRequest w (hostAddr 0 0 a) data) s = .next t ∧ HostSees s t none) ∧
    (s.hostReady → a % 8 = 0 → a + 8 ≤ hbmBytes → v < 2 ^ 64 → old < 2 ^ 64 →
      exec (.hostMemoryRequest true (hostAddr 3 0 a) (toBytes 8 v)) s = .next (new s.mem ((memNat s.mem a 8 + v) % 2 ^ 64)) ∧
      exec (.hostMemoryRequest true (hostAddr 3 (2 ^ 60) a) (toBytes 8 v)) s = .next (new s.mem v) ∧
      exec (.hostMemoryRequest true (hostAddr 3 (2 * 2 ^ 60) a) (toBytes 8 old ++ toBytes 8 v)) s =
        .next (new s.mem (if memNat s.mem a 8 = old then v else memNat s.mem a 8))) ∧
    (f < 64 → n < 64 → (vat s.svc.qown n 0).getLsbD 7 = false ∨ (vat s.svc.qown n 0).toNat % 64 ≠ f →
      exec (.hostMemoryRequest true (hostAddr 2 (f * 2 ^ 56) (64 * n + 0x20)) (toBytes 8 v)) s = .next s ∧
      ∃ t, exec (.hostMemoryRequest false (hostAddr 2 (f * 2 ^ 56) (64 * n + 0x18)) (toBytes 8 0)) s = .next t ∧
        HostSees s t (some (List.replicate 8 0))) ∧
    (s.svc.boot = 4 → f < 64 → n < 64 → vat s.svc.qown n 0 = BitVec.ofNat 8 (128 + f) →
      ∃ t, exec (.hostMemoryRequest false (hostAddr 2 (f * 2 ^ 56) (64 * n + 0x18)) (toBytes 8 0)) s = .next t ∧
        HostSees s t (some (toBytes 8 (s.hqAt n).head.toNat)))

/-- Errors are recorded in the ring, windows reach their registers, host requests complete: its parts, each a definition above. -/
def Obligations.ServiceWindowsAndErrors : Prop :=
  Claims.ErrorsAreRecorded ∧ Claims.WindowsReachTheirRegisters ∧ Claims.HostRequestsComplete

/-- At reset every register holds the value its table gives: registers 0 but for m7, SLICES, SRSEED, MSEL, the FP4 codebook, VLCAP,
VU and SHARE; every slot VACANT, every q register RETIRED, every queue DISABLED, every port DOWN, every cluster RUNNING (R7, R12,
R19 to R23, R41, R101, R251, R252, R263, R266, R313, R315, R316, R319, R333, R334). -/
def Claims.ResetGivesTableValues : Prop :=
  (∀ k, let sl := State.reset.slot k
    sl.st = .vacant ∧ (∀ j, sl.rx j = 0) ∧ (∀ j, vat sl.c j false = false) ∧ (∀ j, vat sl.k j 0 = 0) ∧ sl.cap = 5 ∧
      (∀ j, sl.lane.rd j 16384 0 = 0) ∧ (∀ j q, sl.lane.side j q = 0) ∧ (∀ j, vat sl.lane.a j 0 = 0) ∧
      (∀ j, j < 7 → vat sl.lane.m j 0 = 0) ∧ vat sl.lane.m 7 0 = BitVec.allOnes 4096 ∧
      (vat sl.lane.b 0 (Vector.replicate 16 0)).toList = [0x0000, 0x3F00, 0x3F80, 0x3FC0, 0x4000, 0x4040, 0x4080, 0x40C0,
        0x8000, 0xBF00, 0xBF80, 0xBFC0, 0xC000, 0xC040, 0xC080, 0xC0C0] ∧
      (∀ j, 1 ≤ j → j < 8 → (vat sl.lane.b j (Vector.replicate 16 0)).toList = List.replicate 16 0) ∧
      sl.lane.msel = 7 ∧ sl.lane.vl = 0 ∧ sl.lane.vstride = 0 ∧ sl.lane.vstart = 0 ∧ sl.lane.slices = 7 ∧ sl.lane.rm = .rne ∧
      sl.lane.sre = false ∧ sl.lane.srseed = 1 ∧ sl.lane.flags = FlagWord.reset ∧ sl.lane.femask = 0 ∧ sl.lane.vdirty = 0 ∧
      sl.lane.adirty = 0 ∧ sl.lane.vext = 0 ∧ sl.queue = [] ∧ sl.nest.act = false ∧ sl.tr.vu = true ∧ sl.tr.froz = false ∧
      sl.tr.inh = false ∧ sl.tr.priv = false ∧ sl.tr.ppriv = false ∧ sl.tr.cause = 0 ∧ sl.tr.tvec = 0 ∧ sl.tr.epc = 0 ∧
      sl.ctxid.toNat = 2 ^ 40 ∧ sl.ptroot = 0 ∧ sl.landed = 0 ∧ ∀ j, (vat sl.q j ResReg.reset).st = .retired) ∧
  (∀ c, let x := State.reset.coreAt c
    x.rlate = 0 ∧ x.capacity = 256 ∧ x.bal16 = 16 * 256 ∧ x.rate = 512 ∧ x.plimmax = 32 ∧ x.plim = 32 ∧ x.window = 256) ∧
  (∀ n, (State.reset.clusterAt n).st = .running ∧ (State.reset.clusterAt n).auto = true ∧ (State.reset.clusterAt n).gidle = 64) ∧
  (∀ n, let q := State.reset.hqAt n; q.st = .disabled ∧ q.base = 0 ∧ q.root = 0 ∧ q.head = 0 ∧ q.tail = 0 ∧ q.opn = 0) ∧
  (∀ p, let q := State.reset.portAt p; q.st = .down ∧ q.reason = 0 ∧ q.retries = 0 ∧ q.discards = 0 ∧ q.starves = 0) ∧
  (∀ n, vat State.reset.svc.qown n 0 = 0) ∧ State.reset.svc.erbase = 0 ∧ State.reset.svc.eridx = 0 ∧
  State.reset.svc.ercons = 0 ∧ State.reset.svc.lost = false ∧ State.reset.svc.upsrc = 0 ∧ State.reset.svc.upst = .idle ∧
  State.reset.svc.boot = 0 ∧ State.reset.svc.partid = 0 ∧ State.reset.halted = false

/-- The memory of the reset state has its canonical form and lists no byte, and every VLCAP is legal (R12, R23; log 2). -/
def Claims.ResetMeetsInvariants : Prop :=
  State.reset.memoryCanonical ∧ State.reset.mem = [] ∧ State.reset.capsLegal

/-- The reset state holds the values of the spec's reset columns; its empty memory and legal caps meet the invariants: its parts, each a definition above. -/
def Obligations.ResetGivesTableValues : Prop :=
  Claims.ResetGivesTableValues ∧ Claims.ResetMeetsInvariants

/-- Every step of the machine keeps the canonical form of memory: addresses rise and no entry equals what an unlisted address reads
as. -/
def Obligations.StepsKeepMemoryCanonical : Prop :=
  ∀ (s t : State), s.memoryCanonical → step s = .next t → t.memoryCanonical

/-- Every step of the machine keeps every thread's VLCAP.CAP legal (R21). -/
def Obligations.StepsKeepCapsLegal : Prop :=
  ∀ (s t : State), s.capsLegal → step s = .next t → t.capsLegal

/-- Every encodable instruction has one word, and that word decodes to it, whatever its operands (R57 to R75). -/
def Obligations.EncodedInstructionsDecode : Prop :=
  ∀ (i : Instr), i.encodable = true → ∃ w, encode i = [w] ∧ decode w = .ok i

/-- A word that decodes is the one word of its instruction: no bit of it is dropped (R57 to R76). -/
def Obligations.DecodedWordsEncodeBack : Prop :=
  ∀ (w : Word) (i : Instr), decode w = .ok i → encode i = [w] ∧ i.encodable = true

/-- A step of a slice runs the instruction that the word at its PC decodes to, in its meaning; a word that decodes to none traps as
an undefined instruction, or as an emulation trap in the extension block; a slice that waits does nothing (R31, R76, R77, R85,
R254). -/
def Obligations.StepRunsDecodedWord : Prop :=
  ∀ (s : State) (k : Fin 1024) (rest : List Move) (w : Word),
    let v : State := { s with agenda := rest, cur := k.val }
    (s.fetches k rest w →
      (∀ i u, decode w = .ok i → exec i v = .next u → u.halted = false → step s = .next u) ∧
      (∀ i e, decode w = .ok i → exec i v = .fault e → step s = .fault e) ∧
      (decode w = .error .undefined → v.trapsAtOnce →
        step s = .next (v.setMe (v.me.trapped .undefinedInstruction 0 (w.setWidth 64) v.me.pc))) ∧
      (decode w = .error .emulation → v.trapsAtOnce →
        step s = .next (v.setMe (v.me.trapped .emulation 0 (w.setWidth 64) v.me.pc))) ∧
      (decode w = .error .illegalType → v.trapsAtOnce →
        step s = .next (v.setMe (v.me.trapped .illegalType 0 (w.setWidth 64) v.me.pc)))) ∧
    (s.agenda = .slice k :: rest → (s.slot k.val).preempt = false → (s.slot k.val).st ≠ .run →
      step s = .next { s with agenda := rest }) ∧
    (∀ n, s.reqs = [] → s.svc.offParts = [] → (∀ i, i < 8 → vat (s.coreAt 0).dbg.dbk i 0 = 0) →
      let p := s.withFetchWord n w.toNat
      ∀ i u, decode w = .ok i → exec i { p with agenda := [], cur := 0 } = .next u → u.halted = false → step p = .next u)

/-- Words written out from the encodings of each format decode to the instruction they stand for (R58 to R75). -/
def Obligations.SpecWordsDecode : Prop :=
  decode 0x1814C724#32 = .ok (.maddVv 5 6 7 .s16 1 .none) ∧
  decode 0xC40A8482#32 = .ok (.ldsW 5 8 9) ∧
  decode 0xD00C0003#32 = .ok (.qset 0 12 .device) ∧
  decode 0xDC0A5800#32 = .ok (.launch 10 11) ∧
  decode 0xF6C00000#32 = .ok (.endk .device) ∧
  decode 0x30000000#32 = .error .emulation
end

