-- ==== Sys2Proof/Laws/State.lean ====
section
/-! SUPPORT. One lemma per field and update of State and of Slot, true by unfolding the update once, and the laws of the
keyed list that holds the slots: what is read after a write. -/

namespace Sys2Proof.Machine

/-! ### Keyed lists -/

@[simp] theorem alookup_ainsert_same {α : Type} (d : α) (l : List (Nat × α)) (k : Nat) (v : α) :
    alookup d (ainsert l k v) k = v := by
  induction l with
  | nil => simp [ainsert, alookup]
  | cons p t ih =>
    obtain ⟨j, w⟩ := p
    simp only [ainsert]
    split
    · simp [alookup]
    · split
      · simp [alookup]
      · rename_i h1 h2
        simp only [alookup]
        rw [if_neg (fun h => h2 h.symm)]
        exact ih

theorem alookup_ainsert_ne {α : Type} (d : α) (l : List (Nat × α)) {k j : Nat} (v : α) (h : j ≠ k) :
    alookup d (ainsert l k v) j = alookup d l j := by
  induction l with
  | nil => simp [ainsert, alookup, Ne.symm h]
  | cons p t ih =>
    obtain ⟨i, w⟩ := p
    simp only [ainsert]
    split
    · simp [alookup, Ne.symm h]
    · split
      · rename_i h1 h2
        subst h2
        simp [alookup, Ne.symm h]
      · simp only [alookup]
        split
        · rfl
        · exact ih

@[simp] theorem ainsert_ainsert {α : Type} (l : List (Nat × α)) (k : Nat) (v w : α) :
    ainsert (ainsert l k v) k w = ainsert l k w := by
  induction l with
  | nil => simp [ainsert]
  | cons p t ih =>
    obtain ⟨j, x⟩ := p
    simp only [ainsert]
    split
    · simp [ainsert]
    · split
      · simp [ainsert]
      · rename_i h1 h2
        simp [ainsert, h1, h2, ih]

/-! ### Slots -/

@[simp] theorem State.slot_setSlot_same (s : State) (k : Nat) (sl : Slot) : (s.setSlot k sl).slot k = sl := by
  simp [State.slot, State.setSlot]

theorem State.slot_setSlot_ne (s : State) {k j : Nat} (sl : Slot) (h : j ≠ k) : (s.setSlot k sl).slot j = s.slot j := by
  simp [State.slot, State.setSlot, alookup_ainsert_ne _ _ _ h]

@[simp] theorem State.setSlot_setSlot (s : State) (k : Nat) (a b : Slot) : (s.setSlot k a).setSlot k b = s.setSlot k b := by
  simp [State.setSlot]

@[simp] theorem State.slot_modSlot_same (s : State) (k : Nat) (f : Slot → Slot) : (s.modSlot k f).slot k = f (s.slot k) := by
  simp [State.modSlot]

theorem State.slot_modSlot_ne (s : State) {k j : Nat} (f : Slot → Slot) (h : j ≠ k) : (s.modSlot k f).slot j = s.slot j := by
  simp [State.modSlot, State.slot_setSlot_ne _ _ h]

@[simp] theorem State.me_setMe (s : State) (sl : Slot) : (s.setMe sl).me = sl := by
  simp [State.me, State.setMe, State.setSlot, State.slot]

@[simp] theorem State.setMe_setMe (s : State) (a b : Slot) : (s.setMe a).setMe b = s.setMe b := by
  simp [State.setMe, State.setSlot]

/-! ### Every other field of an update -/

@[simp] theorem State.setSlot_mem (s : State) (k : Nat) (sl : Slot) : (s.setSlot k sl).mem = s.mem := rfl
@[simp] theorem State.setSlot_poison (s : State) (k : Nat) (sl : Slot) : (s.setSlot k sl).poison = s.poison := rfl
@[simp] theorem State.setSlot_cores (s : State) (k : Nat) (sl : Slot) : (s.setSlot k sl).cores = s.cores := rfl
@[simp] theorem State.setSlot_clusters (s : State) (k : Nat) (sl : Slot) : (s.setSlot k sl).clusters = s.clusters := rfl
@[simp] theorem State.setSlot_hqs (s : State) (k : Nat) (sl : Slot) : (s.setSlot k sl).hqs = s.hqs := rfl
@[simp] theorem State.setSlot_ctxs (s : State) (k : Nat) (sl : Slot) : (s.setSlot k sl).ctxs = s.ctxs := rfl
@[simp] theorem State.setSlot_nextCtx (s : State) (k : Nat) (sl : Slot) : (s.setSlot k sl).nextCtx = s.nextCtx := rfl
@[simp] theorem State.setSlot_drover (s : State) (k : Nat) (sl : Slot) : (s.setSlot k sl).drover = s.drover := rfl
@[simp] theorem State.setSlot_fwds (s : State) (k : Nat) (sl : Slot) : (s.setSlot k sl).fwds = s.fwds := rfl
@[simp] theorem State.setSlot_tlbis (s : State) (k : Nat) (sl : Slot) : (s.setSlot k sl).tlbis = s.tlbis := rfl
@[simp] theorem State.setSlot_ports (s : State) (k : Nat) (sl : Slot) : (s.setSlot k sl).ports = s.ports := rfl
@[simp] theorem State.setSlot_reqs (s : State) (k : Nat) (sl : Slot) : (s.setSlot k sl).reqs = s.reqs := rfl
@[simp] theorem State.setSlot_nextTag (s : State) (k : Nat) (sl : Slot) : (s.setSlot k sl).nextTag = s.nextTag := rfl
@[simp] theorem State.setSlot_svc (s : State) (k : Nat) (sl : Slot) : (s.setSlot k sl).svc = s.svc := rfl
@[simp] theorem State.setSlot_spdm (s : State) (k : Nat) (sl : Slot) : (s.setSlot k sl).spdm = s.spdm := rfl
@[simp] theorem State.setSlot_halted (s : State) (k : Nat) (sl : Slot) : (s.setSlot k sl).halted = s.halted := rfl
@[simp] theorem State.setSlot_hostMem (s : State) (k : Nat) (sl : Slot) : (s.setSlot k sl).hostMem = s.hostMem := rfl
@[simp] theorem State.setSlot_haltCore (s : State) (k : Nat) (sl : Slot) : (s.setSlot k sl).haltCore = s.haltCore := rfl
@[simp] theorem State.setSlot_held (s : State) (k : Nat) (sl : Slot) : (s.setSlot k sl).held = s.held := rfl
@[simp] theorem State.setSlot_agenda (s : State) (k : Nat) (sl : Slot) : (s.setSlot k sl).agenda = s.agenda := rfl
@[simp] theorem State.setSlot_cur (s : State) (k : Nat) (sl : Slot) : (s.setSlot k sl).cur = s.cur := rfl
@[simp] theorem State.setSlot_turn (s : State) (k : Nat) (sl : Slot) : (s.setSlot k sl).turn = s.turn := rfl
@[simp] theorem State.setSlot_free (s : State) (k : Nat) (sl : Slot) : (s.setSlot k sl).free = s.free := rfl
@[simp] theorem State.modSlot_mem (s : State) (k : Nat) (f : Slot → Slot) : (s.modSlot k f).mem = s.mem := rfl
@[simp] theorem State.modSlot_poison (s : State) (k : Nat) (f : Slot → Slot) : (s.modSlot k f).poison = s.poison := rfl
@[simp] theorem State.modSlot_cores (s : State) (k : Nat) (f : Slot → Slot) : (s.modSlot k f).cores = s.cores := rfl
@[simp] theorem State.modSlot_clusters (s : State) (k : Nat) (f : Slot → Slot) : (s.modSlot k f).clusters = s.clusters := rfl
@[simp] theorem State.modSlot_hqs (s : State) (k : Nat) (f : Slot → Slot) : (s.modSlot k f).hqs = s.hqs := rfl
@[simp] theorem State.modSlot_ctxs (s : State) (k : Nat) (f : Slot → Slot) : (s.modSlot k f).ctxs = s.ctxs := rfl
@[simp] theorem State.modSlot_nextCtx (s : State) (k : Nat) (f : Slot → Slot) : (s.modSlot k f).nextCtx = s.nextCtx := rfl
@[simp] theorem State.modSlot_drover (s : State) (k : Nat) (f : Slot → Slot) : (s.modSlot k f).drover = s.drover := rfl
@[simp] theorem State.modSlot_fwds (s : State) (k : Nat) (f : Slot → Slot) : (s.modSlot k f).fwds = s.fwds := rfl
@[simp] theorem State.modSlot_tlbis (s : State) (k : Nat) (f : Slot → Slot) : (s.modSlot k f).tlbis = s.tlbis := rfl
@[simp] theorem State.modSlot_ports (s : State) (k : Nat) (f : Slot → Slot) : (s.modSlot k f).ports = s.ports := rfl
@[simp] theorem State.modSlot_reqs (s : State) (k : Nat) (f : Slot → Slot) : (s.modSlot k f).reqs = s.reqs := rfl
@[simp] theorem State.modSlot_nextTag (s : State) (k : Nat) (f : Slot → Slot) : (s.modSlot k f).nextTag = s.nextTag := rfl
@[simp] theorem State.modSlot_svc (s : State) (k : Nat) (f : Slot → Slot) : (s.modSlot k f).svc = s.svc := rfl
@[simp] theorem State.modSlot_spdm (s : State) (k : Nat) (f : Slot → Slot) : (s.modSlot k f).spdm = s.spdm := rfl
@[simp] theorem State.modSlot_halted (s : State) (k : Nat) (f : Slot → Slot) : (s.modSlot k f).halted = s.halted := rfl
@[simp] theorem State.modSlot_hostMem (s : State) (k : Nat) (f : Slot → Slot) : (s.modSlot k f).hostMem = s.hostMem := rfl
@[simp] theorem State.modSlot_haltCore (s : State) (k : Nat) (f : Slot → Slot) : (s.modSlot k f).haltCore = s.haltCore := rfl
@[simp] theorem State.modSlot_held (s : State) (k : Nat) (f : Slot → Slot) : (s.modSlot k f).held = s.held := rfl
@[simp] theorem State.modSlot_agenda (s : State) (k : Nat) (f : Slot → Slot) : (s.modSlot k f).agenda = s.agenda := rfl
@[simp] theorem State.modSlot_cur (s : State) (k : Nat) (f : Slot → Slot) : (s.modSlot k f).cur = s.cur := rfl
@[simp] theorem State.modSlot_turn (s : State) (k : Nat) (f : Slot → Slot) : (s.modSlot k f).turn = s.turn := rfl
@[simp] theorem State.modSlot_free (s : State) (k : Nat) (f : Slot → Slot) : (s.modSlot k f).free = s.free := rfl
@[simp] theorem State.setMe_mem (s : State) (sl : Slot) : (s.setMe sl).mem = s.mem := rfl
@[simp] theorem State.setMe_poison (s : State) (sl : Slot) : (s.setMe sl).poison = s.poison := rfl
@[simp] theorem State.setMe_cores (s : State) (sl : Slot) : (s.setMe sl).cores = s.cores := rfl
@[simp] theorem State.setMe_clusters (s : State) (sl : Slot) : (s.setMe sl).clusters = s.clusters := rfl
@[simp] theorem State.setMe_hqs (s : State) (sl : Slot) : (s.setMe sl).hqs = s.hqs := rfl
@[simp] theorem State.setMe_ctxs (s : State) (sl : Slot) : (s.setMe sl).ctxs = s.ctxs := rfl
@[simp] theorem State.setMe_nextCtx (s : State) (sl : Slot) : (s.setMe sl).nextCtx = s.nextCtx := rfl
@[simp] theorem State.setMe_drover (s : State) (sl : Slot) : (s.setMe sl).drover = s.drover := rfl
@[simp] theorem State.setMe_fwds (s : State) (sl : Slot) : (s.setMe sl).fwds = s.fwds := rfl
@[simp] theorem State.setMe_tlbis (s : State) (sl : Slot) : (s.setMe sl).tlbis = s.tlbis := rfl
@[simp] theorem State.setMe_ports (s : State) (sl : Slot) : (s.setMe sl).ports = s.ports := rfl
@[simp] theorem State.setMe_reqs (s : State) (sl : Slot) : (s.setMe sl).reqs = s.reqs := rfl
@[simp] theorem State.setMe_nextTag (s : State) (sl : Slot) : (s.setMe sl).nextTag = s.nextTag := rfl
@[simp] theorem State.setMe_svc (s : State) (sl : Slot) : (s.setMe sl).svc = s.svc := rfl
@[simp] theorem State.setMe_spdm (s : State) (sl : Slot) : (s.setMe sl).spdm = s.spdm := rfl
@[simp] theorem State.setMe_halted (s : State) (sl : Slot) : (s.setMe sl).halted = s.halted := rfl
@[simp] theorem State.setMe_hostMem (s : State) (sl : Slot) : (s.setMe sl).hostMem = s.hostMem := rfl
@[simp] theorem State.setMe_haltCore (s : State) (sl : Slot) : (s.setMe sl).haltCore = s.haltCore := rfl
@[simp] theorem State.setMe_held (s : State) (sl : Slot) : (s.setMe sl).held = s.held := rfl
@[simp] theorem State.setMe_agenda (s : State) (sl : Slot) : (s.setMe sl).agenda = s.agenda := rfl
@[simp] theorem State.setMe_cur (s : State) (sl : Slot) : (s.setMe sl).cur = s.cur := rfl
@[simp] theorem State.setMe_turn (s : State) (sl : Slot) : (s.setMe sl).turn = s.turn := rfl
@[simp] theorem State.setMe_free (s : State) (sl : Slot) : (s.setMe sl).free = s.free := rfl
@[simp] theorem State.modCore_mem (s : State) (c : Nat) (f : Core → Core) : (s.modCore c f).mem = s.mem := rfl
@[simp] theorem State.modCore_poison (s : State) (c : Nat) (f : Core → Core) : (s.modCore c f).poison = s.poison := rfl
@[simp] theorem State.modCore_slots (s : State) (c : Nat) (f : Core → Core) : (s.modCore c f).slots = s.slots := rfl
@[simp] theorem State.modCore_clusters (s : State) (c : Nat) (f : Core → Core) : (s.modCore c f).clusters = s.clusters := rfl
@[simp] theorem State.modCore_hqs (s : State) (c : Nat) (f : Core → Core) : (s.modCore c f).hqs = s.hqs := rfl
@[simp] theorem State.modCore_ctxs (s : State) (c : Nat) (f : Core → Core) : (s.modCore c f).ctxs = s.ctxs := rfl
@[simp] theorem State.modCore_nextCtx (s : State) (c : Nat) (f : Core → Core) : (s.modCore c f).nextCtx = s.nextCtx := rfl
@[simp] theorem State.modCore_drover (s : State) (c : Nat) (f : Core → Core) : (s.modCore c f).drover = s.drover := rfl
@[simp] theorem State.modCore_fwds (s : State) (c : Nat) (f : Core → Core) : (s.modCore c f).fwds = s.fwds := rfl
@[simp] theorem State.modCore_tlbis (s : State) (c : Nat) (f : Core → Core) : (s.modCore c f).tlbis = s.tlbis := rfl
@[simp] theorem State.modCore_ports (s : State) (c : Nat) (f : Core → Core) : (s.modCore c f).ports = s.ports := rfl
@[simp] theorem State.modCore_reqs (s : State) (c : Nat) (f : Core → Core) : (s.modCore c f).reqs = s.reqs := rfl
@[simp] theorem State.modCore_nextTag (s : State) (c : Nat) (f : Core → Core) : (s.modCore c f).nextTag = s.nextTag := rfl
@[simp] theorem State.modCore_svc (s : State) (c : Nat) (f : Core → Core) : (s.modCore c f).svc = s.svc := rfl
@[simp] theorem State.modCore_spdm (s : State) (c : Nat) (f : Core → Core) : (s.modCore c f).spdm = s.spdm := rfl
@[simp] theorem State.modCore_halted (s : State) (c : Nat) (f : Core → Core) : (s.modCore c f).halted = s.halted := rfl
@[simp] theorem State.modCore_hostMem (s : State) (c : Nat) (f : Core → Core) : (s.modCore c f).hostMem = s.hostMem := rfl
@[simp] theorem State.modCore_haltCore (s : State) (c : Nat) (f : Core → Core) : (s.modCore c f).haltCore = s.haltCore := rfl
@[simp] theorem State.modCore_held (s : State) (c : Nat) (f : Core → Core) : (s.modCore c f).held = s.held := rfl
@[simp] theorem State.modCore_agenda (s : State) (c : Nat) (f : Core → Core) : (s.modCore c f).agenda = s.agenda := rfl
@[simp] theorem State.modCore_cur (s : State) (c : Nat) (f : Core → Core) : (s.modCore c f).cur = s.cur := rfl
@[simp] theorem State.modCore_turn (s : State) (c : Nat) (f : Core → Core) : (s.modCore c f).turn = s.turn := rfl
@[simp] theorem State.modCore_free (s : State) (c : Nat) (f : Core → Core) : (s.modCore c f).free = s.free := rfl
@[simp] theorem State.modCluster_mem (s : State) (n : Nat) (f : Cluster → Cluster) : (s.modCluster n f).mem = s.mem := rfl
@[simp] theorem State.modCluster_poison (s : State) (n : Nat) (f : Cluster → Cluster) : (s.modCluster n f).poison = s.poison := rfl
@[simp] theorem State.modCluster_slots (s : State) (n : Nat) (f : Cluster → Cluster) : (s.modCluster n f).slots = s.slots := rfl
@[simp] theorem State.modCluster_cores (s : State) (n : Nat) (f : Cluster → Cluster) : (s.modCluster n f).cores = s.cores := rfl
@[simp] theorem State.modCluster_hqs (s : State) (n : Nat) (f : Cluster → Cluster) : (s.modCluster n f).hqs = s.hqs := rfl
@[simp] theorem State.modCluster_ctxs (s : State) (n : Nat) (f : Cluster → Cluster) : (s.modCluster n f).ctxs = s.ctxs := rfl
@[simp] theorem State.modCluster_nextCtx (s : State) (n : Nat) (f : Cluster → Cluster) : (s.modCluster n f).nextCtx = s.nextCtx := rfl
@[simp] theorem State.modCluster_drover (s : State) (n : Nat) (f : Cluster → Cluster) : (s.modCluster n f).drover = s.drover := rfl
@[simp] theorem State.modCluster_fwds (s : State) (n : Nat) (f : Cluster → Cluster) : (s.modCluster n f).fwds = s.fwds := rfl
@[simp] theorem State.modCluster_tlbis (s : State) (n : Nat) (f : Cluster → Cluster) : (s.modCluster n f).tlbis = s.tlbis := rfl
@[simp] theorem State.modCluster_ports (s : State) (n : Nat) (f : Cluster → Cluster) : (s.modCluster n f).ports = s.ports := rfl
@[simp] theorem State.modCluster_reqs (s : State) (n : Nat) (f : Cluster → Cluster) : (s.modCluster n f).reqs = s.reqs := rfl
@[simp] theorem State.modCluster_nextTag (s : State) (n : Nat) (f : Cluster → Cluster) : (s.modCluster n f).nextTag = s.nextTag := rfl
@[simp] theorem State.modCluster_svc (s : State) (n : Nat) (f : Cluster → Cluster) : (s.modCluster n f).svc = s.svc := rfl
@[simp] theorem State.modCluster_spdm (s : State) (n : Nat) (f : Cluster → Cluster) : (s.modCluster n f).spdm = s.spdm := rfl
@[simp] theorem State.modCluster_halted (s : State) (n : Nat) (f : Cluster → Cluster) : (s.modCluster n f).halted = s.halted := rfl
@[simp] theorem State.modCluster_hostMem (s : State) (n : Nat) (f : Cluster → Cluster) : (s.modCluster n f).hostMem = s.hostMem := rfl
@[simp] theorem State.modCluster_haltCore (s : State) (n : Nat) (f : Cluster → Cluster) : (s.modCluster n f).haltCore = s.haltCore := rfl
@[simp] theorem State.modCluster_held (s : State) (n : Nat) (f : Cluster → Cluster) : (s.modCluster n f).held = s.held := rfl
@[simp] theorem State.modCluster_agenda (s : State) (n : Nat) (f : Cluster → Cluster) : (s.modCluster n f).agenda = s.agenda := rfl
@[simp] theorem State.modCluster_cur (s : State) (n : Nat) (f : Cluster → Cluster) : (s.modCluster n f).cur = s.cur := rfl
@[simp] theorem State.modCluster_turn (s : State) (n : Nat) (f : Cluster → Cluster) : (s.modCluster n f).turn = s.turn := rfl
@[simp] theorem State.modCluster_free (s : State) (n : Nat) (f : Cluster → Cluster) : (s.modCluster n f).free = s.free := rfl
@[simp] theorem State.modPort_mem (s : State) (p : Nat) (f : Port → Port) : (s.modPort p f).mem = s.mem := rfl
@[simp] theorem State.modPort_poison (s : State) (p : Nat) (f : Port → Port) : (s.modPort p f).poison = s.poison := rfl
@[simp] theorem State.modPort_slots (s : State) (p : Nat) (f : Port → Port) : (s.modPort p f).slots = s.slots := rfl
@[simp] theorem State.modPort_cores (s : State) (p : Nat) (f : Port → Port) : (s.modPort p f).cores = s.cores := rfl
@[simp] theorem State.modPort_clusters (s : State) (p : Nat) (f : Port → Port) : (s.modPort p f).clusters = s.clusters := rfl
@[simp] theorem State.modPort_hqs (s : State) (p : Nat) (f : Port → Port) : (s.modPort p f).hqs = s.hqs := rfl
@[simp] theorem State.modPort_ctxs (s : State) (p : Nat) (f : Port → Port) : (s.modPort p f).ctxs = s.ctxs := rfl
@[simp] theorem State.modPort_nextCtx (s : State) (p : Nat) (f : Port → Port) : (s.modPort p f).nextCtx = s.nextCtx := rfl
@[simp] theorem State.modPort_drover (s : State) (p : Nat) (f : Port → Port) : (s.modPort p f).drover = s.drover := rfl
@[simp] theorem State.modPort_fwds (s : State) (p : Nat) (f : Port → Port) : (s.modPort p f).fwds = s.fwds := rfl
@[simp] theorem State.modPort_tlbis (s : State) (p : Nat) (f : Port → Port) : (s.modPort p f).tlbis = s.tlbis := rfl
@[simp] theorem State.modPort_reqs (s : State) (p : Nat) (f : Port → Port) : (s.modPort p f).reqs = s.reqs := rfl
@[simp] theorem State.modPort_nextTag (s : State) (p : Nat) (f : Port → Port) : (s.modPort p f).nextTag = s.nextTag := rfl
@[simp] theorem State.modPort_svc (s : State) (p : Nat) (f : Port → Port) : (s.modPort p f).svc = s.svc := rfl
@[simp] theorem State.modPort_spdm (s : State) (p : Nat) (f : Port → Port) : (s.modPort p f).spdm = s.spdm := rfl
@[simp] theorem State.modPort_halted (s : State) (p : Nat) (f : Port → Port) : (s.modPort p f).halted = s.halted := rfl
@[simp] theorem State.modPort_hostMem (s : State) (p : Nat) (f : Port → Port) : (s.modPort p f).hostMem = s.hostMem := rfl
@[simp] theorem State.modPort_haltCore (s : State) (p : Nat) (f : Port → Port) : (s.modPort p f).haltCore = s.haltCore := rfl
@[simp] theorem State.modPort_held (s : State) (p : Nat) (f : Port → Port) : (s.modPort p f).held = s.held := rfl
@[simp] theorem State.modPort_agenda (s : State) (p : Nat) (f : Port → Port) : (s.modPort p f).agenda = s.agenda := rfl
@[simp] theorem State.modPort_cur (s : State) (p : Nat) (f : Port → Port) : (s.modPort p f).cur = s.cur := rfl
@[simp] theorem State.modPort_turn (s : State) (p : Nat) (f : Port → Port) : (s.modPort p f).turn = s.turn := rfl
@[simp] theorem State.modPort_free (s : State) (p : Nat) (f : Port → Port) : (s.modPort p f).free = s.free := rfl
@[simp] theorem State.modHq_mem (s : State) (n : Nat) (f : Hq → Hq) : (s.modHq n f).mem = s.mem := rfl
@[simp] theorem State.modHq_poison (s : State) (n : Nat) (f : Hq → Hq) : (s.modHq n f).poison = s.poison := rfl
@[simp] theorem State.modHq_slots (s : State) (n : Nat) (f : Hq → Hq) : (s.modHq n f).slots = s.slots := rfl
@[simp] theorem State.modHq_cores (s : State) (n : Nat) (f : Hq → Hq) : (s.modHq n f).cores = s.cores := rfl
@[simp] theorem State.modHq_clusters (s : State) (n : Nat) (f : Hq → Hq) : (s.modHq n f).clusters = s.clusters := rfl
@[simp] theorem State.modHq_ctxs (s : State) (n : Nat) (f : Hq → Hq) : (s.modHq n f).ctxs = s.ctxs := rfl
@[simp] theorem State.modHq_nextCtx (s : State) (n : Nat) (f : Hq → Hq) : (s.modHq n f).nextCtx = s.nextCtx := rfl
@[simp] theorem State.modHq_drover (s : State) (n : Nat) (f : Hq → Hq) : (s.modHq n f).drover = s.drover := rfl
@[simp] theorem State.modHq_fwds (s : State) (n : Nat) (f : Hq → Hq) : (s.modHq n f).fwds = s.fwds := rfl
@[simp] theorem State.modHq_tlbis (s : State) (n : Nat) (f : Hq → Hq) : (s.modHq n f).tlbis = s.tlbis := rfl
@[simp] theorem State.modHq_ports (s : State) (n : Nat) (f : Hq → Hq) : (s.modHq n f).ports = s.ports := rfl
@[simp] theorem State.modHq_reqs (s : State) (n : Nat) (f : Hq → Hq) : (s.modHq n f).reqs = s.reqs := rfl
@[simp] theorem State.modHq_nextTag (s : State) (n : Nat) (f : Hq → Hq) : (s.modHq n f).nextTag = s.nextTag := rfl
@[simp] theorem State.modHq_svc (s : State) (n : Nat) (f : Hq → Hq) : (s.modHq n f).svc = s.svc := rfl
@[simp] theorem State.modHq_spdm (s : State) (n : Nat) (f : Hq → Hq) : (s.modHq n f).spdm = s.spdm := rfl
@[simp] theorem State.modHq_halted (s : State) (n : Nat) (f : Hq → Hq) : (s.modHq n f).halted = s.halted := rfl
@[simp] theorem State.modHq_hostMem (s : State) (n : Nat) (f : Hq → Hq) : (s.modHq n f).hostMem = s.hostMem := rfl
@[simp] theorem State.modHq_haltCore (s : State) (n : Nat) (f : Hq → Hq) : (s.modHq n f).haltCore = s.haltCore := rfl
@[simp] theorem State.modHq_held (s : State) (n : Nat) (f : Hq → Hq) : (s.modHq n f).held = s.held := rfl
@[simp] theorem State.modHq_agenda (s : State) (n : Nat) (f : Hq → Hq) : (s.modHq n f).agenda = s.agenda := rfl
@[simp] theorem State.modHq_cur (s : State) (n : Nat) (f : Hq → Hq) : (s.modHq n f).cur = s.cur := rfl
@[simp] theorem State.modHq_turn (s : State) (n : Nat) (f : Hq → Hq) : (s.modHq n f).turn = s.turn := rfl
@[simp] theorem State.modHq_free (s : State) (n : Nat) (f : Hq → Hq) : (s.modHq n f).free = s.free := rfl
@[simp] theorem State.modCtxOf_mem (s : State) (n : Option Nat) (f : Ctx → Ctx) : (s.modCtxOf n f).mem = s.mem := by cases n <;> rfl
@[simp] theorem State.modCtxOf_poison (s : State) (n : Option Nat) (f : Ctx → Ctx) : (s.modCtxOf n f).poison = s.poison := by cases n <;> rfl
@[simp] theorem State.modCtxOf_slots (s : State) (n : Option Nat) (f : Ctx → Ctx) : (s.modCtxOf n f).slots = s.slots := by cases n <;> rfl
@[simp] theorem State.modCtxOf_cores (s : State) (n : Option Nat) (f : Ctx → Ctx) : (s.modCtxOf n f).cores = s.cores := by cases n <;> rfl
@[simp] theorem State.modCtxOf_clusters (s : State) (n : Option Nat) (f : Ctx → Ctx) : (s.modCtxOf n f).clusters = s.clusters := by cases n <;> rfl
@[simp] theorem State.modCtxOf_hqs (s : State) (n : Option Nat) (f : Ctx → Ctx) : (s.modCtxOf n f).hqs = s.hqs := by cases n <;> rfl
@[simp] theorem State.modCtxOf_nextCtx (s : State) (n : Option Nat) (f : Ctx → Ctx) : (s.modCtxOf n f).nextCtx = s.nextCtx := by cases n <;> rfl
@[simp] theorem State.modCtxOf_drover (s : State) (n : Option Nat) (f : Ctx → Ctx) : (s.modCtxOf n f).drover = s.drover := by cases n <;> rfl
@[simp] theorem State.modCtxOf_fwds (s : State) (n : Option Nat) (f : Ctx → Ctx) : (s.modCtxOf n f).fwds = s.fwds := by cases n <;> rfl
@[simp] theorem State.modCtxOf_tlbis (s : State) (n : Option Nat) (f : Ctx → Ctx) : (s.modCtxOf n f).tlbis = s.tlbis := by cases n <;> rfl
@[simp] theorem State.modCtxOf_ports (s : State) (n : Option Nat) (f : Ctx → Ctx) : (s.modCtxOf n f).ports = s.ports := by cases n <;> rfl
@[simp] theorem State.modCtxOf_reqs (s : State) (n : Option Nat) (f : Ctx → Ctx) : (s.modCtxOf n f).reqs = s.reqs := by cases n <;> rfl
@[simp] theorem State.modCtxOf_nextTag (s : State) (n : Option Nat) (f : Ctx → Ctx) : (s.modCtxOf n f).nextTag = s.nextTag := by cases n <;> rfl
@[simp] theorem State.modCtxOf_svc (s : State) (n : Option Nat) (f : Ctx → Ctx) : (s.modCtxOf n f).svc = s.svc := by cases n <;> rfl
@[simp] theorem State.modCtxOf_spdm (s : State) (n : Option Nat) (f : Ctx → Ctx) : (s.modCtxOf n f).spdm = s.spdm := by cases n <;> rfl
@[simp] theorem State.modCtxOf_halted (s : State) (n : Option Nat) (f : Ctx → Ctx) : (s.modCtxOf n f).halted = s.halted := by cases n <;> rfl
@[simp] theorem State.modCtxOf_hostMem (s : State) (n : Option Nat) (f : Ctx → Ctx) : (s.modCtxOf n f).hostMem = s.hostMem := by cases n <;> rfl
@[simp] theorem State.modCtxOf_haltCore (s : State) (n : Option Nat) (f : Ctx → Ctx) : (s.modCtxOf n f).haltCore = s.haltCore := by cases n <;> rfl
@[simp] theorem State.modCtxOf_held (s : State) (n : Option Nat) (f : Ctx → Ctx) : (s.modCtxOf n f).held = s.held := by cases n <;> rfl
@[simp] theorem State.modCtxOf_agenda (s : State) (n : Option Nat) (f : Ctx → Ctx) : (s.modCtxOf n f).agenda = s.agenda := by cases n <;> rfl
@[simp] theorem State.modCtxOf_cur (s : State) (n : Option Nat) (f : Ctx → Ctx) : (s.modCtxOf n f).cur = s.cur := by cases n <;> rfl
@[simp] theorem State.modCtxOf_turn (s : State) (n : Option Nat) (f : Ctx → Ctx) : (s.modCtxOf n f).turn = s.turn := by cases n <;> rfl
@[simp] theorem State.modCtxOf_free (s : State) (n : Option Nat) (f : Ctx → Ctx) : (s.modCtxOf n f).free = s.free := by cases n <;> rfl
@[simp] theorem State.dropReqs_mem (s : State) (o : Nat) : (s.dropReqs o).mem = s.mem := rfl
@[simp] theorem State.dropReqs_poison (s : State) (o : Nat) : (s.dropReqs o).poison = s.poison := rfl
@[simp] theorem State.dropReqs_slots (s : State) (o : Nat) : (s.dropReqs o).slots = s.slots := rfl
@[simp] theorem State.dropReqs_cores (s : State) (o : Nat) : (s.dropReqs o).cores = s.cores := rfl
@[simp] theorem State.dropReqs_clusters (s : State) (o : Nat) : (s.dropReqs o).clusters = s.clusters := rfl
@[simp] theorem State.dropReqs_hqs (s : State) (o : Nat) : (s.dropReqs o).hqs = s.hqs := rfl
@[simp] theorem State.dropReqs_ctxs (s : State) (o : Nat) : (s.dropReqs o).ctxs = s.ctxs := rfl
@[simp] theorem State.dropReqs_nextCtx (s : State) (o : Nat) : (s.dropReqs o).nextCtx = s.nextCtx := rfl
@[simp] theorem State.dropReqs_drover (s : State) (o : Nat) : (s.dropReqs o).drover = s.drover := rfl
@[simp] theorem State.dropReqs_fwds (s : State) (o : Nat) : (s.dropReqs o).fwds = s.fwds := rfl
@[simp] theorem State.dropReqs_tlbis (s : State) (o : Nat) : (s.dropReqs o).tlbis = s.tlbis := rfl
@[simp] theorem State.dropReqs_ports (s : State) (o : Nat) : (s.dropReqs o).ports = s.ports := rfl
@[simp] theorem State.dropReqs_nextTag (s : State) (o : Nat) : (s.dropReqs o).nextTag = s.nextTag := rfl
@[simp] theorem State.dropReqs_svc (s : State) (o : Nat) : (s.dropReqs o).svc = s.svc := rfl
@[simp] theorem State.dropReqs_spdm (s : State) (o : Nat) : (s.dropReqs o).spdm = s.spdm := rfl
@[simp] theorem State.dropReqs_halted (s : State) (o : Nat) : (s.dropReqs o).halted = s.halted := rfl
@[simp] theorem State.dropReqs_hostMem (s : State) (o : Nat) : (s.dropReqs o).hostMem = s.hostMem := rfl
@[simp] theorem State.dropReqs_haltCore (s : State) (o : Nat) : (s.dropReqs o).haltCore = s.haltCore := rfl
@[simp] theorem State.dropReqs_held (s : State) (o : Nat) : (s.dropReqs o).held = s.held := rfl
@[simp] theorem State.dropReqs_agenda (s : State) (o : Nat) : (s.dropReqs o).agenda = s.agenda := rfl
@[simp] theorem State.dropReqs_cur (s : State) (o : Nat) : (s.dropReqs o).cur = s.cur := rfl
@[simp] theorem State.dropReqs_turn (s : State) (o : Nat) : (s.dropReqs o).turn = s.turn := rfl
@[simp] theorem State.dropReqs_free (s : State) (o : Nat) : (s.dropReqs o).free = s.free := rfl
@[simp] theorem State.tick_mem (s : State)  : (s.tick).mem = s.mem := rfl
@[simp] theorem State.tick_poison (s : State)  : (s.tick).poison = s.poison := rfl
@[simp] theorem State.tick_slots (s : State)  : (s.tick).slots = s.slots := rfl
@[simp] theorem State.tick_cores (s : State)  : (s.tick).cores = s.cores := rfl
@[simp] theorem State.tick_clusters (s : State)  : (s.tick).clusters = s.clusters := rfl
@[simp] theorem State.tick_hqs (s : State)  : (s.tick).hqs = s.hqs := rfl
@[simp] theorem State.tick_ctxs (s : State)  : (s.tick).ctxs = s.ctxs := rfl
@[simp] theorem State.tick_nextCtx (s : State)  : (s.tick).nextCtx = s.nextCtx := rfl
@[simp] theorem State.tick_drover (s : State)  : (s.tick).drover = s.drover := rfl
@[simp] theorem State.tick_fwds (s : State)  : (s.tick).fwds = s.fwds := rfl
@[simp] theorem State.tick_tlbis (s : State)  : (s.tick).tlbis = s.tlbis := rfl
@[simp] theorem State.tick_ports (s : State)  : (s.tick).ports = s.ports := rfl
@[simp] theorem State.tick_reqs (s : State)  : (s.tick).reqs = s.reqs := rfl
@[simp] theorem State.tick_nextTag (s : State)  : (s.tick).nextTag = s.nextTag := rfl
@[simp] theorem State.tick_svc (s : State)  : (s.tick).svc = s.svc := rfl
@[simp] theorem State.tick_spdm (s : State)  : (s.tick).spdm = s.spdm := rfl
@[simp] theorem State.tick_halted (s : State)  : (s.tick).halted = s.halted := rfl
@[simp] theorem State.tick_hostMem (s : State)  : (s.tick).hostMem = s.hostMem := rfl
@[simp] theorem State.tick_haltCore (s : State)  : (s.tick).haltCore = s.haltCore := rfl
@[simp] theorem State.tick_held (s : State)  : (s.tick).held = s.held := rfl
@[simp] theorem State.tick_agenda (s : State)  : (s.tick).agenda = s.agenda := rfl
@[simp] theorem State.tick_cur (s : State)  : (s.tick).cur = s.cur := rfl
@[simp] theorem State.tick_turn (s : State)  : (s.tick).turn = s.turn := rfl
@[simp] theorem State.setLane_mem (s : State) (k : Nat) (l : Lane) : (s.setLane k l).mem = s.mem := rfl
@[simp] theorem State.setLane_poison (s : State) (k : Nat) (l : Lane) : (s.setLane k l).poison = s.poison := rfl
@[simp] theorem State.setLane_cores (s : State) (k : Nat) (l : Lane) : (s.setLane k l).cores = s.cores := rfl
@[simp] theorem State.setLane_clusters (s : State) (k : Nat) (l : Lane) : (s.setLane k l).clusters = s.clusters := rfl
@[simp] theorem State.setLane_hqs (s : State) (k : Nat) (l : Lane) : (s.setLane k l).hqs = s.hqs := rfl
@[simp] theorem State.setLane_ctxs (s : State) (k : Nat) (l : Lane) : (s.setLane k l).ctxs = s.ctxs := rfl
@[simp] theorem State.setLane_nextCtx (s : State) (k : Nat) (l : Lane) : (s.setLane k l).nextCtx = s.nextCtx := rfl
@[simp] theorem State.setLane_drover (s : State) (k : Nat) (l : Lane) : (s.setLane k l).drover = s.drover := rfl
@[simp] theorem State.setLane_fwds (s : State) (k : Nat) (l : Lane) : (s.setLane k l).fwds = s.fwds := rfl
@[simp] theorem State.setLane_tlbis (s : State) (k : Nat) (l : Lane) : (s.setLane k l).tlbis = s.tlbis := rfl
@[simp] theorem State.setLane_ports (s : State) (k : Nat) (l : Lane) : (s.setLane k l).ports = s.ports := rfl
@[simp] theorem State.setLane_reqs (s : State) (k : Nat) (l : Lane) : (s.setLane k l).reqs = s.reqs := rfl
@[simp] theorem State.setLane_nextTag (s : State) (k : Nat) (l : Lane) : (s.setLane k l).nextTag = s.nextTag := rfl
@[simp] theorem State.setLane_svc (s : State) (k : Nat) (l : Lane) : (s.setLane k l).svc = s.svc := rfl
@[simp] theorem State.setLane_spdm (s : State) (k : Nat) (l : Lane) : (s.setLane k l).spdm = s.spdm := rfl
@[simp] theorem State.setLane_halted (s : State) (k : Nat) (l : Lane) : (s.setLane k l).halted = s.halted := rfl
@[simp] theorem State.setLane_hostMem (s : State) (k : Nat) (l : Lane) : (s.setLane k l).hostMem = s.hostMem := rfl
@[simp] theorem State.setLane_haltCore (s : State) (k : Nat) (l : Lane) : (s.setLane k l).haltCore = s.haltCore := rfl
@[simp] theorem State.setLane_held (s : State) (k : Nat) (l : Lane) : (s.setLane k l).held = s.held := rfl
@[simp] theorem State.setLane_agenda (s : State) (k : Nat) (l : Lane) : (s.setLane k l).agenda = s.agenda := rfl
@[simp] theorem State.setLane_cur (s : State) (k : Nat) (l : Lane) : (s.setLane k l).cur = s.cur := rfl
@[simp] theorem State.setLane_turn (s : State) (k : Nat) (l : Lane) : (s.setLane k l).turn = s.turn := rfl
@[simp] theorem State.setLane_free (s : State) (k : Nat) (l : Lane) : (s.setLane k l).free = s.free := rfl
@[simp] theorem State.unheld_mem (s : State)  : (s.unheld).mem = s.mem := rfl
@[simp] theorem State.unheld_poison (s : State)  : (s.unheld).poison = s.poison := rfl
@[simp] theorem State.unheld_slots (s : State)  : (s.unheld).slots = s.slots := rfl
@[simp] theorem State.unheld_cores (s : State)  : (s.unheld).cores = s.cores := rfl
@[simp] theorem State.unheld_clusters (s : State)  : (s.unheld).clusters = s.clusters := rfl
@[simp] theorem State.unheld_hqs (s : State)  : (s.unheld).hqs = s.hqs := rfl
@[simp] theorem State.unheld_ctxs (s : State)  : (s.unheld).ctxs = s.ctxs := rfl
@[simp] theorem State.unheld_nextCtx (s : State)  : (s.unheld).nextCtx = s.nextCtx := rfl
@[simp] theorem State.unheld_drover (s : State)  : (s.unheld).drover = s.drover := rfl
@[simp] theorem State.unheld_fwds (s : State)  : (s.unheld).fwds = s.fwds := rfl
@[simp] theorem State.unheld_tlbis (s : State)  : (s.unheld).tlbis = s.tlbis := rfl
@[simp] theorem State.unheld_ports (s : State)  : (s.unheld).ports = s.ports := rfl
@[simp] theorem State.unheld_reqs (s : State)  : (s.unheld).reqs = s.reqs := rfl
@[simp] theorem State.unheld_nextTag (s : State)  : (s.unheld).nextTag = s.nextTag := rfl
@[simp] theorem State.unheld_spdm (s : State)  : (s.unheld).spdm = s.spdm := rfl
@[simp] theorem State.unheld_halted (s : State)  : (s.unheld).halted = s.halted := rfl
@[simp] theorem State.unheld_hostMem (s : State)  : (s.unheld).hostMem = s.hostMem := rfl
@[simp] theorem State.unheld_haltCore (s : State)  : (s.unheld).haltCore = s.haltCore := rfl
@[simp] theorem State.unheld_held (s : State)  : (s.unheld).held = s.held := rfl
@[simp] theorem State.unheld_agenda (s : State)  : (s.unheld).agenda = s.agenda := rfl
@[simp] theorem State.unheld_cur (s : State)  : (s.unheld).cur = s.cur := rfl
@[simp] theorem State.unheld_turn (s : State)  : (s.unheld).turn = s.turn := rfl
@[simp] theorem State.unheld_free (s : State)  : (s.unheld).free = s.free := rfl
@[simp] theorem State.reheld_mem (s : State) (t : State) : (s.reheld t).mem = s.mem := rfl
@[simp] theorem State.reheld_poison (s : State) (t : State) : (s.reheld t).poison = s.poison := rfl
@[simp] theorem State.reheld_slots (s : State) (t : State) : (s.reheld t).slots = s.slots := rfl
@[simp] theorem State.reheld_cores (s : State) (t : State) : (s.reheld t).cores = s.cores := rfl
@[simp] theorem State.reheld_clusters (s : State) (t : State) : (s.reheld t).clusters = s.clusters := rfl
@[simp] theorem State.reheld_hqs (s : State) (t : State) : (s.reheld t).hqs = s.hqs := rfl
@[simp] theorem State.reheld_ctxs (s : State) (t : State) : (s.reheld t).ctxs = s.ctxs := rfl
@[simp] theorem State.reheld_nextCtx (s : State) (t : State) : (s.reheld t).nextCtx = s.nextCtx := rfl
@[simp] theorem State.reheld_drover (s : State) (t : State) : (s.reheld t).drover = s.drover := rfl
@[simp] theorem State.reheld_fwds (s : State) (t : State) : (s.reheld t).fwds = s.fwds := rfl
@[simp] theorem State.reheld_tlbis (s : State) (t : State) : (s.reheld t).tlbis = s.tlbis := rfl
@[simp] theorem State.reheld_ports (s : State) (t : State) : (s.reheld t).ports = s.ports := rfl
@[simp] theorem State.reheld_reqs (s : State) (t : State) : (s.reheld t).reqs = s.reqs := rfl
@[simp] theorem State.reheld_nextTag (s : State) (t : State) : (s.reheld t).nextTag = s.nextTag := rfl
@[simp] theorem State.reheld_spdm (s : State) (t : State) : (s.reheld t).spdm = s.spdm := rfl
@[simp] theorem State.reheld_halted (s : State) (t : State) : (s.reheld t).halted = s.halted := rfl
@[simp] theorem State.reheld_hostMem (s : State) (t : State) : (s.reheld t).hostMem = s.hostMem := rfl
@[simp] theorem State.reheld_haltCore (s : State) (t : State) : (s.reheld t).haltCore = s.haltCore := rfl
@[simp] theorem State.reheld_held (s : State) (t : State) : (s.reheld t).held = s.held := rfl
@[simp] theorem State.reheld_agenda (s : State) (t : State) : (s.reheld t).agenda = s.agenda := rfl
@[simp] theorem State.reheld_cur (s : State) (t : State) : (s.reheld t).cur = s.cur := rfl
@[simp] theorem State.reheld_turn (s : State) (t : State) : (s.reheld t).turn = s.turn := rfl
@[simp] theorem State.reheld_free (s : State) (t : State) : (s.reheld t).free = s.free := rfl
@[simp] theorem State.modCore_slot (s : State) (c : Nat) (f : Core → Core) (k : Nat) : (s.modCore c f).slot k = s.slot k := rfl
@[simp] theorem State.modCore_me (s : State) (c : Nat) (f : Core → Core) : (s.modCore c f).me = s.me := rfl
@[simp] theorem State.modCluster_slot (s : State) (n : Nat) (f : Cluster → Cluster) (k : Nat) : (s.modCluster n f).slot k = s.slot k := rfl
@[simp] theorem State.modCluster_me (s : State) (n : Nat) (f : Cluster → Cluster) : (s.modCluster n f).me = s.me := rfl
@[simp] theorem State.modPort_slot (s : State) (p : Nat) (f : Port → Port) (k : Nat) : (s.modPort p f).slot k = s.slot k := rfl
@[simp] theorem State.modPort_me (s : State) (p : Nat) (f : Port → Port) : (s.modPort p f).me = s.me := rfl
@[simp] theorem State.modHq_slot (s : State) (n : Nat) (f : Hq → Hq) (k : Nat) : (s.modHq n f).slot k = s.slot k := rfl
@[simp] theorem State.modHq_me (s : State) (n : Nat) (f : Hq → Hq) : (s.modHq n f).me = s.me := rfl
@[simp] theorem State.dropReqs_slot (s : State) (o : Nat) (k : Nat) : (s.dropReqs o).slot k = s.slot k := rfl
@[simp] theorem State.dropReqs_me (s : State) (o : Nat) : (s.dropReqs o).me = s.me := rfl
@[simp] theorem State.tick_slot (s : State)  (k : Nat) : (s.tick).slot k = s.slot k := rfl
@[simp] theorem State.tick_me (s : State)  : (s.tick).me = s.me := rfl
@[simp] theorem State.unheld_slot (s : State)  (k : Nat) : (s.unheld).slot k = s.slot k := rfl
@[simp] theorem State.unheld_me (s : State)  : (s.unheld).me = s.me := rfl
@[simp] theorem State.reheld_slot (s : State) (t : State) (k : Nat) : (s.reheld t).slot k = s.slot k := rfl
@[simp] theorem State.reheld_me (s : State) (t : State) : (s.reheld t).me = s.me := rfl
@[simp] theorem State.modCtxOf_slot (s : State) (n : Option Nat) (f : Ctx → Ctx) (k : Nat) : (s.modCtxOf n f).slot k = s.slot k := by cases n <;> rfl
@[simp] theorem State.modCtxOf_me (s : State) (n : Option Nat) (f : Ctx → Ctx) : (s.modCtxOf n f).me = s.me := by cases n <;> rfl

/-! ### Cores, clusters, ports and queues -/

theorem vat_setIfInBounds_same {α : Type} {n : Nat} (v : Vector α n) (i : Nat) (x d : α) (h : i < n) :
    vat (v.setIfInBounds i x) i d = x := by
  simp [vat, h]

theorem vat_setIfInBounds_ne {α : Type} {n : Nat} (v : Vector α n) {i j : Nat} (x d : α) (h : j ≠ i) :
    vat (v.setIfInBounds i x) j d = vat v j d := by
  simp [vat, Ne.symm h]

theorem State.coreAt_modCore_same (s : State) (c : Nat) (f : Core → Core) (h : c < 64) :
    (s.modCore c f).coreAt c = f (s.coreAt c) := vat_setIfInBounds_same _ _ _ _ h
theorem State.coreAt_modCore_ne (s : State) {c j : Nat} (f : Core → Core) (h : j ≠ c) :
    (s.modCore c f).coreAt j = s.coreAt j := vat_setIfInBounds_ne _ _ _ h
theorem State.clusterAt_modCluster_same (s : State) (n : Nat) (f : Cluster → Cluster) (h : n < 16) :
    (s.modCluster n f).clusterAt n = f (s.clusterAt n) := vat_setIfInBounds_same _ _ _ _ h
theorem State.clusterAt_modCluster_ne (s : State) {n j : Nat} (f : Cluster → Cluster) (h : j ≠ n) :
    (s.modCluster n f).clusterAt j = s.clusterAt j := vat_setIfInBounds_ne _ _ _ h
theorem State.portAt_modPort_same (s : State) (p : Nat) (f : Port → Port) (h : p < 16) :
    (s.modPort p f).portAt p = f (s.portAt p) := vat_setIfInBounds_same _ _ _ _ h
theorem State.portAt_modPort_ne (s : State) {p j : Nat} (f : Port → Port) (h : j ≠ p) :
    (s.modPort p f).portAt j = s.portAt j := vat_setIfInBounds_ne _ _ _ h
theorem State.hqAt_modHq_same (s : State) (n : Nat) (f : Hq → Hq) (h : n < 64) :
    (s.modHq n f).hqAt n = f (s.hqAt n) := vat_setIfInBounds_same _ _ _ _ h
theorem State.hqAt_modHq_ne (s : State) {n j : Nat} (f : Hq → Hq) (h : j ≠ n) :
    (s.modHq n f).hqAt j = s.hqAt j := vat_setIfInBounds_ne _ _ _ h

/-! ### A slot -/

@[simp] theorem Slot.wx_st (sl : Slot) (i : Nat) (v : X64) : (sl.wx i v).st = sl.st := by unfold Slot.wx; split <;> rfl
@[simp] theorem Slot.wx_prev (sl : Slot) (i : Nat) (v : X64) : (sl.wx i v).prev = sl.prev := by unfold Slot.wx; split <;> rfl
@[simp] theorem Slot.wx_cause (sl : Slot) (i : Nat) (v : X64) : (sl.wx i v).cause = sl.cause := by unfold Slot.wx; split <;> rfl
@[simp] theorem Slot.wx_pc (sl : Slot) (i : Nat) (v : X64) : (sl.wx i v).pc = sl.pc := by unfold Slot.wx; split <;> rfl
@[simp] theorem Slot.wx_c (sl : Slot) (i : Nat) (v : X64) : (sl.wx i v).c = sl.c := by unfold Slot.wx; split <;> rfl
@[simp] theorem Slot.wx_k (sl : Slot) (i : Nat) (v : X64) : (sl.wx i v).k = sl.k := by unfold Slot.wx; split <;> rfl
@[simp] theorem Slot.wx_nest (sl : Slot) (i : Nat) (v : X64) : (sl.wx i v).nest = sl.nest := by unfold Slot.wx; split <;> rfl
@[simp] theorem Slot.wx_tr (sl : Slot) (i : Nat) (v : X64) : (sl.wx i v).tr = sl.tr := by unfold Slot.wx; split <;> rfl
@[simp] theorem Slot.wx_svl (sl : Slot) (i : Nat) (v : X64) : (sl.wx i v).svl = sl.svl := by unfold Slot.wx; split <;> rfl
@[simp] theorem Slot.wx_swidth (sl : Slot) (i : Nat) (v : X64) : (sl.wx i v).swidth = sl.swidth := by unfold Slot.wx; split <;> rfl
@[simp] theorem Slot.wx_share (sl : Slot) (i : Nat) (v : X64) : (sl.wx i v).share = sl.share := by unfold Slot.wx; split <;> rfl
@[simp] theorem Slot.wx_cap (sl : Slot) (i : Nat) (v : X64) : (sl.wx i v).cap = sl.cap := by unfold Slot.wx; split <;> rfl
@[simp] theorem Slot.wx_ctxid (sl : Slot) (i : Nat) (v : X64) : (sl.wx i v).ctxid = sl.ctxid := by unfold Slot.wx; split <;> rfl
@[simp] theorem Slot.wx_ptroot (sl : Slot) (i : Nat) (v : X64) : (sl.wx i v).ptroot = sl.ptroot := by unfold Slot.wx; split <;> rfl
@[simp] theorem Slot.wx_elast (sl : Slot) (i : Nat) (v : X64) : (sl.wx i v).elast = sl.elast := by unfold Slot.wx; split <;> rfl
@[simp] theorem Slot.wx_bankstall (sl : Slot) (i : Nat) (v : X64) : (sl.wx i v).bankstall = sl.bankstall := by unfold Slot.wx; split <;> rfl
@[simp] theorem Slot.wx_lc (sl : Slot) (i : Nat) (v : X64) : (sl.wx i v).lc = sl.lc := by unfold Slot.wx; split <;> rfl
@[simp] theorem Slot.wx_workId (sl : Slot) (i : Nat) (v : X64) : (sl.wx i v).workId = sl.workId := by unfold Slot.wx; split <;> rfl
@[simp] theorem Slot.wx_ctx (sl : Slot) (i : Nat) (v : X64) : (sl.wx i v).ctx = sl.ctx := by unfold Slot.wx; split <;> rfl
@[simp] theorem Slot.wx_group (sl : Slot) (i : Nat) (v : X64) : (sl.wx i v).group = sl.group := by unfold Slot.wx; split <;> rfl
@[simp] theorem Slot.wx_f0 (sl : Slot) (i : Nat) (v : X64) : (sl.wx i v).f0 = sl.f0 := by unfold Slot.wx; split <;> rfl
@[simp] theorem Slot.wx_phase (sl : Slot) (i : Nat) (v : X64) : (sl.wx i v).phase = sl.phase := by unfold Slot.wx; split <;> rfl
@[simp] theorem Slot.wx_pend (sl : Slot) (i : Nat) (v : X64) : (sl.wx i v).pend = sl.pend := by unfold Slot.wx; split <;> rfl
@[simp] theorem Slot.wx_preempt (sl : Slot) (i : Nat) (v : X64) : (sl.wx i v).preempt = sl.preempt := by unfold Slot.wx; split <;> rfl
@[simp] theorem Slot.wx_bkPass (sl : Slot) (i : Nat) (v : X64) : (sl.wx i v).bkPass = sl.bkPass := by unfold Slot.wx; split <;> rfl
@[simp] theorem Slot.wx_stopping (sl : Slot) (i : Nat) (v : X64) : (sl.wx i v).stopping = sl.stopping := by unfold Slot.wx; split <;> rfl
@[simp] theorem Slot.wx_closing (sl : Slot) (i : Nat) (v : X64) : (sl.wx i v).closing = sl.closing := by unfold Slot.wx; split <;> rfl
@[simp] theorem Slot.wx_cvVl (sl : Slot) (i : Nat) (v : X64) : (sl.wx i v).cvVl = sl.cvVl := by unfold Slot.wx; split <;> rfl
@[simp] theorem Slot.wx_loft (sl : Slot) (i : Nat) (v : X64) : (sl.wx i v).loft = sl.loft := by unfold Slot.wx; split <;> rfl
@[simp] theorem Slot.wx_jumped (sl : Slot) (i : Nat) (v : X64) : (sl.wx i v).jumped = sl.jumped := by unfold Slot.wx; split <;> rfl
@[simp] theorem Slot.wx_busy (sl : Slot) (i : Nat) (v : X64) : (sl.wx i v).busy = sl.busy := by unfold Slot.wx; split <;> rfl
@[simp] theorem Slot.wx_rebases (sl : Slot) (i : Nat) (v : X64) : (sl.wx i v).rebases = sl.rebases := by unfold Slot.wx; split <;> rfl
@[simp] theorem Slot.wx_fences (sl : Slot) (i : Nat) (v : X64) : (sl.wx i v).fences = sl.fences := by unfold Slot.wx; split <;> rfl
@[simp] theorem Slot.wx_cst (sl : Slot) (i : Nat) (v : X64) : (sl.wx i v).cst = sl.cst := by unfold Slot.wx; split <;> rfl
@[simp] theorem Slot.wx_lane (sl : Slot) (i : Nat) (v : X64) : (sl.wx i v).lane = sl.lane := by unfold Slot.wx; split <;> rfl
@[simp] theorem Slot.wx_queue (sl : Slot) (i : Nat) (v : X64) : (sl.wx i v).queue = sl.queue := by unfold Slot.wx; split <;> rfl
@[simp] theorem Slot.wx_lastCv (sl : Slot) (i : Nat) (v : X64) : (sl.wx i v).lastCv = sl.lastCv := by unfold Slot.wx; split <;> rfl
@[simp] theorem Slot.wx_landed (sl : Slot) (i : Nat) (v : X64) : (sl.wx i v).landed = sl.landed := by unfold Slot.wx; split <;> rfl
@[simp] theorem Slot.wx_qdone (sl : Slot) (i : Nat) (v : X64) : (sl.wx i v).qdone = sl.qdone := by unfold Slot.wx; split <;> rfl
@[simp] theorem Slot.wx_q (sl : Slot) (i : Nat) (v : X64) : (sl.wx i v).q = sl.q := by unfold Slot.wx; split <;> rfl
@[simp] theorem Slot.wc_st (sl : Slot) (i : Nat) (v : Bool) : (sl.wc i v).st = sl.st := rfl
@[simp] theorem Slot.wc_prev (sl : Slot) (i : Nat) (v : Bool) : (sl.wc i v).prev = sl.prev := rfl
@[simp] theorem Slot.wc_cause (sl : Slot) (i : Nat) (v : Bool) : (sl.wc i v).cause = sl.cause := rfl
@[simp] theorem Slot.wc_pc (sl : Slot) (i : Nat) (v : Bool) : (sl.wc i v).pc = sl.pc := rfl
@[simp] theorem Slot.wc_x (sl : Slot) (i : Nat) (v : Bool) : (sl.wc i v).x = sl.x := rfl
@[simp] theorem Slot.wc_k (sl : Slot) (i : Nat) (v : Bool) : (sl.wc i v).k = sl.k := rfl
@[simp] theorem Slot.wc_nest (sl : Slot) (i : Nat) (v : Bool) : (sl.wc i v).nest = sl.nest := rfl
@[simp] theorem Slot.wc_tr (sl : Slot) (i : Nat) (v : Bool) : (sl.wc i v).tr = sl.tr := rfl
@[simp] theorem Slot.wc_svl (sl : Slot) (i : Nat) (v : Bool) : (sl.wc i v).svl = sl.svl := rfl
@[simp] theorem Slot.wc_swidth (sl : Slot) (i : Nat) (v : Bool) : (sl.wc i v).swidth = sl.swidth := rfl
@[simp] theorem Slot.wc_share (sl : Slot) (i : Nat) (v : Bool) : (sl.wc i v).share = sl.share := rfl
@[simp] theorem Slot.wc_cap (sl : Slot) (i : Nat) (v : Bool) : (sl.wc i v).cap = sl.cap := rfl
@[simp] theorem Slot.wc_ctxid (sl : Slot) (i : Nat) (v : Bool) : (sl.wc i v).ctxid = sl.ctxid := rfl
@[simp] theorem Slot.wc_ptroot (sl : Slot) (i : Nat) (v : Bool) : (sl.wc i v).ptroot = sl.ptroot := rfl
@[simp] theorem Slot.wc_elast (sl : Slot) (i : Nat) (v : Bool) : (sl.wc i v).elast = sl.elast := rfl
@[simp] theorem Slot.wc_bankstall (sl : Slot) (i : Nat) (v : Bool) : (sl.wc i v).bankstall = sl.bankstall := rfl
@[simp] theorem Slot.wc_lc (sl : Slot) (i : Nat) (v : Bool) : (sl.wc i v).lc = sl.lc := rfl
@[simp] theorem Slot.wc_workId (sl : Slot) (i : Nat) (v : Bool) : (sl.wc i v).workId = sl.workId := rfl
@[simp] theorem Slot.wc_ctx (sl : Slot) (i : Nat) (v : Bool) : (sl.wc i v).ctx = sl.ctx := rfl
@[simp] theorem Slot.wc_group (sl : Slot) (i : Nat) (v : Bool) : (sl.wc i v).group = sl.group := rfl
@[simp] theorem Slot.wc_f0 (sl : Slot) (i : Nat) (v : Bool) : (sl.wc i v).f0 = sl.f0 := rfl
@[simp] theorem Slot.wc_phase (sl : Slot) (i : Nat) (v : Bool) : (sl.wc i v).phase = sl.phase := rfl
@[simp] theorem Slot.wc_pend (sl : Slot) (i : Nat) (v : Bool) : (sl.wc i v).pend = sl.pend := rfl
@[simp] theorem Slot.wc_preempt (sl : Slot) (i : Nat) (v : Bool) : (sl.wc i v).preempt = sl.preempt := rfl
@[simp] theorem Slot.wc_bkPass (sl : Slot) (i : Nat) (v : Bool) : (sl.wc i v).bkPass = sl.bkPass := rfl
@[simp] theorem Slot.wc_stopping (sl : Slot) (i : Nat) (v : Bool) : (sl.wc i v).stopping = sl.stopping := rfl
@[simp] theorem Slot.wc_closing (sl : Slot) (i : Nat) (v : Bool) : (sl.wc i v).closing = sl.closing := rfl
@[simp] theorem Slot.wc_cvVl (sl : Slot) (i : Nat) (v : Bool) : (sl.wc i v).cvVl = sl.cvVl := rfl
@[simp] theorem Slot.wc_loft (sl : Slot) (i : Nat) (v : Bool) : (sl.wc i v).loft = sl.loft := rfl
@[simp] theorem Slot.wc_jumped (sl : Slot) (i : Nat) (v : Bool) : (sl.wc i v).jumped = sl.jumped := rfl
@[simp] theorem Slot.wc_busy (sl : Slot) (i : Nat) (v : Bool) : (sl.wc i v).busy = sl.busy := rfl
@[simp] theorem Slot.wc_rebases (sl : Slot) (i : Nat) (v : Bool) : (sl.wc i v).rebases = sl.rebases := rfl
@[simp] theorem Slot.wc_fences (sl : Slot) (i : Nat) (v : Bool) : (sl.wc i v).fences = sl.fences := rfl
@[simp] theorem Slot.wc_cst (sl : Slot) (i : Nat) (v : Bool) : (sl.wc i v).cst = sl.cst := rfl
@[simp] theorem Slot.wc_lane (sl : Slot) (i : Nat) (v : Bool) : (sl.wc i v).lane = sl.lane := rfl
@[simp] theorem Slot.wc_queue (sl : Slot) (i : Nat) (v : Bool) : (sl.wc i v).queue = sl.queue := rfl
@[simp] theorem Slot.wc_lastCv (sl : Slot) (i : Nat) (v : Bool) : (sl.wc i v).lastCv = sl.lastCv := rfl
@[simp] theorem Slot.wc_landed (sl : Slot) (i : Nat) (v : Bool) : (sl.wc i v).landed = sl.landed := rfl
@[simp] theorem Slot.wc_qdone (sl : Slot) (i : Nat) (v : Bool) : (sl.wc i v).qdone = sl.qdone := rfl
@[simp] theorem Slot.wc_q (sl : Slot) (i : Nat) (v : Bool) : (sl.wc i v).q = sl.q := rfl
@[simp] theorem Slot.goto_prev (sl : Slot) (a : X64) : (sl.goto a).prev = sl.prev := rfl
@[simp] theorem Slot.goto_x (sl : Slot) (a : X64) : (sl.goto a).x = sl.x := rfl
@[simp] theorem Slot.goto_c (sl : Slot) (a : X64) : (sl.goto a).c = sl.c := rfl
@[simp] theorem Slot.goto_k (sl : Slot) (a : X64) : (sl.goto a).k = sl.k := rfl
@[simp] theorem Slot.goto_nest (sl : Slot) (a : X64) : (sl.goto a).nest = sl.nest := rfl
@[simp] theorem Slot.goto_tr (sl : Slot) (a : X64) : (sl.goto a).tr = sl.tr := rfl
@[simp] theorem Slot.goto_svl (sl : Slot) (a : X64) : (sl.goto a).svl = sl.svl := rfl
@[simp] theorem Slot.goto_swidth (sl : Slot) (a : X64) : (sl.goto a).swidth = sl.swidth := rfl
@[simp] theorem Slot.goto_share (sl : Slot) (a : X64) : (sl.goto a).share = sl.share := rfl
@[simp] theorem Slot.goto_cap (sl : Slot) (a : X64) : (sl.goto a).cap = sl.cap := rfl
@[simp] theorem Slot.goto_ctxid (sl : Slot) (a : X64) : (sl.goto a).ctxid = sl.ctxid := rfl
@[simp] theorem Slot.goto_ptroot (sl : Slot) (a : X64) : (sl.goto a).ptroot = sl.ptroot := rfl
@[simp] theorem Slot.goto_elast (sl : Slot) (a : X64) : (sl.goto a).elast = sl.elast := rfl
@[simp] theorem Slot.goto_bankstall (sl : Slot) (a : X64) : (sl.goto a).bankstall = sl.bankstall := rfl
@[simp] theorem Slot.goto_lc (sl : Slot) (a : X64) : (sl.goto a).lc = sl.lc := rfl
@[simp] theorem Slot.goto_workId (sl : Slot) (a : X64) : (sl.goto a).workId = sl.workId := rfl
@[simp] theorem Slot.goto_ctx (sl : Slot) (a : X64) : (sl.goto a).ctx = sl.ctx := rfl
@[simp] theorem Slot.goto_group (sl : Slot) (a : X64) : (sl.goto a).group = sl.group := rfl
@[simp] theorem Slot.goto_f0 (sl : Slot) (a : X64) : (sl.goto a).f0 = sl.f0 := rfl
@[simp] theorem Slot.goto_pend (sl : Slot) (a : X64) : (sl.goto a).pend = sl.pend := rfl
@[simp] theorem Slot.goto_preempt (sl : Slot) (a : X64) : (sl.goto a).preempt = sl.preempt := rfl
@[simp] theorem Slot.goto_stopping (sl : Slot) (a : X64) : (sl.goto a).stopping = sl.stopping := rfl
@[simp] theorem Slot.goto_closing (sl : Slot) (a : X64) : (sl.goto a).closing = sl.closing := rfl
@[simp] theorem Slot.goto_cvVl (sl : Slot) (a : X64) : (sl.goto a).cvVl = sl.cvVl := rfl
@[simp] theorem Slot.goto_loft (sl : Slot) (a : X64) : (sl.goto a).loft = sl.loft := rfl
@[simp] theorem Slot.goto_jumped (sl : Slot) (a : X64) : (sl.goto a).jumped = false := rfl
@[simp] theorem Slot.goto_busy (sl : Slot) (a : X64) : (sl.goto a).busy = false := rfl
@[simp] theorem Slot.goto_rebases (sl : Slot) (a : X64) : (sl.goto a).rebases = sl.rebases := rfl
@[simp] theorem Slot.goto_fences (sl : Slot) (a : X64) : (sl.goto a).fences = sl.fences := rfl
@[simp] theorem Slot.goto_cst (sl : Slot) (a : X64) : (sl.goto a).cst = sl.cst := rfl
@[simp] theorem Slot.goto_lane (sl : Slot) (a : X64) : (sl.goto a).lane = sl.lane := rfl
@[simp] theorem Slot.goto_queue (sl : Slot) (a : X64) : (sl.goto a).queue = sl.queue := rfl
@[simp] theorem Slot.goto_lastCv (sl : Slot) (a : X64) : (sl.goto a).lastCv = sl.lastCv := rfl
@[simp] theorem Slot.goto_landed (sl : Slot) (a : X64) : (sl.goto a).landed = sl.landed := rfl
@[simp] theorem Slot.goto_qdone (sl : Slot) (a : X64) : (sl.goto a).qdone = sl.qdone := rfl
@[simp] theorem Slot.goto_q (sl : Slot) (a : X64) : (sl.goto a).q = sl.q := rfl
@[simp] theorem Slot.goto_pc (sl : Slot) (a : X64) : (sl.goto a).pc = a := rfl
@[simp] theorem Slot.goto_phase (sl : Slot) (a : X64) : (sl.goto a).phase = .fresh := rfl
@[simp] theorem Slot.goto_st (sl : Slot) (a : X64) : (sl.goto a).st = .run := rfl
@[simp] theorem Slot.goto_cause (sl : Slot) (a : X64) : (sl.goto a).cause = 0 := rfl
@[simp] theorem Slot.goto_bkPass (sl : Slot) (a : X64) : (sl.goto a).bkPass = false := rfl
@[simp] theorem Slot.adv_prev (sl : Slot)  : (sl.adv).prev = sl.prev := rfl
@[simp] theorem Slot.adv_x (sl : Slot)  : (sl.adv).x = sl.x := rfl
@[simp] theorem Slot.adv_c (sl : Slot)  : (sl.adv).c = sl.c := rfl
@[simp] theorem Slot.adv_k (sl : Slot)  : (sl.adv).k = sl.k := rfl
@[simp] theorem Slot.adv_nest (sl : Slot)  : (sl.adv).nest = sl.nest := rfl
@[simp] theorem Slot.adv_tr (sl : Slot)  : (sl.adv).tr = sl.tr := rfl
@[simp] theorem Slot.adv_svl (sl : Slot)  : (sl.adv).svl = sl.svl := rfl
@[simp] theorem Slot.adv_swidth (sl : Slot)  : (sl.adv).swidth = sl.swidth := rfl
@[simp] theorem Slot.adv_share (sl : Slot)  : (sl.adv).share = sl.share := rfl
@[simp] theorem Slot.adv_cap (sl : Slot)  : (sl.adv).cap = sl.cap := rfl
@[simp] theorem Slot.adv_ctxid (sl : Slot)  : (sl.adv).ctxid = sl.ctxid := rfl
@[simp] theorem Slot.adv_ptroot (sl : Slot)  : (sl.adv).ptroot = sl.ptroot := rfl
@[simp] theorem Slot.adv_elast (sl : Slot)  : (sl.adv).elast = sl.elast := rfl
@[simp] theorem Slot.adv_bankstall (sl : Slot)  : (sl.adv).bankstall = sl.bankstall := rfl
@[simp] theorem Slot.adv_lc (sl : Slot)  : (sl.adv).lc = sl.lc := rfl
@[simp] theorem Slot.adv_workId (sl : Slot)  : (sl.adv).workId = sl.workId := rfl
@[simp] theorem Slot.adv_ctx (sl : Slot)  : (sl.adv).ctx = sl.ctx := rfl
@[simp] theorem Slot.adv_group (sl : Slot)  : (sl.adv).group = sl.group := rfl
@[simp] theorem Slot.adv_f0 (sl : Slot)  : (sl.adv).f0 = sl.f0 := rfl
@[simp] theorem Slot.adv_pend (sl : Slot)  : (sl.adv).pend = sl.pend := rfl
@[simp] theorem Slot.adv_preempt (sl : Slot)  : (sl.adv).preempt = sl.preempt := rfl
@[simp] theorem Slot.adv_stopping (sl : Slot)  : (sl.adv).stopping = sl.stopping := rfl
@[simp] theorem Slot.adv_closing (sl : Slot)  : (sl.adv).closing = sl.closing := rfl
@[simp] theorem Slot.adv_cvVl (sl : Slot)  : (sl.adv).cvVl = sl.cvVl := rfl
@[simp] theorem Slot.adv_loft (sl : Slot)  : (sl.adv).loft = sl.loft := rfl
@[simp] theorem Slot.adv_jumped (sl : Slot)  : (sl.adv).jumped = false := rfl
@[simp] theorem Slot.adv_busy (sl : Slot)  : (sl.adv).busy = false := rfl
@[simp] theorem Slot.adv_rebases (sl : Slot)  : (sl.adv).rebases = sl.rebases := rfl
@[simp] theorem Slot.adv_fences (sl : Slot)  : (sl.adv).fences = sl.fences := rfl
@[simp] theorem Slot.adv_cst (sl : Slot)  : (sl.adv).cst = sl.cst := rfl
@[simp] theorem Slot.adv_lane (sl : Slot)  : (sl.adv).lane = sl.lane := rfl
@[simp] theorem Slot.adv_queue (sl : Slot)  : (sl.adv).queue = sl.queue := rfl
@[simp] theorem Slot.adv_lastCv (sl : Slot)  : (sl.adv).lastCv = sl.lastCv := rfl
@[simp] theorem Slot.adv_landed (sl : Slot)  : (sl.adv).landed = sl.landed := rfl
@[simp] theorem Slot.adv_qdone (sl : Slot)  : (sl.adv).qdone = sl.qdone := rfl
@[simp] theorem Slot.adv_q (sl : Slot)  : (sl.adv).q = sl.q := rfl
@[simp] theorem Slot.adv_pc (sl : Slot) : sl.adv.pc = sl.pc + 4 := rfl
@[simp] theorem Slot.adv_phase (sl : Slot) : sl.adv.phase = .fresh := rfl
@[simp] theorem Slot.adv_st (sl : Slot) : sl.adv.st = .run := rfl
@[simp] theorem Slot.adv_cause (sl : Slot) : sl.adv.cause = 0 := rfl
@[simp] theorem Slot.adv_bkPass (sl : Slot) : sl.adv.bkPass = false := rfl
@[simp] theorem Slot.stall_prev (sl : Slot) (c : Nat) : (sl.stall c).prev = sl.prev := rfl
@[simp] theorem Slot.stall_pc (sl : Slot) (c : Nat) : (sl.stall c).pc = sl.pc := rfl
@[simp] theorem Slot.stall_x (sl : Slot) (c : Nat) : (sl.stall c).x = sl.x := rfl
@[simp] theorem Slot.stall_c (sl : Slot) (c : Nat) : (sl.stall c).c = sl.c := rfl
@[simp] theorem Slot.stall_k (sl : Slot) (c : Nat) : (sl.stall c).k = sl.k := rfl
@[simp] theorem Slot.stall_nest (sl : Slot) (c : Nat) : (sl.stall c).nest = sl.nest := rfl
@[simp] theorem Slot.stall_tr (sl : Slot) (c : Nat) : (sl.stall c).tr = sl.tr := rfl
@[simp] theorem Slot.stall_svl (sl : Slot) (c : Nat) : (sl.stall c).svl = sl.svl := rfl
@[simp] theorem Slot.stall_swidth (sl : Slot) (c : Nat) : (sl.stall c).swidth = sl.swidth := rfl
@[simp] theorem Slot.stall_share (sl : Slot) (c : Nat) : (sl.stall c).share = sl.share := rfl
@[simp] theorem Slot.stall_cap (sl : Slot) (c : Nat) : (sl.stall c).cap = sl.cap := rfl
@[simp] theorem Slot.stall_ctxid (sl : Slot) (c : Nat) : (sl.stall c).ctxid = sl.ctxid := rfl
@[simp] theorem Slot.stall_ptroot (sl : Slot) (c : Nat) : (sl.stall c).ptroot = sl.ptroot := rfl
@[simp] theorem Slot.stall_elast (sl : Slot) (c : Nat) : (sl.stall c).elast = sl.elast := rfl
@[simp] theorem Slot.stall_bankstall (sl : Slot) (c : Nat) : (sl.stall c).bankstall = sl.bankstall := rfl
@[simp] theorem Slot.stall_lc (sl : Slot) (c : Nat) : (sl.stall c).lc = sl.lc := rfl
@[simp] theorem Slot.stall_workId (sl : Slot) (c : Nat) : (sl.stall c).workId = sl.workId := rfl
@[simp] theorem Slot.stall_ctx (sl : Slot) (c : Nat) : (sl.stall c).ctx = sl.ctx := rfl
@[simp] theorem Slot.stall_group (sl : Slot) (c : Nat) : (sl.stall c).group = sl.group := rfl
@[simp] theorem Slot.stall_f0 (sl : Slot) (c : Nat) : (sl.stall c).f0 = sl.f0 := rfl
@[simp] theorem Slot.stall_phase (sl : Slot) (c : Nat) : (sl.stall c).phase = sl.phase := rfl
@[simp] theorem Slot.stall_pend (sl : Slot) (c : Nat) : (sl.stall c).pend = sl.pend := rfl
@[simp] theorem Slot.stall_preempt (sl : Slot) (c : Nat) : (sl.stall c).preempt = sl.preempt := rfl
@[simp] theorem Slot.stall_bkPass (sl : Slot) (c : Nat) : (sl.stall c).bkPass = sl.bkPass := rfl
@[simp] theorem Slot.stall_stopping (sl : Slot) (c : Nat) : (sl.stall c).stopping = sl.stopping := rfl
@[simp] theorem Slot.stall_closing (sl : Slot) (c : Nat) : (sl.stall c).closing = sl.closing := rfl
@[simp] theorem Slot.stall_cvVl (sl : Slot) (c : Nat) : (sl.stall c).cvVl = sl.cvVl := rfl
@[simp] theorem Slot.stall_loft (sl : Slot) (c : Nat) : (sl.stall c).loft = sl.loft := rfl
@[simp] theorem Slot.stall_jumped (sl : Slot) (c : Nat) : (sl.stall c).jumped = sl.jumped := rfl
@[simp] theorem Slot.stall_busy (sl : Slot) (c : Nat) : (sl.stall c).busy = true := rfl
@[simp] theorem Slot.stall_rebases (sl : Slot) (c : Nat) : (sl.stall c).rebases = sl.rebases := rfl
@[simp] theorem Slot.stall_fences (sl : Slot) (c : Nat) : (sl.stall c).fences = sl.fences := rfl
@[simp] theorem Slot.stall_cst (sl : Slot) (c : Nat) : (sl.stall c).cst = sl.cst := rfl
@[simp] theorem Slot.stall_lane (sl : Slot) (c : Nat) : (sl.stall c).lane = sl.lane := rfl
@[simp] theorem Slot.stall_queue (sl : Slot) (c : Nat) : (sl.stall c).queue = sl.queue := rfl
@[simp] theorem Slot.stall_lastCv (sl : Slot) (c : Nat) : (sl.stall c).lastCv = sl.lastCv := rfl
@[simp] theorem Slot.stall_landed (sl : Slot) (c : Nat) : (sl.stall c).landed = sl.landed := rfl
@[simp] theorem Slot.stall_qdone (sl : Slot) (c : Nat) : (sl.stall c).qdone = sl.qdone := rfl
@[simp] theorem Slot.stall_q (sl : Slot) (c : Nat) : (sl.stall c).q = sl.q := rfl
@[simp] theorem Slot.stall_st (sl : Slot) (c : Nat) : (sl.stall c).st = .wait := rfl
@[simp] theorem Slot.stall_cause (sl : Slot) (c : Nat) : (sl.stall c).cause = c := rfl
@[simp] theorem Slot.push_st (sl : Slot) (e : Entry) : (sl.push e).st = sl.st := by unfold Slot.push; rfl
@[simp] theorem Slot.push_prev (sl : Slot) (e : Entry) : (sl.push e).prev = sl.prev := by unfold Slot.push; rfl
@[simp] theorem Slot.push_cause (sl : Slot) (e : Entry) : (sl.push e).cause = sl.cause := by unfold Slot.push; rfl
@[simp] theorem Slot.push_pc (sl : Slot) (e : Entry) : (sl.push e).pc = sl.pc := by unfold Slot.push; rfl
@[simp] theorem Slot.push_x (sl : Slot) (e : Entry) : (sl.push e).x = sl.x := by unfold Slot.push; rfl
@[simp] theorem Slot.push_c (sl : Slot) (e : Entry) : (sl.push e).c = sl.c := by unfold Slot.push; rfl
@[simp] theorem Slot.push_k (sl : Slot) (e : Entry) : (sl.push e).k = sl.k := by unfold Slot.push; rfl
@[simp] theorem Slot.push_nest (sl : Slot) (e : Entry) : (sl.push e).nest = sl.nest := by unfold Slot.push; rfl
@[simp] theorem Slot.push_tr (sl : Slot) (e : Entry) : (sl.push e).tr = sl.tr := by unfold Slot.push; rfl
@[simp] theorem Slot.push_svl (sl : Slot) (e : Entry) : (sl.push e).svl = sl.svl := by unfold Slot.push; rfl
@[simp] theorem Slot.push_swidth (sl : Slot) (e : Entry) : (sl.push e).swidth = sl.swidth := by unfold Slot.push; rfl
@[simp] theorem Slot.push_share (sl : Slot) (e : Entry) : (sl.push e).share = sl.share := by unfold Slot.push; rfl
@[simp] theorem Slot.push_cap (sl : Slot) (e : Entry) : (sl.push e).cap = sl.cap := by unfold Slot.push; rfl
@[simp] theorem Slot.push_ctxid (sl : Slot) (e : Entry) : (sl.push e).ctxid = sl.ctxid := by unfold Slot.push; rfl
@[simp] theorem Slot.push_ptroot (sl : Slot) (e : Entry) : (sl.push e).ptroot = sl.ptroot := by unfold Slot.push; rfl
@[simp] theorem Slot.push_elast (sl : Slot) (e : Entry) : (sl.push e).elast = sl.elast := by unfold Slot.push; rfl
@[simp] theorem Slot.push_bankstall (sl : Slot) (e : Entry) : (sl.push e).bankstall = sl.bankstall := by unfold Slot.push; rfl
@[simp] theorem Slot.push_lc (sl : Slot) (e : Entry) : (sl.push e).lc = sl.lc := by unfold Slot.push; rfl
@[simp] theorem Slot.push_workId (sl : Slot) (e : Entry) : (sl.push e).workId = sl.workId := by unfold Slot.push; rfl
@[simp] theorem Slot.push_ctx (sl : Slot) (e : Entry) : (sl.push e).ctx = sl.ctx := by unfold Slot.push; rfl
@[simp] theorem Slot.push_group (sl : Slot) (e : Entry) : (sl.push e).group = sl.group := by unfold Slot.push; rfl
@[simp] theorem Slot.push_f0 (sl : Slot) (e : Entry) : (sl.push e).f0 = sl.f0 := by unfold Slot.push; rfl
@[simp] theorem Slot.push_phase (sl : Slot) (e : Entry) : (sl.push e).phase = sl.phase := by unfold Slot.push; rfl
@[simp] theorem Slot.push_pend (sl : Slot) (e : Entry) : (sl.push e).pend = sl.pend := by unfold Slot.push; rfl
@[simp] theorem Slot.push_preempt (sl : Slot) (e : Entry) : (sl.push e).preempt = sl.preempt := by unfold Slot.push; rfl
@[simp] theorem Slot.push_bkPass (sl : Slot) (e : Entry) : (sl.push e).bkPass = sl.bkPass := by unfold Slot.push; rfl
@[simp] theorem Slot.push_stopping (sl : Slot) (e : Entry) : (sl.push e).stopping = sl.stopping := by unfold Slot.push; rfl
@[simp] theorem Slot.push_closing (sl : Slot) (e : Entry) : (sl.push e).closing = sl.closing := by unfold Slot.push; rfl
@[simp] theorem Slot.push_cvVl (sl : Slot) (e : Entry) : (sl.push e).cvVl = sl.cvVl := by unfold Slot.push; rfl
@[simp] theorem Slot.push_loft (sl : Slot) (e : Entry) : (sl.push e).loft = sl.loft := by unfold Slot.push; rfl
@[simp] theorem Slot.push_jumped (sl : Slot) (e : Entry) : (sl.push e).jumped = sl.jumped := by unfold Slot.push; rfl
@[simp] theorem Slot.push_busy (sl : Slot) (e : Entry) : (sl.push e).busy = sl.busy := by unfold Slot.push; rfl
@[simp] theorem Slot.push_rebases (sl : Slot) (e : Entry) : (sl.push e).rebases = sl.rebases := by unfold Slot.push; rfl
@[simp] theorem Slot.push_fences (sl : Slot) (e : Entry) : (sl.push e).fences = sl.fences := by unfold Slot.push; rfl
@[simp] theorem Slot.push_cst (sl : Slot) (e : Entry) : (sl.push e).cst = sl.cst := by unfold Slot.push; rfl
@[simp] theorem Slot.push_lane (sl : Slot) (e : Entry) : (sl.push e).lane = sl.lane := by unfold Slot.push; rfl
@[simp] theorem Slot.push_landed (sl : Slot) (e : Entry) : (sl.push e).landed = sl.landed := by unfold Slot.push; rfl
@[simp] theorem Slot.push_qdone (sl : Slot) (e : Entry) : (sl.push e).qdone = sl.qdone := by unfold Slot.push; rfl
@[simp] theorem Slot.push_q (sl : Slot) (e : Entry) : (sl.push e).q = sl.q := by unfold Slot.push; rfl
@[simp] theorem Slot.setStages_st (sl : Slot) (l : List Bool) : (sl.setStages l).st = sl.st := by unfold Slot.setStages; rfl
@[simp] theorem Slot.setStages_prev (sl : Slot) (l : List Bool) : (sl.setStages l).prev = sl.prev := by unfold Slot.setStages; rfl
@[simp] theorem Slot.setStages_cause (sl : Slot) (l : List Bool) : (sl.setStages l).cause = sl.cause := by unfold Slot.setStages; rfl
@[simp] theorem Slot.setStages_pc (sl : Slot) (l : List Bool) : (sl.setStages l).pc = sl.pc := by unfold Slot.setStages; rfl
@[simp] theorem Slot.setStages_x (sl : Slot) (l : List Bool) : (sl.setStages l).x = sl.x := by unfold Slot.setStages; rfl
@[simp] theorem Slot.setStages_k (sl : Slot) (l : List Bool) : (sl.setStages l).k = sl.k := by unfold Slot.setStages; rfl
@[simp] theorem Slot.setStages_nest (sl : Slot) (l : List Bool) : (sl.setStages l).nest = sl.nest := by unfold Slot.setStages; rfl
@[simp] theorem Slot.setStages_tr (sl : Slot) (l : List Bool) : (sl.setStages l).tr = sl.tr := by unfold Slot.setStages; rfl
@[simp] theorem Slot.setStages_svl (sl : Slot) (l : List Bool) : (sl.setStages l).svl = sl.svl := by unfold Slot.setStages; rfl
@[simp] theorem Slot.setStages_swidth (sl : Slot) (l : List Bool) : (sl.setStages l).swidth = sl.swidth := by unfold Slot.setStages; rfl
@[simp] theorem Slot.setStages_share (sl : Slot) (l : List Bool) : (sl.setStages l).share = sl.share := by unfold Slot.setStages; rfl
@[simp] theorem Slot.setStages_cap (sl : Slot) (l : List Bool) : (sl.setStages l).cap = sl.cap := by unfold Slot.setStages; rfl
@[simp] theorem Slot.setStages_ctxid (sl : Slot) (l : List Bool) : (sl.setStages l).ctxid = sl.ctxid := by unfold Slot.setStages; rfl
@[simp] theorem Slot.setStages_ptroot (sl : Slot) (l : List Bool) : (sl.setStages l).ptroot = sl.ptroot := by unfold Slot.setStages; rfl
@[simp] theorem Slot.setStages_elast (sl : Slot) (l : List Bool) : (sl.setStages l).elast = sl.elast := by unfold Slot.setStages; rfl
@[simp] theorem Slot.setStages_bankstall (sl : Slot) (l : List Bool) : (sl.setStages l).bankstall = sl.bankstall := by unfold Slot.setStages; rfl
@[simp] theorem Slot.setStages_lc (sl : Slot) (l : List Bool) : (sl.setStages l).lc = sl.lc := by unfold Slot.setStages; rfl
@[simp] theorem Slot.setStages_workId (sl : Slot) (l : List Bool) : (sl.setStages l).workId = sl.workId := by unfold Slot.setStages; rfl
@[simp] theorem Slot.setStages_ctx (sl : Slot) (l : List Bool) : (sl.setStages l).ctx = sl.ctx := by unfold Slot.setStages; rfl
@[simp] theorem Slot.setStages_group (sl : Slot) (l : List Bool) : (sl.setStages l).group = sl.group := by unfold Slot.setStages; rfl
@[simp] theorem Slot.setStages_f0 (sl : Slot) (l : List Bool) : (sl.setStages l).f0 = sl.f0 := by unfold Slot.setStages; rfl
@[simp] theorem Slot.setStages_phase (sl : Slot) (l : List Bool) : (sl.setStages l).phase = sl.phase := by unfold Slot.setStages; rfl
@[simp] theorem Slot.setStages_pend (sl : Slot) (l : List Bool) : (sl.setStages l).pend = sl.pend := by unfold Slot.setStages; rfl
@[simp] theorem Slot.setStages_preempt (sl : Slot) (l : List Bool) : (sl.setStages l).preempt = sl.preempt := by unfold Slot.setStages; rfl
@[simp] theorem Slot.setStages_bkPass (sl : Slot) (l : List Bool) : (sl.setStages l).bkPass = sl.bkPass := by unfold Slot.setStages; rfl
@[simp] theorem Slot.setStages_stopping (sl : Slot) (l : List Bool) : (sl.setStages l).stopping = sl.stopping := by unfold Slot.setStages; rfl
@[simp] theorem Slot.setStages_closing (sl : Slot) (l : List Bool) : (sl.setStages l).closing = sl.closing := by unfold Slot.setStages; rfl
@[simp] theorem Slot.setStages_cvVl (sl : Slot) (l : List Bool) : (sl.setStages l).cvVl = sl.cvVl := by unfold Slot.setStages; rfl
@[simp] theorem Slot.setStages_loft (sl : Slot) (l : List Bool) : (sl.setStages l).loft = sl.loft := by unfold Slot.setStages; rfl
@[simp] theorem Slot.setStages_jumped (sl : Slot) (l : List Bool) : (sl.setStages l).jumped = sl.jumped := by unfold Slot.setStages; rfl
@[simp] theorem Slot.setStages_busy (sl : Slot) (l : List Bool) : (sl.setStages l).busy = sl.busy := by unfold Slot.setStages; rfl
@[simp] theorem Slot.setStages_rebases (sl : Slot) (l : List Bool) : (sl.setStages l).rebases = sl.rebases := by unfold Slot.setStages; rfl
@[simp] theorem Slot.setStages_fences (sl : Slot) (l : List Bool) : (sl.setStages l).fences = sl.fences := by unfold Slot.setStages; rfl
@[simp] theorem Slot.setStages_cst (sl : Slot) (l : List Bool) : (sl.setStages l).cst = sl.cst := by unfold Slot.setStages; rfl
@[simp] theorem Slot.setStages_lane (sl : Slot) (l : List Bool) : (sl.setStages l).lane = sl.lane := by unfold Slot.setStages; rfl
@[simp] theorem Slot.setStages_queue (sl : Slot) (l : List Bool) : (sl.setStages l).queue = sl.queue := by unfold Slot.setStages; rfl
@[simp] theorem Slot.setStages_lastCv (sl : Slot) (l : List Bool) : (sl.setStages l).lastCv = sl.lastCv := by unfold Slot.setStages; rfl
@[simp] theorem Slot.setStages_landed (sl : Slot) (l : List Bool) : (sl.setStages l).landed = sl.landed := by unfold Slot.setStages; rfl
@[simp] theorem Slot.setStages_qdone (sl : Slot) (l : List Bool) : (sl.setStages l).qdone = sl.qdone := by unfold Slot.setStages; rfl
@[simp] theorem Slot.setStages_q (sl : Slot) (l : List Bool) : (sl.setStages l).q = sl.q := by unfold Slot.setStages; rfl
@[simp] theorem Slot.endNest_st (sl : Slot)  : (sl.endNest).st = sl.st := by unfold Slot.endNest; simp
@[simp] theorem Slot.endNest_prev (sl : Slot)  : (sl.endNest).prev = sl.prev := by unfold Slot.endNest; simp
@[simp] theorem Slot.endNest_cause (sl : Slot)  : (sl.endNest).cause = sl.cause := by unfold Slot.endNest; simp
@[simp] theorem Slot.endNest_pc (sl : Slot)  : (sl.endNest).pc = sl.pc := by unfold Slot.endNest; simp
@[simp] theorem Slot.endNest_x (sl : Slot)  : (sl.endNest).x = sl.x := by unfold Slot.endNest; simp
@[simp] theorem Slot.endNest_k (sl : Slot)  : (sl.endNest).k = sl.k := by unfold Slot.endNest; simp
@[simp] theorem Slot.endNest_tr (sl : Slot)  : (sl.endNest).tr = sl.tr := by unfold Slot.endNest; simp
@[simp] theorem Slot.endNest_svl (sl : Slot)  : (sl.endNest).svl = sl.svl := by unfold Slot.endNest; simp
@[simp] theorem Slot.endNest_swidth (sl : Slot)  : (sl.endNest).swidth = sl.swidth := by unfold Slot.endNest; simp
@[simp] theorem Slot.endNest_share (sl : Slot)  : (sl.endNest).share = sl.share := by unfold Slot.endNest; simp
@[simp] theorem Slot.endNest_cap (sl : Slot)  : (sl.endNest).cap = sl.cap := by unfold Slot.endNest; simp
@[simp] theorem Slot.endNest_ctxid (sl : Slot)  : (sl.endNest).ctxid = sl.ctxid := by unfold Slot.endNest; simp
@[simp] theorem Slot.endNest_ptroot (sl : Slot)  : (sl.endNest).ptroot = sl.ptroot := by unfold Slot.endNest; simp
@[simp] theorem Slot.endNest_elast (sl : Slot)  : (sl.endNest).elast = sl.elast := by unfold Slot.endNest; simp
@[simp] theorem Slot.endNest_bankstall (sl : Slot)  : (sl.endNest).bankstall = sl.bankstall := by unfold Slot.endNest; simp
@[simp] theorem Slot.endNest_lc (sl : Slot)  : (sl.endNest).lc = sl.lc := by unfold Slot.endNest; simp
@[simp] theorem Slot.endNest_workId (sl : Slot)  : (sl.endNest).workId = sl.workId := by unfold Slot.endNest; simp
@[simp] theorem Slot.endNest_ctx (sl : Slot)  : (sl.endNest).ctx = sl.ctx := by unfold Slot.endNest; simp
@[simp] theorem Slot.endNest_group (sl : Slot)  : (sl.endNest).group = sl.group := by unfold Slot.endNest; simp
@[simp] theorem Slot.endNest_f0 (sl : Slot)  : (sl.endNest).f0 = sl.f0 := by unfold Slot.endNest; simp
@[simp] theorem Slot.endNest_phase (sl : Slot)  : (sl.endNest).phase = sl.phase := by unfold Slot.endNest; simp
@[simp] theorem Slot.endNest_pend (sl : Slot)  : (sl.endNest).pend = sl.pend := by unfold Slot.endNest; simp
@[simp] theorem Slot.endNest_preempt (sl : Slot)  : (sl.endNest).preempt = sl.preempt := by unfold Slot.endNest; simp
@[simp] theorem Slot.endNest_bkPass (sl : Slot)  : (sl.endNest).bkPass = sl.bkPass := by unfold Slot.endNest; simp
@[simp] theorem Slot.endNest_stopping (sl : Slot)  : (sl.endNest).stopping = sl.stopping := by unfold Slot.endNest; simp
@[simp] theorem Slot.endNest_closing (sl : Slot)  : (sl.endNest).closing = sl.closing := by unfold Slot.endNest; simp
@[simp] theorem Slot.endNest_cvVl (sl : Slot)  : (sl.endNest).cvVl = sl.cvVl := by unfold Slot.endNest; simp
@[simp] theorem Slot.endNest_loft (sl : Slot)  : (sl.endNest).loft = sl.loft := by unfold Slot.endNest; simp
@[simp] theorem Slot.endNest_jumped (sl : Slot)  : (sl.endNest).jumped = sl.jumped := by unfold Slot.endNest; simp
@[simp] theorem Slot.endNest_busy (sl : Slot)  : (sl.endNest).busy = sl.busy := by unfold Slot.endNest; simp
@[simp] theorem Slot.endNest_rebases (sl : Slot)  : (sl.endNest).rebases = sl.rebases := by unfold Slot.endNest; simp
@[simp] theorem Slot.endNest_fences (sl : Slot)  : (sl.endNest).fences = sl.fences := by unfold Slot.endNest; simp
@[simp] theorem Slot.endNest_cst (sl : Slot)  : (sl.endNest).cst = sl.cst := by unfold Slot.endNest; simp
@[simp] theorem Slot.endNest_lane (sl : Slot)  : (sl.endNest).lane = sl.lane := by unfold Slot.endNest; simp
@[simp] theorem Slot.endNest_queue (sl : Slot)  : (sl.endNest).queue = sl.queue := by unfold Slot.endNest; simp
@[simp] theorem Slot.endNest_lastCv (sl : Slot)  : (sl.endNest).lastCv = sl.lastCv := by unfold Slot.endNest; simp
@[simp] theorem Slot.endNest_landed (sl : Slot)  : (sl.endNest).landed = sl.landed := by unfold Slot.endNest; simp
@[simp] theorem Slot.endNest_qdone (sl : Slot)  : (sl.endNest).qdone = sl.qdone := by unfold Slot.endNest; simp
@[simp] theorem Slot.endNest_q (sl : Slot)  : (sl.endNest).q = sl.q := by unfold Slot.endNest; simp
@[simp] theorem Slot.startPass_st (sl : Slot)  : (sl.startPass).st = sl.st := by unfold Slot.startPass; simp
@[simp] theorem Slot.startPass_prev (sl : Slot)  : (sl.startPass).prev = sl.prev := by unfold Slot.startPass; simp
@[simp] theorem Slot.startPass_cause (sl : Slot)  : (sl.startPass).cause = sl.cause := by unfold Slot.startPass; simp
@[simp] theorem Slot.startPass_pc (sl : Slot)  : (sl.startPass).pc = sl.pc := by unfold Slot.startPass; simp
@[simp] theorem Slot.startPass_x (sl : Slot)  : (sl.startPass).x = sl.x := by unfold Slot.startPass; simp
@[simp] theorem Slot.startPass_k (sl : Slot)  : (sl.startPass).k = sl.k := by unfold Slot.startPass; simp
@[simp] theorem Slot.startPass_nest (sl : Slot)  : (sl.startPass).nest = sl.nest := by unfold Slot.startPass; simp
@[simp] theorem Slot.startPass_tr (sl : Slot)  : (sl.startPass).tr = sl.tr := by unfold Slot.startPass; simp
@[simp] theorem Slot.startPass_svl (sl : Slot)  : (sl.startPass).svl = sl.svl := by unfold Slot.startPass; simp
@[simp] theorem Slot.startPass_swidth (sl : Slot)  : (sl.startPass).swidth = sl.swidth := by unfold Slot.startPass; simp
@[simp] theorem Slot.startPass_share (sl : Slot)  : (sl.startPass).share = sl.share := by unfold Slot.startPass; simp
@[simp] theorem Slot.startPass_cap (sl : Slot)  : (sl.startPass).cap = sl.cap := by unfold Slot.startPass; simp
@[simp] theorem Slot.startPass_ctxid (sl : Slot)  : (sl.startPass).ctxid = sl.ctxid := by unfold Slot.startPass; simp
@[simp] theorem Slot.startPass_ptroot (sl : Slot)  : (sl.startPass).ptroot = sl.ptroot := by unfold Slot.startPass; simp
@[simp] theorem Slot.startPass_elast (sl : Slot)  : (sl.startPass).elast = sl.elast := by unfold Slot.startPass; simp
@[simp] theorem Slot.startPass_bankstall (sl : Slot)  : (sl.startPass).bankstall = sl.bankstall := by unfold Slot.startPass; simp
@[simp] theorem Slot.startPass_lc (sl : Slot)  : (sl.startPass).lc = sl.lc := by unfold Slot.startPass; simp
@[simp] theorem Slot.startPass_workId (sl : Slot)  : (sl.startPass).workId = sl.workId := by unfold Slot.startPass; simp
@[simp] theorem Slot.startPass_ctx (sl : Slot)  : (sl.startPass).ctx = sl.ctx := by unfold Slot.startPass; simp
@[simp] theorem Slot.startPass_group (sl : Slot)  : (sl.startPass).group = sl.group := by unfold Slot.startPass; simp
@[simp] theorem Slot.startPass_f0 (sl : Slot)  : (sl.startPass).f0 = sl.f0 := by unfold Slot.startPass; simp
@[simp] theorem Slot.startPass_phase (sl : Slot)  : (sl.startPass).phase = sl.phase := by unfold Slot.startPass; simp
@[simp] theorem Slot.startPass_pend (sl : Slot)  : (sl.startPass).pend = sl.pend := by unfold Slot.startPass; simp
@[simp] theorem Slot.startPass_preempt (sl : Slot)  : (sl.startPass).preempt = sl.preempt := by unfold Slot.startPass; simp
@[simp] theorem Slot.startPass_bkPass (sl : Slot)  : (sl.startPass).bkPass = sl.bkPass := by unfold Slot.startPass; simp
@[simp] theorem Slot.startPass_stopping (sl : Slot)  : (sl.startPass).stopping = sl.stopping := by unfold Slot.startPass; simp
@[simp] theorem Slot.startPass_closing (sl : Slot)  : (sl.startPass).closing = sl.closing := by unfold Slot.startPass; simp
@[simp] theorem Slot.startPass_cvVl (sl : Slot)  : (sl.startPass).cvVl = sl.cvVl := by unfold Slot.startPass; simp
@[simp] theorem Slot.startPass_loft (sl : Slot)  : (sl.startPass).loft = sl.loft := by unfold Slot.startPass; simp
@[simp] theorem Slot.startPass_jumped (sl : Slot)  : (sl.startPass).jumped = sl.jumped := by unfold Slot.startPass; simp
@[simp] theorem Slot.startPass_busy (sl : Slot)  : (sl.startPass).busy = sl.busy := by unfold Slot.startPass; simp
@[simp] theorem Slot.startPass_rebases (sl : Slot)  : (sl.startPass).rebases = sl.rebases := by unfold Slot.startPass; simp
@[simp] theorem Slot.startPass_fences (sl : Slot)  : (sl.startPass).fences = sl.fences := by unfold Slot.startPass; simp
@[simp] theorem Slot.startPass_cst (sl : Slot)  : (sl.startPass).cst = sl.cst := by unfold Slot.startPass; simp
@[simp] theorem Slot.startPass_lane (sl : Slot)  : (sl.startPass).lane = sl.lane := by unfold Slot.startPass; simp
@[simp] theorem Slot.startPass_queue (sl : Slot)  : (sl.startPass).queue = sl.queue := by unfold Slot.startPass; simp
@[simp] theorem Slot.startPass_lastCv (sl : Slot)  : (sl.startPass).lastCv = sl.lastCv := by unfold Slot.startPass; simp
@[simp] theorem Slot.startPass_landed (sl : Slot)  : (sl.startPass).landed = sl.landed := by unfold Slot.startPass; simp
@[simp] theorem Slot.startPass_qdone (sl : Slot)  : (sl.startPass).qdone = sl.qdone := by unfold Slot.startPass; simp
@[simp] theorem Slot.startPass_q (sl : Slot)  : (sl.startPass).q = sl.q := by unfold Slot.startPass; simp
@[simp] theorem Slot.modReg_st (sl : Slot) (i : Nat) (f : ResReg → ResReg) : (sl.modReg i f).st = sl.st := by unfold Slot.modReg; rfl
@[simp] theorem Slot.modReg_prev (sl : Slot) (i : Nat) (f : ResReg → ResReg) : (sl.modReg i f).prev = sl.prev := by unfold Slot.modReg; rfl
@[simp] theorem Slot.modReg_cause (sl : Slot) (i : Nat) (f : ResReg → ResReg) : (sl.modReg i f).cause = sl.cause := by unfold Slot.modReg; rfl
@[simp] theorem Slot.modReg_pc (sl : Slot) (i : Nat) (f : ResReg → ResReg) : (sl.modReg i f).pc = sl.pc := by unfold Slot.modReg; rfl
@[simp] theorem Slot.modReg_x (sl : Slot) (i : Nat) (f : ResReg → ResReg) : (sl.modReg i f).x = sl.x := by unfold Slot.modReg; rfl
@[simp] theorem Slot.modReg_c (sl : Slot) (i : Nat) (f : ResReg → ResReg) : (sl.modReg i f).c = sl.c := by unfold Slot.modReg; rfl
@[simp] theorem Slot.modReg_k (sl : Slot) (i : Nat) (f : ResReg → ResReg) : (sl.modReg i f).k = sl.k := by unfold Slot.modReg; rfl
@[simp] theorem Slot.modReg_nest (sl : Slot) (i : Nat) (f : ResReg → ResReg) : (sl.modReg i f).nest = sl.nest := by unfold Slot.modReg; rfl
@[simp] theorem Slot.modReg_tr (sl : Slot) (i : Nat) (f : ResReg → ResReg) : (sl.modReg i f).tr = sl.tr := by unfold Slot.modReg; rfl
@[simp] theorem Slot.modReg_svl (sl : Slot) (i : Nat) (f : ResReg → ResReg) : (sl.modReg i f).svl = sl.svl := by unfold Slot.modReg; rfl
@[simp] theorem Slot.modReg_swidth (sl : Slot) (i : Nat) (f : ResReg → ResReg) : (sl.modReg i f).swidth = sl.swidth := by unfold Slot.modReg; rfl
@[simp] theorem Slot.modReg_share (sl : Slot) (i : Nat) (f : ResReg → ResReg) : (sl.modReg i f).share = sl.share := by unfold Slot.modReg; rfl
@[simp] theorem Slot.modReg_cap (sl : Slot) (i : Nat) (f : ResReg → ResReg) : (sl.modReg i f).cap = sl.cap := by unfold Slot.modReg; rfl
@[simp] theorem Slot.modReg_ctxid (sl : Slot) (i : Nat) (f : ResReg → ResReg) : (sl.modReg i f).ctxid = sl.ctxid := by unfold Slot.modReg; rfl
@[simp] theorem Slot.modReg_ptroot (sl : Slot) (i : Nat) (f : ResReg → ResReg) : (sl.modReg i f).ptroot = sl.ptroot := by unfold Slot.modReg; rfl
@[simp] theorem Slot.modReg_elast (sl : Slot) (i : Nat) (f : ResReg → ResReg) : (sl.modReg i f).elast = sl.elast := by unfold Slot.modReg; rfl
@[simp] theorem Slot.modReg_bankstall (sl : Slot) (i : Nat) (f : ResReg → ResReg) : (sl.modReg i f).bankstall = sl.bankstall := by unfold Slot.modReg; rfl
@[simp] theorem Slot.modReg_lc (sl : Slot) (i : Nat) (f : ResReg → ResReg) : (sl.modReg i f).lc = sl.lc := by unfold Slot.modReg; rfl
@[simp] theorem Slot.modReg_workId (sl : Slot) (i : Nat) (f : ResReg → ResReg) : (sl.modReg i f).workId = sl.workId := by unfold Slot.modReg; rfl
@[simp] theorem Slot.modReg_ctx (sl : Slot) (i : Nat) (f : ResReg → ResReg) : (sl.modReg i f).ctx = sl.ctx := by unfold Slot.modReg; rfl
@[simp] theorem Slot.modReg_group (sl : Slot) (i : Nat) (f : ResReg → ResReg) : (sl.modReg i f).group = sl.group := by unfold Slot.modReg; rfl
@[simp] theorem Slot.modReg_f0 (sl : Slot) (i : Nat) (f : ResReg → ResReg) : (sl.modReg i f).f0 = sl.f0 := by unfold Slot.modReg; rfl
@[simp] theorem Slot.modReg_phase (sl : Slot) (i : Nat) (f : ResReg → ResReg) : (sl.modReg i f).phase = sl.phase := by unfold Slot.modReg; rfl
@[simp] theorem Slot.modReg_pend (sl : Slot) (i : Nat) (f : ResReg → ResReg) : (sl.modReg i f).pend = sl.pend := by unfold Slot.modReg; rfl
@[simp] theorem Slot.modReg_preempt (sl : Slot) (i : Nat) (f : ResReg → ResReg) : (sl.modReg i f).preempt = sl.preempt := by unfold Slot.modReg; rfl
@[simp] theorem Slot.modReg_bkPass (sl : Slot) (i : Nat) (f : ResReg → ResReg) : (sl.modReg i f).bkPass = sl.bkPass := by unfold Slot.modReg; rfl
@[simp] theorem Slot.modReg_stopping (sl : Slot) (i : Nat) (f : ResReg → ResReg) : (sl.modReg i f).stopping = sl.stopping := by unfold Slot.modReg; rfl
@[simp] theorem Slot.modReg_closing (sl : Slot) (i : Nat) (f : ResReg → ResReg) : (sl.modReg i f).closing = sl.closing := by unfold Slot.modReg; rfl
@[simp] theorem Slot.modReg_cvVl (sl : Slot) (i : Nat) (f : ResReg → ResReg) : (sl.modReg i f).cvVl = sl.cvVl := by unfold Slot.modReg; rfl
@[simp] theorem Slot.modReg_loft (sl : Slot) (i : Nat) (f : ResReg → ResReg) : (sl.modReg i f).loft = sl.loft := by unfold Slot.modReg; rfl
@[simp] theorem Slot.modReg_jumped (sl : Slot) (i : Nat) (f : ResReg → ResReg) : (sl.modReg i f).jumped = sl.jumped := by unfold Slot.modReg; rfl
@[simp] theorem Slot.modReg_busy (sl : Slot) (i : Nat) (f : ResReg → ResReg) : (sl.modReg i f).busy = sl.busy := by unfold Slot.modReg; rfl
@[simp] theorem Slot.modReg_rebases (sl : Slot) (i : Nat) (f : ResReg → ResReg) : (sl.modReg i f).rebases = sl.rebases := by unfold Slot.modReg; rfl
@[simp] theorem Slot.modReg_fences (sl : Slot) (i : Nat) (f : ResReg → ResReg) : (sl.modReg i f).fences = sl.fences := by unfold Slot.modReg; rfl
@[simp] theorem Slot.modReg_cst (sl : Slot) (i : Nat) (f : ResReg → ResReg) : (sl.modReg i f).cst = sl.cst := by unfold Slot.modReg; rfl
@[simp] theorem Slot.modReg_lane (sl : Slot) (i : Nat) (f : ResReg → ResReg) : (sl.modReg i f).lane = sl.lane := by unfold Slot.modReg; rfl
@[simp] theorem Slot.modReg_queue (sl : Slot) (i : Nat) (f : ResReg → ResReg) : (sl.modReg i f).queue = sl.queue := by unfold Slot.modReg; rfl
@[simp] theorem Slot.modReg_lastCv (sl : Slot) (i : Nat) (f : ResReg → ResReg) : (sl.modReg i f).lastCv = sl.lastCv := by unfold Slot.modReg; rfl
@[simp] theorem Slot.modReg_landed (sl : Slot) (i : Nat) (f : ResReg → ResReg) : (sl.modReg i f).landed = sl.landed := by unfold Slot.modReg; rfl
@[simp] theorem Slot.modReg_qdone (sl : Slot) (i : Nat) (f : ResReg → ResReg) : (sl.modReg i f).qdone = sl.qdone := by unfold Slot.modReg; rfl

/-- x0 reads zero (R12). -/
@[simp] theorem Slot.rx_zero (sl : Slot) : sl.rx 0 = 0 := rfl

theorem Slot.rx_wx_same (sl : Slot) {i : Nat} (v : X64) (h0 : i ≠ 0) (h : i < 32) : (sl.wx i v).rx i = v := by
  simp [Slot.rx, Slot.wx, h0, vat_setIfInBounds_same _ _ _ _ h]

theorem Slot.rx_wx_ne (sl : Slot) {i j : Nat} (v : X64) (h : j ≠ i) : (sl.wx i v).rx j = sl.rx j := by
  unfold Slot.rx Slot.wx
  split
  · rfl
  · split
    · rfl
    · simp [vat_setIfInBounds_ne _ _ _ h]

/-- A write to x0 is discarded (R12). -/
@[simp] theorem Slot.wx_zero (sl : Slot) (v : X64) : sl.wx 0 v = sl := rfl

@[simp] theorem Slot.rx_adv (sl : Slot) (i : Nat) : sl.adv.rx i = sl.rx i := rfl
@[simp] theorem Slot.rx_goto (sl : Slot) (a : X64) (i : Nat) : (sl.goto a).rx i = sl.rx i := rfl

end Sys2Proof.Machine
end

