-- ==== Sys2Proof/Laws/Issue.lean ====
section
/-! SUPPORT. What ISSUE_OPPORTUNITY does when one thread of its core has an entry: the head entry runs, and what it leaves. -/

namespace Sys2Proof.Machine

theorem State.issue_empty (s : State) {k : Nat} (h : (s.slot k).queue = []) : s.issue k = none := by
  simp [State.issue, h]

/-- With one thread that has entries, the core's opportunity is that thread's. -/
theorem State.issueFrom_alone (s s' : State) (core t : Nat) (hi : s.issue (16 * core + t) = some (.ok s'))
    (hw : ¬(s.coreAt core).waiting.length < (s'.coreAt core).waiting.length) (l : List Nat) (ht : t ∈ l)
    (hne : ∀ j ∈ l, j ≠ t → (s.slot (16 * core + j)).queue = []) :
    s.issueFrom core l = some (.ok (s'.modCore core fun c => { c with rr := (t + 1) % 16 })) := by
  induction l with
  | nil => simp at ht
  | cons j l ih =>
    by_cases hj : j = t
    · subst hj
      simp [State.issueFrom, hi, hw]
    · have h0 := State.issue_empty s (hne j (by simp) hj)
      simp only [State.issueFrom, h0]
      exact ih (by simpa [Ne.symm hj] using ht) (fun i hi' => hne i (by simp [hi']))

theorem Core.mem_order (c : Core) {t : Nat} (h : t < 16) : t ∈ c.order := by
  simp only [Core.order, List.mem_map, List.mem_range]
  exact ⟨(t + 16 - c.rr % 16) % 16, by omega, by omega⟩

theorem Core.lt_of_mem_order (c : Core) {t : Nat} (h : t ∈ c.order) : t < 16 := by
  simp only [Core.order, List.mem_map, List.mem_range] at h
  obtain ⟨i, _, rfl⟩ := h
  omega

/-- The opportunity of a core whose only entries are those of slot k. -/
theorem State.issueCore_alone (s s' : State) (k : Nat)
    (hf : ∀ j, j ≠ k → coreOf j = coreOf k → ((s.trimLanes (coreOf k) 32).slot j).queue = [])
    (hi : (s.trimLanes (coreOf k) 32).issue k = some (.ok s')) (hw : (s'.coreAt (coreOf k)).waiting = []) :
    s.issueCore (coreOf k) = some (.ok (s'.modCore (coreOf k) fun c => { c with rr := (k % 16 + 1) % 16 })) := by
  have hk : 16 * coreOf k + k % 16 = k := by unfold coreOf; omega
  have := State.issueFrom_alone (s.trimLanes (coreOf k) 32) s' (coreOf k) (k % 16) (by rw [hk]; exact hi) (by simp [hw])
    ((s.trimLanes (coreOf k) 32).coreAt (coreOf k)).order (Core.mem_order _ (Nat.mod_lt _ (by decide))) (by
      intro j hj hne
      have := Core.lt_of_mem_order _ hj
      exact hf _ (by unfold coreOf; omega) (by unfold coreOf; omega))
  simp only [State.issueCore, this]

theorem State.lanesFree.run {s : State} {k : Nat} (h : s.lanesFree k) : s.lanesRun k = true := by
  obtain ⟨-, hb, ht, hs, -⟩ := h
  simp [State.lanesRun, ht, hs.1, hs.2.1, hs.2.2, hb.1, hb.2]

theorem AtHead.armed {s : State} {k : Nat} {i : Instr} {e : Entry} (h : AtHead s k i e) :
    (s.slot k).lane.armedFor i = false := by
  simp only [Lane.armedFor, List.any_eq_false]
  intro r hr
  by_cases h32 : r < 32
  · simp [h.full r hr h32]
  · simp [h32]

theorem AtHead.queue {s : State} {k : Nat} {i : Instr} {e : Entry} (h : AtHead s k i e) :
    (s.slot k).queue = e :: (s.slot k).queue.tail := by
  have := h.head
  cases hq : (s.slot k).queue with
  | nil => simp [hq] at this
  | cons a t => simp [hq] at this; simp [this]

/-! ### The lane groups that an issue claims -/

/-- Only the lane allocation tables have changed. -/
structure LanesOnly (s t : State) : Prop where
  rest : t = { s with cores := t.cores }
  cores : ∀ c, t.coreAt c = { s.coreAt c with lanes := (t.coreAt c).lanes }

theorem LanesOnly.refl (s : State) : LanesOnly s s := ⟨rfl, fun _ => rfl⟩

theorem LanesOnly.trans {s t u : State} (h : LanesOnly s t) (g : LanesOnly t u) : LanesOnly s u :=
  ⟨by rw [g.rest, h.rest], fun c => by rw [g.cores, h.cores]⟩

theorem LanesOnly.modCore (s : State) (core : Nat) {f : Core → Core} (hf : ∀ c, f c = { c with lanes := (f c).lanes }) :
    LanesOnly s (s.modCore core f) := by
  refine ⟨rfl, fun c => ?_⟩
  by_cases h : c = core
  · subst h
    by_cases hc : c < 64
    · rw [State.coreAt_modCore_same _ _ _ hc]; exact hf _
    · have : s.modCore c f = s := by unfold State.modCore; rw [Vector.setIfInBounds_eq_of_size_le (by omega)]
      rw [this]
  · rw [State.coreAt_modCore_ne _ _ h]

theorem Core.takeLane_lanes (c : Core) (t : Nat) : c.takeLane t = { c with lanes := (c.takeLane t).lanes } := by
  unfold Core.takeLane; split <;> rfl

theorem State.trimLanes_only (n : Nat) (s : State) (core : Nat) : LanesOnly s (s.trimLanes core n) := by
  induction n generalizing s with
  | zero => exact LanesOnly.refl s
  | succ n ih =>
    unfold State.trimLanes
    dsimp only
    split
    · exact LanesOnly.refl s
    · split
      · exact (LanesOnly.modCore s core (fun c => Core.takeLane_lanes c _)).trans (ih _)
      · exact LanesOnly.refl s

theorem State.fillLanes_only (n : Nat) (s : State) (core t : Nat) : LanesOnly s (s.fillLanes core t n) := by
  induction n generalizing s with
  | zero => exact LanesOnly.refl s
  | succ n ih =>
    unfold State.fillLanes
    dsimp only
    split
    · exact (LanesOnly.modCore s core (fun c => by split <;> rfl)).trans (ih _)
    · split
      · split
        · exact (LanesOnly.modCore s core (fun c => by split <;> rfl)).trans (ih _)
        · exact LanesOnly.refl s
      · exact LanesOnly.refl s

/-- The claim of lane groups changes the lane allocation table alone (R11, R89). -/
theorem State.claimLanes_only {s t : State} {k : Nat} (h : s.claimLanes k = some t) : LanesOnly s t := by
  have hc : LanesOnly s (if (s.atBoundary k || decide ((s.coreAt (coreOf k)).held (k % 16) = 0)) = true then
      s.fillLanes (coreOf k) (k % 16) 32 else s) := by
    split
    · exact State.fillLanes_only _ _ _ _
    · exact LanesOnly.refl s
  simp only [State.claimLanes, Option.ite_none_left_eq_some, Option.some.injEq] at h
  exact h.2 ▸ hc

/-- A table that does not hold more than PLIM lane groups is not trimmed. -/
theorem State.trimLanes_whole {s : State} {c n : Nat} (hl : (s.coreAt c).lanes.length = (s.coreAt c).plim) : s.trimLanes c n = s := by
  cases n with
  | zero => rfl
  | succ n => unfold State.trimLanes; simp only [hl, Nat.le_refl, if_true]

/-- A thread that holds its share of a lane allocation table without a free group claims nothing more. -/
theorem State.claimLanes_held {s : State} {k : Nat} (hl : (s.coreAt (coreOf k)).lanes.length = (s.coreAt (coreOf k)).plim)
    (hs : (s.slot k).tableShare ≤ (s.coreAt (coreOf k)).held (k % 16)) (hh : 0 < (s.coreAt (coreOf k)).held (k % 16)) :
    s.claimLanes k = some s := by
  have hk : 16 * coreOf k + k % 16 = k := by unfold coreOf; omega
  have hf : s.fillLanes (coreOf k) (k % 16) 32 = s := by
    unfold State.fillLanes
    simp only [hk, hl, Nat.lt_irrefl, Nat.not_lt.mpr hs, decide_false, Bool.false_and, Bool.false_eq_true, if_false]
  unfold State.claimLanes
  simp only [hf, ite_self, Nat.ne_of_gt hh, if_false]

/-- A thread that holds all of its table's PLIM lane groups and needs no more keeps them. -/
theorem State.claimLanes_whole {s : State} {k : Nat} (hl : (s.coreAt (coreOf k)).lanes.length = (s.coreAt (coreOf k)).plim)
    (hs : (s.slot k).tableShare ≤ (s.coreAt (coreOf k)).held (k % 16)) (hh : 0 < (s.coreAt (coreOf k)).held (k % 16)) :
    (s.trimLanes (coreOf k) 32).claimLanes k = some s := by
  rw [State.trimLanes_whole hl, State.claimLanes_held hl hs hh]

theorem LanesOnly.slot {s t : State} (h : LanesOnly s t) (j : Nat) : t.slot j = s.slot j := by rw [h.rest]; rfl
theorem LanesOnly.modCoreId {s t : State} (h : LanesOnly s t) (c : Nat) : (t.coreAt c).dbg = (s.coreAt c).dbg := by rw [h.cores]

/-- What runs the head entry, once its lane groups are claimed. -/
structure Ready (s : State) (k : Nat) (i : Instr) (e : Entry) : Prop where
  inPart : k < 1024
  stop : (s.slot k).st ≠ .stop
  run : s.lanesRun k = true
  leave : (s.coreAt (coreOf k)).waiting = [] ∧ 16 * (s.coreAt (coreOf k)).capNow ≤ (s.coreAt (coreOf k)).bal16
  quiet : s.quiet k
  head : (s.slot k).queue = e :: (s.slot k).queue.tail
  kind : e.kind = .instr
  ins : e.ins = some i
  stage : e.p = true
  armed : (s.slot k).lane.armedFor i = false

theorem AtHead.ready {s t : State} {k : Nat} {i : Instr} {e : Entry} (h : AtHead s k i e) (ht : LanesOnly s t) : Ready t k i e := by
  have hsl := ht.slot k
  have hc := ht.cores (coreOf k)
  refine ⟨h.free.inPart, ?_, ?_, ?_, ⟨?_, ?_⟩, ?_, h.kind, h.ins, h.stage, ?_⟩
  · rw [hsl]; exact h.free.bound.2
  · obtain ⟨-, hb, hf, hs, -⟩ := h.free
    simp [State.lanesRun, hsl, hf, hs.1, hs.2.1, hs.2.2, hb.1, hb.2]
  · rw [hc]; exact h.free.leave
  · rw [hc]; exact h.free.quiet.trace
  · rw [hc]; exact h.free.quiet.dpre
  · rw [hsl]; exact h.queue
  · rw [hsl]; exact h.armed

/-- The opportunity of a thread whose head entry begins: it claims its lane groups and runs the head. -/
theorem State.issue_head {s t : State} {k : Nat} (hq : (s.slot k).queue ≠ []) (ht : s.claimLanes k = some t) {r : Res State}
    (hi : t.issueHead k = some r) : s.issue k = some r := by
  unfold State.issue
  rw [if_neg (by simpa using hq), ht]
  simp only [hi]

/-- An entry that stays in the lanes: the issue is its lane action. -/
theorem State.issueHead_lane {s : State} {k : Nat} {i : Instr} {e : Entry} (h : Ready s k i e) {act : LaneAct}
    (hi : laneOf i (s.lenv k e) = some act) :
    s.issueHead k = (s.withLeave k e i (act.units (s.slot k).lane.vstart.toNat) (s.runLane k act)).map .ok := by
  obtain ⟨t, hq⟩ : ∃ t, (s.slot k).queue = e :: t := ⟨_, h.head⟩
  simp only [State.issueHead, hq, h.run, h.kind, h.stage, h.ins, h.armed, Bool.not_true, Bool.false_eq_true, if_false, hi]

/-! ### What an issue leaves -/

/-- A core update that an issue makes: only the bucket changes, and nobody waits for leave. -/
structure Core.Charged (f : Core → Core) (c : Core) : Prop where
  keeps : f c = { c with bal16 := (f c).bal16, waiting := (f c).waiting }
  free : (f c).waiting = []

theorem State.coreAt_setSlot (s : State) (k c : Nat) (sl : Slot) : (s.setSlot k sl).coreAt c = s.coreAt c := rfl

theorem State.trace_quiet (s : State) (k kind : Nat) (a b c : X64) (h : bitAt (s.coreAt (coreOf k)).dbg.trctl 0 = false) :
    s.trace k kind a b c = s := by
  simp [State.trace, h]

theorem State.dpre_quiet (s : State) (k : Nat) (pc : X64) (x : Nat) (h : bitAt (s.coreAt (coreOf k)).dbg.dpre 63 = false) :
    s.dpre k pc x = s := by
  simp [State.dpre, h]

/-- The head entry retires and nothing else happens. -/
theorem State.retireHead_quiet (s : State) (k : Nat) (e : Entry) (t : List Entry) (hq : (s.slot k).queue = e :: t)
    (hs : (s.slot k).st ≠ .stop) (h : bitAt (s.coreAt (coreOf k)).dbg.trctl 0 = false) :
    s.retireHead k =
      s.setSlot k { s.slot k with
        queue := t, lastCv := if t.isEmpty then none else (s.slot k).lastCv
        cvVl := if e.cvPos = 0 then (s.slot k).lane.vl else (s.slot k).cvVl } := by
  unfold State.retireHead
  simp only [hq]
  rw [State.trace_quiet _ _ _ _ _ _ (by rw [State.coreAt_setSlot]; exact h)]
  simp [hs]

/-- The slot after a step of its head entry: retired, or part done with what is left of its leave. -/
def Slot.afterHead (sl : Slot) (e : Entry) (t : List Entry) (n m : Nat) : MemStep → Slot
  | .more v => { sl with lane := { sl.lane with vstart := BitVec.ofNat 12 v }, queue := { e with leave := n, ahead := m } :: t }
  | _ => { sl with
    lane := { sl.lane with vstart := 0 }, queue := t, lastCv := if t.isEmpty then none else sl.lastCv
    cvVl := if e.cvPos = 0 then sl.lane.vl else sl.cvVl }

theorem State.modCore_setSlot (s : State) (c k : Nat) (f : Core → Core) (sl : Slot) :
    (s.setSlot k sl).modCore c f = (s.modCore c f).setSlot k sl := rfl

theorem State.modHead_setSlot (s : State) (k : Nat) (sl : Slot) (e : Entry) (t : List Entry) (h : sl.queue = e :: t)
    (f : Entry → Entry) : (s.setSlot k sl).modHead k f = s.setSlot k { sl with queue := f e :: t } := by
  simp [State.modHead, State.modSlot, h]

/-- Settling a step that begins: with a quiet core it only puts the slot. -/
theorem State.settleEntry_begins (s s0 : State) (k : Nat) (sl : Slot) (e e' : Entry) (t : List Entry) (step : MemStep)
    (hb : step.begins = true) (hq : sl.queue = e' :: t) (hs : sl.st ≠ .stop)
    (ht : bitAt (s0.coreAt (coreOf k)).dbg.trctl 0 = false) (hd : bitAt (s0.coreAt (coreOf k)).dbg.dpre 63 = false) :
    s.settleEntry k e (s0.setSlot k sl) step =
      some (s0.setSlot k (match step with
        | .more v => { sl with lane := { sl.lane with vstart := BitVec.ofNat 12 v } }
        | _ => { sl with
          lane := { sl.lane with vstart := 0 }, queue := t, lastCv := if t.isEmpty then none else sl.lastCv
          cvVl := if e'.cvPos = 0 then sl.lane.vl else sl.cvVl })) := by
  cases step with
  | more v =>
    simp only [State.settleEntry]
    rw [State.dpre_quiet _ _ _ _ (by rw [State.modSlot, State.coreAt_setSlot, State.coreAt_setSlot]; exact hd)]
    simp [State.modSlot]
  | done =>
    simp only [State.settleEntry, State.clearVstart]
    rw [State.dpre_quiet _ _ _ _ (by rw [State.modSlot, State.coreAt_setSlot, State.coreAt_setSlot]; exact hd)]
    rw [State.retireHead_quiet _ _ e' t (by simp [State.modSlot, hq]) (by simpa [State.modSlot] using hs)
      (by rw [State.modSlot, State.coreAt_setSlot, State.coreAt_setSlot]; exact ht)]
    simp [State.modSlot]
  | _ => simp [MemStep.begins] at hb

theorem vector_set_self {α : Type} {n : Nat} (v : Vector α n) (c : Nat) (d : α) : v.setIfInBounds c (vat v c d) = v := by
  ext i hi
  simp only [Vector.getElem_setIfInBounds]
  split
  · rename_i h; subst h; simp [vat, hi]
  · rfl

theorem State.modCore_id (s : State) (c : Nat) : s.modCore c id = s := by
  simp only [State.modCore, id, State.coreAt, vector_set_self]

/-- A step of the head entry that begins: leave is granted, and the slot is put. -/
theorem State.withLeave_begins {s : State} {k : Nat} {i : Instr} {e : Entry} (h : Ready s k i e) (units : Nat) (sl : Slot)
    (step : MemStep) (hb : step.begins = true) (hq : sl.queue = (s.slot k).queue) (hs : sl.st = (s.slot k).st) :
    ∃ f n m, Core.Charged f (s.coreAt (coreOf k)) ∧
      s.withLeave k e i units (s.setSlot k sl, step) =
        some ((s.modCore (coreOf k) f).setSlot k (sl.afterHead e (s.slot k).queue.tail n m step)) := by
  have hq' : sl.queue = e :: (s.slot k).queue.tail := by rw [hq]; exact h.head
  have hst : sl.st ≠ .stop := by rw [hs]; exact h.stop
  have hw := h.leave
  have hk : coreOf k < 64 := by have := h.inPart; unfold coreOf; omega
  have hid : Core.Charged id (s.coreAt (coreOf k)) := ⟨rfl, hw.1⟩
  have hmod : s.modCore (coreOf k) id = s := State.modCore_id s _
  have key : ∀ (f : Core → Core) (n m : Nat), Core.Charged f (s.coreAt (coreOf k)) →
      s.settleEntry k e ((s.modCore (coreOf k) f).setSlot k
        { sl with queue := { e with leave := n, ahead := m } :: (s.slot k).queue.tail }) step =
        some ((s.modCore (coreOf k) f).setSlot k (sl.afterHead e (s.slot k).queue.tail n m step)) := by
    intro f n m hf
    rw [State.settleEntry_begins s _ k { sl with queue := { e with leave := n, ahead := m } :: (s.slot k).queue.tail } e
      { e with leave := n, ahead := m } _ step hb rfl hst
      (by rw [State.coreAt_modCore_same _ _ _ hk, hf.keeps]; exact h.quiet.trace)
      (by rw [State.coreAt_modCore_same _ _ _ hk, hf.keeps]; exact h.quiet.dpre)]
    cases step <;> simp [Slot.afterHead] at hb ⊢
  have keyId : ∀ n m : Nat,
      s.settleEntry k e (s.setSlot k { sl with queue := { e with leave := n, ahead := m } :: (s.slot k).queue.tail }) step =
        some ((s.modCore (coreOf k) id).setSlot k (sl.afterHead e (s.slot k).queue.tail n m step)) := by
    intro n m; have := key id n m hid; rwa [hmod] at this ⊢
  have plain : s.settleEntry k e (s.setSlot k sl) step =
      some ((s.modCore (coreOf k) id).setSlot k (sl.afterHead e (s.slot k).queue.tail e.leave e.ahead step)) := by
    have := keyId e.leave e.ahead
    rwa [← hq'] at this
  unfold State.withLeave
  cases hc : leaveCost i (s.slot k).lane.slices.toNat (s.slot k).lane.vl.toNat with
  | none => exact ⟨id, e.leave, e.ahead, hid, by simpa [hc] using plain⟩
  | some cost =>
    simp only [hb, hc]
    by_cases hu : units = 0
    · exact ⟨id, e.leave, e.ahead, hid, by simpa [hu] using plain⟩
    · by_cases hah : e.ahead = 0
      · by_cases hl : e.leave = 0
        · have hch : chunkUnits (s.coreAt (coreOf k)).capNow cost units * cost ≤ (s.coreAt (coreOf k)).capNow := by
            unfold chunkUnits
            split
            · rename_i h0; simp [h0]
            · exact Nat.le_trans (Nat.mul_le_mul_right _ (Nat.min_le_right _ _)) (Nat.div_mul_le_self _ _)
          have hmay : (s.coreAt (coreOf k)).mayCharge k e.turn (chunkUnits (s.coreAt (coreOf k)).capNow cost units * cost) = true := by
            simp only [Core.mayCharge, hw.1, List.isEmpty_nil, Bool.true_or, Bool.true_and, decide_eq_true_eq]
            omega
          refine ⟨fun c => c.charge (chunkUnits (s.coreAt (coreOf k)).capNow cost units * cost),
            chunkUnits (s.coreAt (coreOf k)).capNow cost units - 1, e.ahead, ⟨rfl, by simp [Core.charge, hw.1]⟩, ?_⟩
          simp only [hu, hl, hah, hmay, Bool.not_true, Bool.false_or, decide_false, Bool.false_eq_true, if_false, ne_eq,
            not_true_eq_false, if_true, State.chargeChunk, State.coreAt_setSlot, hw.1, List.isEmpty_nil, State.modCore_setSlot]
          rw [State.modHead_setSlot _ _ _ e _ hq']
          have := key (fun c => c.charge (chunkUnits (s.coreAt (coreOf k)).capNow cost units * cost))
            (chunkUnits (s.coreAt (coreOf k)).capNow cost units - 1) e.ahead ⟨rfl, by simp [Core.charge, hw.1]⟩
          simp only [hah] at this ⊢
          exact this
        · refine ⟨id, e.leave - 1, e.ahead, hid, ?_⟩
          simp only [hu, hl, hah, Bool.not_true, Bool.false_or, decide_false, Bool.false_eq_true, if_false, ne_eq,
            not_true_eq_false, not_false_eq_true, if_true]
          rw [State.modHead_setSlot _ _ _ e _ hq']
          have := keyId (e.leave - 1) e.ahead
          simp only [hah] at this ⊢
          exact this
      · refine ⟨id, e.leave, e.ahead - 1, hid, ?_⟩
        simp only [hu, hah, Bool.not_true, Bool.false_or, decide_false, Bool.false_eq_true, if_false, ne_eq,
          not_false_eq_true, if_true]
        rw [State.modHead_setSlot _ _ _ e _ hq']
        exact keyId e.leave (e.ahead - 1)

/-- What an issue that puts slot k leaves of everything else. -/
structure IssueFrame (s u : State) (k : Nat) : Prop where
  others : s.sameSlotsBut u k
  memory : u.mem = s.mem
  cores : ∀ c, u.coreAt c =
    { s.coreAt c with
      rr := (u.coreAt c).rr, bal16 := (u.coreAt c).bal16, waiting := (u.coreAt c).waiting, lanes := (u.coreAt c).lanes }
  rest : u = { s with slots := u.slots, cores := u.cores }

theorem vat_setIfInBounds_eq {α : Type} {n : Nat} (v : Vector α n) (c j : Nat) (x d : α) :
    vat (v.setIfInBounds c x) j d = if j = c ∧ c < n then x else vat v j d := by
  by_cases h : j = c
  · subst h
    by_cases hn : j < n
    · simp [hn, vat]
    · simp [hn, vat]
  · simp [h, vat, Ne.symm h]

/-- ISSUE_OPPORTUNITY when the head entry of slot k begins: slot k is put, and nothing else changes. -/
theorem exec_issue_begins {s : State} {k : Nat} {i : Instr} {e : Entry} (h : AtHead s k i e) (c : Fin 64)
    (hc : c.val = coreOf k) (units : Nat) (sl : Slot) (step : MemStep)
    (hi : ∀ t, LanesOnly s t → t.issueHead k = (t.withLeave k e i units (t.setSlot k sl, step)).map .ok)
    (hb : step.begins = true) (hq : sl.queue = (s.slot k).queue) (hs : sl.st = (s.slot k).st) :
    ∃ u n m, exec (.issueOpportunity c) s = .next u ∧ u.slot k = sl.afterHead e (s.slot k).queue.tail n m step ∧
      IssueFrame s u k := by
  obtain ⟨t, ht⟩ := Option.isSome_iff_exists.mp h.free.granted
  have htrim := State.trimLanes_only 32 s (coreOf k)
  have hlo := htrim.trans (State.claimLanes_only ht)
  have hsl := hlo.slot k
  obtain ⟨f, n, m, hf, hw⟩ := State.withLeave_begins (h.ready hlo) units sl step hb (by rw [hsl, hq]) (by rw [hsl, hs])
  have hk : coreOf k < 64 := by have := h.free.inPart; unfold coreOf; omega
  have hi := hi t hlo
  rw [hw, hsl] at hi
  have hi := State.issue_head (by rw [htrim.slot, h.queue]; simp) ht hi
  have hcore := State.issueCore_alone s _ k (fun j hj hc => by rw [htrim.slot]; exact h.free.alone j hj hc) hi
    (by rw [State.coreAt_setSlot, State.coreAt_modCore_same _ _ _ hk]; exact hf.free)
  refine ⟨((t.modCore (coreOf k) f).setSlot k (sl.afterHead e (s.slot k).queue.tail n m step)).modCore (coreOf k)
    fun c => { c with rr := (k % 16 + 1) % 16 }, n, m, ?_, ?_, ⟨?_, ?_, ?_, ?_⟩⟩
  · show execIssueOpportunity c s = _
    rw [execIssueOpportunity, hc, hcore]; rfl
  · rw [State.modCore_setSlot, State.slot_setSlot_same]
  · intro j hj
    rw [State.modCore_setSlot, State.slot_setSlot_ne _ _ hj]
    exact hlo.slot j
  · show t.mem = s.mem
    rw [hlo.rest]
  · intro j
    rw [State.modCore_setSlot, State.coreAt_setSlot]
    by_cases hj : j = coreOf k
    · subst hj
      rw [State.coreAt_modCore_same _ _ _ hk, State.coreAt_modCore_same _ _ _ hk, hf.keeps, hlo.cores]
    · rw [State.coreAt_modCore_ne _ _ hj, State.coreAt_modCore_ne _ _ hj, hlo.cores]
  · rw [hlo.rest]; rfl

/-- The same for an entry that keeps the phase of its slice. -/
theorem IssueFrame.onlyLanes {s u : State} {k : Nat} (h : IssueFrame s u k) {l : Lane} {q : List Entry} {v : Option Entry}
    {w : BitVec 13} (hs : u.slot k = { s.slot k with lane := l, queue := q, lastCv := v, cvVl := w }) : OnlyLanes s u k :=
  ⟨by rw [hs], h.others, h.memory, h.cores, h.rest⟩

/-- What the head entry of a lane action does, whichever lane groups it claims. -/
theorem AtHead.lane_step {s : State} {k : Nat} {i : Instr} {e : Entry} (h : AtHead s k i e) {act : LaneAct}
    (hi : laneOf i (s.lenv k e) = some act) {sl : Slot} {step : MemStep}
    (hr : ∀ t : State, t.slot k = s.slot k → t.runLane k act = (t.setSlot k sl, step)) (t : State) (ht : LanesOnly s t) :
    t.issueHead k = (t.withLeave k e i (act.units (s.slot k).lane.vstart.toNat) (t.setSlot k sl, step)).map .ok := by
  have hsl := ht.slot k
  have hl : t.lenv k e = s.lenv k e := by rw [ht.rest]; rfl
  rw [State.issueHead_lane (h.ready ht) (by rw [hl]; exact hi), hr t hsl, hsl]

/-- An element-wise entry with elements left: one element group runs. -/
theorem exec_issue_elems {s : State} {k : Nat} {i : Instr} {e : Entry} (h : AtHead s k i e) (c : Fin 64)
    (hc : c.val = coreOf k) {g stop : Nat} {run : Nat → Nat → Lane}
    (hi : laneOf i (s.lenv k e) = some (.elems g stop run)) (hv : (s.slot k).lane.vstart.toNat < stop) :
    let vs := (s.slot k).lane.vstart.toNat
    let hi := min stop ((vs / g + 1) * g)
    ∃ u, exec (.issueOpportunity c) s = .next u ∧ OnlyLanes s u k ∧
      (u.slot k).lane = { run vs hi with vstart := if hi = stop then 0 else BitVec.ofNat 12 hi } ∧
      (hi = stop → (u.slot k).queue = (s.slot k).queue.tail) ∧
      (hi ≠ stop → ∃ n m, (u.slot k).queue = { e with leave := n, ahead := m } :: (s.slot k).queue.tail) := by
  intro vs hi'
  have hr : ∀ t : State, t.slot k = s.slot k → t.runLane k (.elems g stop run) =
      (t.setSlot k { s.slot k with lane := run vs hi' }, if hi' = stop then .done else .more hi') := by
    intro t ht
    simp only [State.runLane, State.setLane, State.modSlot, ht]
    rw [if_neg (by omega)]
  have hl := h.lane_step hi hr
  by_cases hs : hi' = stop
  · simp only [if_pos hs] at hl
    obtain ⟨u, n, m, hu, hslot, hf⟩ := exec_issue_begins h c hc _ _ _ hl rfl rfl rfl
    refine ⟨u, hu, hf.onlyLanes hslot, ?_, ?_, fun hn => absurd hs hn⟩
    · rw [hslot, if_pos hs]; rfl
    · intro _; rw [hslot]; rfl
  · simp only [if_neg hs] at hl
    obtain ⟨u, n, m, hu, hslot, hf⟩ := exec_issue_begins h c hc _ _ _ hl rfl rfl rfl
    refine ⟨u, hu, hf.onlyLanes hslot, ?_, fun hn => absurd hn hs, ?_⟩
    · rw [hslot, if_neg hs]; rfl
    · intro _; exact ⟨n, m, by rw [hslot]; rfl⟩

/-- An element-wise entry with nothing left: it retires. -/
theorem exec_issue_elems_none {s : State} {k : Nat} {i : Instr} {e : Entry} (h : AtHead s k i e) (c : Fin 64)
    (hc : c.val = coreOf k) {g stop : Nat} {run : Nat → Nat → Lane}
    (hi : laneOf i (s.lenv k e) = some (.elems g stop run)) (hv : stop ≤ (s.slot k).lane.vstart.toNat) :
    let vs := (s.slot k).lane.vstart.toNat
    ∃ u, exec (.issueOpportunity c) s = .next u ∧ OnlyLanes s u k ∧ (u.slot k).lane = { run vs vs with vstart := 0 } ∧
      (u.slot k).queue = (s.slot k).queue.tail := by
  intro vs
  have hl := h.lane_step (sl := { s.slot k with lane := run vs vs }) (step := .done) hi (by
    intro t ht
    simp only [State.runLane, State.setLane, State.modSlot, ht]
    rw [if_pos hv])
  obtain ⟨u, n, m, hu, hslot, hf⟩ := exec_issue_begins h c hc _ _ _ hl rfl rfl rfl
  exact ⟨u, hu, hf.onlyLanes hslot, by rw [hslot]; rfl, by rw [hslot]; rfl⟩

/-- An entry that completes at once. -/
theorem exec_issue_whole {s : State} {k : Nat} {i : Instr} {e : Entry} (h : AtHead s k i e) (c : Fin 64)
    (hc : c.val = coreOf k) {l : Lane} (hi : laneOf i (s.lenv k e) = some (.whole l)) :
    ∃ u, exec (.issueOpportunity c) s = .next u ∧ OnlyLanes s u k ∧ (u.slot k).lane = { l with vstart := 0 } ∧
      (u.slot k).queue = (s.slot k).queue.tail := by
  have hl := h.lane_step (sl := { s.slot k with lane := l }) (step := .done) hi (by
    intro t ht; simp only [State.runLane, State.setLane, State.modSlot, ht])
  obtain ⟨u, n, m, hu, hslot, hf⟩ := exec_issue_begins h c hc _ _ _ hl rfl rfl rfl
  exact ⟨u, hu, hf.onlyLanes hslot, by rw [hslot]; rfl, by rw [hslot]; rfl⟩

/-- A back-flow entry whose slice waits for x[d]: the value stands ready for it. -/
theorem exec_issue_back {s : State} {k : Nat} {i : Instr} {e : Entry} (h : AtHead s k i e) (c : Fin 64)
    (hc : c.val = coreOf k) {v : X64} {l : Lane} (hi : laneOf i (s.lenv k e) = some (.back v l)) {d : Nat}
    (hp : (s.slot k).phase = .pushed d) :
    ∃ u, exec (.issueOpportunity c) s = .next u ∧ IssueFrame s u k ∧
      u.slot k = { s.slot k with
        lane := { l with vstart := 0 }, phase := .value d v, queue := (s.slot k).queue.tail
        lastCv := if (s.slot k).queue.tail.isEmpty then none else (s.slot k).lastCv
        cvVl := if e.cvPos = 0 then l.vl else (s.slot k).cvVl } := by
  have hl := h.lane_step (sl := { s.slot k with lane := l, phase := .value d v }) (step := .done) hi (by
    intro t ht; simp [State.runLane, State.modSlot, hp, ht])
  obtain ⟨u, n, m, hu, hslot, hf⟩ := exec_issue_begins h c hc _ _ _ hl rfl rfl rfl
  exact ⟨u, hu, hf, by rw [hslot]; rfl⟩

end Sys2Proof.Machine
end

