-- ==== Sys2Proof/Laws/Lanes.lean ====
section
/-! SUPPORT. What is read from a register of the lanes after an element, a side byte, a mask bit or an accumulator element is
written, and what a run over the elements of a group leaves. -/

namespace Sys2Proof.Machine

/-! ### Bit fields -/

/-- The bits of a word after a field is replaced. -/
theorem testBit_setBits {n : Nat} (x : BitVec n) (lo w v : Nat) (h : lo + w ≤ n) (i : Nat) :
    (setBits x lo w v).toNat.testBit i = if lo ≤ i ∧ i < lo + w then v.testBit (i - lo) else x.toNat.testBit i := by
  have hx := x.isLt
  have hval : x.toNat - x.toNat / 2 ^ lo % 2 ^ w * 2 ^ lo + v % 2 ^ w * 2 ^ lo =
      2 ^ lo * (2 ^ w * (x.toNat / 2 ^ (lo + w)) + v % 2 ^ w) + x.toNat % 2 ^ lo := by
    have h1 := Nat.div_add_mod x.toNat (2 ^ lo)
    have h2 := Nat.div_add_mod (x.toNat / 2 ^ lo) (2 ^ w)
    rw [Nat.div_div_eq_div_mul, ← Nat.pow_add] at h2
    generalize hA : x.toNat / 2 ^ (lo + w) = A at *
    generalize hB : x.toNat / 2 ^ lo % 2 ^ w = B at *
    generalize hC : x.toNat / 2 ^ lo = C at *
    subst h2
    have : x.toNat = 2 ^ lo * (2 ^ w * A) + 2 ^ lo * B + x.toNat % 2 ^ lo := by rw [← Nat.mul_add]; exact h1.symm
    generalize x.toNat % 2 ^ lo = D at *
    rw [this, Nat.mul_comm B, Nat.mul_comm (v % 2 ^ w), Nat.mul_add]
    omega
  have hlow : x.toNat % 2 ^ lo < 2 ^ lo := Nat.mod_lt _ (Nat.two_pow_pos _)
  have hmid : v % 2 ^ w < 2 ^ w := Nat.mod_lt _ (Nat.two_pow_pos _)
  have hhi : x.toNat / 2 ^ (lo + w) < 2 ^ (n - (lo + w)) := by
    rw [Nat.div_lt_iff_lt_mul (Nat.two_pow_pos _), ← Nat.pow_add]
    rwa [Nat.sub_add_cancel h]
  have hlt : 2 ^ lo * (2 ^ w * (x.toNat / 2 ^ (lo + w)) + v % 2 ^ w) + x.toNat % 2 ^ lo < 2 ^ n := by
    have hn : 2 ^ n = 2 ^ lo * (2 ^ w * 2 ^ (n - (lo + w))) := by
      rw [← Nat.pow_add, ← Nat.pow_add]; congr 1; omega
    have h1 : 2 ^ w * (x.toNat / 2 ^ (lo + w)) + v % 2 ^ w < 2 ^ w * 2 ^ (n - (lo + w)) := by
      have := Nat.mul_le_mul_left (2 ^ w) (Nat.succ_le_of_lt hhi)
      rw [Nat.mul_succ] at this
      omega
    rw [hn]
    have := Nat.mul_le_mul_left (2 ^ lo) (Nat.succ_le_of_lt h1)
    rw [Nat.mul_succ] at this
    omega
  simp only [setBits, BitVec.toNat_ofNat]
  rw [hval, Nat.mod_eq_of_lt hlt, Nat.testBit_two_pow_mul_add _ hlow]
  by_cases h1 : i < lo
  · rw [if_pos h1, if_neg (by omega), Nat.testBit_mod_two_pow]; simp [h1]
  · rw [if_neg h1, Nat.testBit_two_pow_mul_add _ hmid]
    by_cases h2 : i - lo < w
    · rw [if_pos h2, if_pos (by omega), Nat.testBit_mod_two_pow]; simp [h2]
    · rw [if_neg h2, if_neg (by omega), Nat.testBit_div_two_pow]
      congr 1; omega

/-- A field read after the same field is written. -/
theorem field_setBits_same {n : Nat} (x : BitVec n) (lo w v : Nat) (h : lo + w ≤ n) :
    (setBits x lo w v).toNat / 2 ^ lo % 2 ^ w = v % 2 ^ w := by
  apply Nat.eq_of_testBit_eq
  intro i
  rw [Nat.testBit_mod_two_pow, Nat.testBit_mod_two_pow, Nat.testBit_div_two_pow, testBit_setBits x lo w v h]
  by_cases hi : i < w
  · rw [if_pos (by omega)]; congr 2; omega
  · simp [hi]

/-- A field read after another, disjoint field is written. -/
theorem field_setBits_ne {n : Nat} (x : BitVec n) (lo w v lo' w' : Nat) (h : lo + w ≤ n)
    (hd : lo' + w' ≤ lo ∨ lo + w ≤ lo') :
    (setBits x lo w v).toNat / 2 ^ lo' % 2 ^ w' = x.toNat / 2 ^ lo' % 2 ^ w' := by
  apply Nat.eq_of_testBit_eq
  intro i
  rw [Nat.testBit_mod_two_pow, Nat.testBit_mod_two_pow, Nat.testBit_div_two_pow, Nat.testBit_div_two_pow,
    testBit_setBits x lo w v h]
  by_cases hi : i < w'
  · rw [if_neg (by omega)]
  · simp [hi]

theorem getLsbD_setBits {n : Nat} (x : BitVec n) (p : Nat) (v : Bool) (h : p < n) (i : Nat) :
    (setBits x p 1 (b2n v)).getLsbD i = if i = p then v else x.getLsbD i := by
  rw [BitVec.getLsbD, testBit_setBits x p 1 _ (by omega)]
  by_cases hi : i = p
  · subst hi; cases v <;> simp [b2n]
  · rw [if_neg (by omega), if_neg hi]; rfl

/-! ### Elements of a register -/

theorem Lane.rd_setSide (l : Lane) (r j s r' w e : Nat) : (l.setSide r j s).rd r' w e = l.rd r' w e := by
  simp only [Lane.rd, Lane.setSide, vat_setIfInBounds_eq]
  split
  · rename_i h; rw [h.1]
  · rfl

theorem Lane.side_setData (l : Lane) (r w e x r' j : Nat) : (l.setData r w e x).side r' j = l.side r' j := by
  simp only [Lane.side, Lane.setData, Lane.touchV, vat_setIfInBounds_eq]
  split
  · rename_i h; rw [h.1]
  · rfl

/-- An element read after an element of the same width is written. -/
theorem Lane.rd_setData (l : Lane) {r w e : Nat} (x r' e' : Nat) (hr : r < 32) (hw : w * e + w ≤ 16384) :
    (l.setData r w e x).rd r' w e' = if r' = r ∧ e' = e then x % 2 ^ w else l.rd r' w e' := by
  simp only [Lane.rd, Lane.setData, Lane.touchV, vat_setIfInBounds_eq]
  by_cases h : r' = r
  · subst h
    simp only [hr, and_self, if_true, true_and]
    by_cases he : e' = e
    · subst he; rw [if_pos rfl]; exact field_setBits_same _ _ _ _ hw
    · rw [if_neg he]
      refine field_setBits_ne _ _ _ _ _ _ hw ?_
      rcases Nat.lt_or_gt_of_ne he with h | h
      · left; have := Nat.mul_le_mul_left w (show e' + 1 ≤ e from h); rw [Nat.mul_add, Nat.mul_one] at this; exact this
      · right; have := Nat.mul_le_mul_left w (show e + 1 ≤ e' from h); rw [Nat.mul_add, Nat.mul_one] at this; exact this
  · simp [h]

theorem Lane.rd_wr (l : Lane) {r w e : Nat} (x r' e' : Nat) (hr : r < 32) (hw : w * e + w ≤ 16384) :
    (l.wr r w e x).rd r' w e' = if r' = r ∧ e' = e then x % 2 ^ w else l.rd r' w e' := by
  rw [Lane.wr, Lane.rd_setSide, Lane.rd_setData l x r' e' hr hw]

/-- A side byte read after another is set. -/
theorem Lane.side_setSide (l : Lane) {r q v : Nat} (r' q' : Nat) (hr : r < 32) (hq : q < 256) (hv : v < 256) (hq' : q' < 256) :
    (l.setSide r q v).side r' q' = if r' = r ∧ q' = q then v else l.side r' q' := by
  simp only [Lane.side, Lane.setSide, vat_setIfInBounds_eq]
  by_cases h : r' = r
  · subst h
    simp only [hr, and_self, if_true, true_and]
    by_cases he : q' = q
    · subst he; rw [if_pos rfl]
      exact (field_setBits_same (vat l.v r' VReg.reset).side (8 * q') 8 v (by omega)).trans (Nat.mod_eq_of_lt hv)
    · rw [if_neg he]
      exact field_setBits_ne _ _ _ _ _ 8 (by omega) (by omega)
  · simp [h]

theorem Lane.rd_setSides (l : Lane) (r v : Nat) (qs : List Nat) (r' w e : Nat) :
    (qs.foldl (fun l q => l.setSide r q v) l).rd r' w e = l.rd r' w e := by
  induction qs generalizing l with
  | nil => rfl
  | cons q t ih => rw [List.foldl_cons, ih, Lane.rd_setSide]

theorem Lane.side_setSides (l : Lane) {r v : Nat} (qs : List Nat) (r' q' : Nat) (hr : r < 32) (hqs : ∀ q ∈ qs, q < 256)
    (hv : v < 256) (hq' : q' < 256) :
    (qs.foldl (fun l q => l.setSide r q v) l).side r' q' = if r' = r ∧ q' ∈ qs then v else l.side r' q' := by
  induction qs generalizing l with
  | nil => simp
  | cons q t ih =>
    rw [List.foldl_cons, ih _ (fun x hx => hqs x (by simp [hx])), Lane.side_setSide l r' q' hr (hqs q (by simp)) hv hq']
    by_cases h1 : r' = r ∧ q' ∈ t
    · simp [h1]
    · by_cases h2 : q' = q
      · subst h2; by_cases h3 : r' = r <;> simp [h3]
      · rw [if_neg h1]; simp [h2, h1]

/-! ### A run over the active elements -/

/-- One element of a rule, from the lanes as they stand. -/
def ElemRule.at (r : ElemRule) (n : LEnv) (acc : Lane) (e : Nat) : Lane :=
  let x := r.elem n e { mode := r.mode n.l, seed := acc.srseed, flags := acc.flags }
  { (r.lanes (r.pos n e)).foldl (fun l q => l.setSide (r.reg n e) q r.mark) (acc.setData (r.reg n e) r.w (r.pos n e) x.1) with
    srseed := x.2.seed, flags := x.2.flags }

theorem Lane.setSides_eq (l : Lane) (r v : Nat) (qs : List Nat) :
    qs.foldl (fun l q => l.setSide r q v) l = { l with v := (qs.foldl (fun l q => l.setSide r q v) l).v } := by
  induction qs generalizing l with
  | nil => rfl
  | cons q t ih => rw [List.foldl_cons, ih]; rfl

/-- Only the registers, the flags, the generator and the dirty bits of the lanes differ. -/
def Lane.Near (l l' : Lane) : Prop :=
  l' = { l with v := l'.v, flags := l'.flags, srseed := l'.srseed, vdirty := l'.vdirty, vext := l'.vext, vstart := l'.vstart }

theorem Lane.near_at (r : ElemRule) (n : LEnv) (l acc : Lane) (e : Nat) (h : l.Near acc) : l.Near (r.at n acc e) := by
  unfold Lane.Near at *
  simp only [ElemRule.at]
  have h2 := Lane.setSides_eq (acc.setData (r.reg n e) r.w (r.pos n e)
    (r.elem n e { mode := r.mode n.l, seed := acc.srseed, flags := acc.flags }).1) (r.reg n e) r.mark (r.lanes (r.pos n e))
  generalize (r.lanes (r.pos n e)).foldl (fun (l : Lane) q => l.setSide (r.reg n e) q r.mark) _ = L at h2 ⊢
  rw [h2, h]
  rfl

/-- The places of a rule's elements in [lo, hi): inside the register file, and no two alike. -/
structure ElemRule.Places (r : ElemRule) (n : LEnv) (lo hi : Nat) : Prop where
  width : 0 < r.w
  reg : ∀ e, lo ≤ e → e < hi → r.reg n e < 32
  pos : ∀ e, lo ≤ e → e < hi → r.w * r.pos n e + r.w ≤ 16384
  lanes : ∀ e, lo ≤ e → e < hi → ∀ q ∈ r.lanes (r.pos n e), q < 256
  mark : r.mark < 256
  inj : ∀ e f, lo ≤ e → e < hi → lo ≤ f → f < hi → r.reg n e = r.reg n f → r.pos n e = r.pos n f → e = f

/-- What VDIRTY and VEXT show when nothing was written. -/
theorem Marks.refl (w : Nat) {hit : Nat → Nat → Prop} (l : Lane) (h : ∀ j p, ¬ hit j p) : Marks w hit l l :=
  ⟨fun j p hp => absurd hp (h j p), fun _ _ => rfl, .inl rfl⟩

/-- VDIRTY and VEXT depend only on the places that were written. -/
theorem Marks.congr {w : Nat} {hit hit' : Nat → Nat → Prop} {l l' : Lane} (h : Marks w hit l l')
    (hh : ∀ j p, hit' j p ↔ hit j p) : Marks w hit' l l' := by
  have : hit' = hit := by funext j p; exact propext (hh j p)
  rwa [this]

/-- One more place written. -/
theorem Marks.touch {w : Nat} {hit hit' : Nat → Nat → Prop} {l acc acc' : Lane} (h : Marks w hit l acc) {d m : Nat} (hd : d < 32)
    (hm : w * m + w ≤ 16384) (hw : 0 < w) (hv : acc'.vdirty = (acc.touchV d (w * m + w - 1)).vdirty)
    (hx : acc'.vext = (acc.touchV d (w * m + w - 1)).vext) (hh : ∀ j p, hit' j p ↔ hit j p ∨ (j = d ∧ p = m)) :
    Marks w hit' l acc' := by
  have hb : (w * m + w - 1) / 512 + 1 < 64 := by omega
  have hx' : acc'.vext.toNat = max acc.vext.toNat ((w * m + w - 1) / 512 + 1) := by
    rw [hx]; simp only [Lane.touchV]
    split
    · rw [BitVec.toNat_ofNat, Nat.mod_eq_of_lt (by omega)]; omega
    · omega
  have hv' : ∀ j, acc'.vdirty.getLsbD j = if j = d then true else acc.vdirty.getLsbD j := fun j => by
    rw [hv]; exact getLsbD_setBits acc.vdirty d true hd j
  refine ⟨fun j p hp => ?_, fun j hj => ?_, ?_⟩
  · rw [hv', hx']
    rcases (hh j p).1 hp with h' | ⟨rfl, rfl⟩
    · have := h.written j p h'
      exact ⟨by rw [this.1]; simp, by omega⟩
    · exact ⟨by simp, by omega⟩
  · have hne : j ≠ d := fun e => hj m ((hh j m).2 (.inr ⟨e, rfl⟩))
    rw [hv', if_neg hne]
    exact h.untouched j fun p hp => hj p ((hh j p).2 (.inl hp))
  · by_cases hc : acc.vext.toNat < (w * m + w - 1) / 512 + 1
    · right
      have h1 : l.vext.toNat ≤ acc.vext.toNat := by
        rcases h.extent with h' | h'
        · exact Nat.le_of_eq (congrArg BitVec.toNat h'.symm)
        · exact Nat.le_of_lt h'.1
      exact ⟨by omega, d, m, (hh d m).2 (.inr ⟨rfl, rfl⟩), by omega⟩
    · have h1 : acc'.vext = acc.vext := by apply BitVec.eq_of_toNat_eq; omega
      rw [h1]
      rcases h.extent with h' | ⟨h2, j, p, h3, h4⟩
      · exact .inl h'
      · exact .inr ⟨h2, j, p, (hh j p).2 (.inl h3), h4⟩

/-- The lanes after the active elements of [lo, lo + m). -/
theorem Elements.fold (r : ElemRule) (n : LEnv) (lo m : Nat) (hp : r.Places n lo (lo + m)) :
    ∃ seed flags, Elements r n
      ((List.range' lo m).foldl (fun acc e => if n.l.gov e then r.at n acc e else acc) n.l) lo (lo + m) seed flags := by
  induction m with
  | zero =>
    exact ⟨fun _ => n.l.srseed, fun _ => n.l.flags,
      ⟨⟨rfl, rfl⟩, fun e h1 h2 => absurd h2 (by omega), fun e h1 h2 => absurd h2 (by omega), fun _ _ _ => rfl,
        fun e h1 h2 => absurd h2 (by omega), fun _ _ _ _ => rfl, ⟨rfl, rfl⟩,
        Marks.refl _ _ (fun _ _ h => by obtain ⟨e, h1, h2, _⟩ := h; omega), rfl⟩⟩
  | succ m ih =>
    obtain ⟨seed, flags, ih⟩ := ih ⟨hp.width, fun e a b => hp.reg e a (by omega), fun e a b => hp.pos e a (by omega),
      fun e a b => hp.lanes e a (by omega), hp.mark,
      fun e f a b c d => hp.inj e f a (by omega) c (by omega)⟩
    have hd := hp.reg (lo + m) (by omega) (by omega)
    have hm := hp.pos (lo + m) (by omega) (by omega)
    have hl := hp.lanes (lo + m) (by omega) (by omega)
    rw [List.range'_1_concat, List.foldl_append]
    generalize (List.range' lo m).foldl (fun acc e => if n.l.gov e then r.at n acc e else acc) n.l = acc at ih
    simp only [List.foldl_cons, List.foldl_nil]
    have up : ∀ e j p, r.hits n lo (lo + m) e j p → r.hits n lo (lo + (m + 1)) e j p :=
      fun e j p h => ⟨h.1, by have := h.2.1; omega, h.2.2⟩
    by_cases hg : n.l.gov (lo + m) = true
    · rw [if_pos hg]
      let x := r.elem n (lo + m) { mode := r.mode n.l, seed := seed (lo + m), flags := flags (lo + m) }
      have hx : r.at n acc (lo + m) =
          { (r.lanes (r.pos n (lo + m))).foldl (fun l q => l.setSide (r.reg n (lo + m)) q r.mark)
              (acc.setData (r.reg n (lo + m)) r.w (r.pos n (lo + m)) x.1) with
            srseed := x.2.seed, flags := x.2.flags } := by
        simp only [ElemRule.at, x, ih.finish.1, ih.finish.2]
      have rd' : ∀ j p, (r.at n acc (lo + m)).rd j r.w p =
          if j = r.reg n (lo + m) ∧ p = r.pos n (lo + m) then x.1 % 2 ^ r.w else acc.rd j r.w p := by
        intro j p
        rw [hx]
        exact (Lane.rd_setSides _ _ _ _ _ _ _).trans (Lane.rd_setData acc x.1 j p hd hm)
      have side' : ∀ j q, q < 256 → (r.at n acc (lo + m)).side j q =
          if j = r.reg n (lo + m) ∧ q ∈ r.lanes (r.pos n (lo + m)) then r.mark else acc.side j q := by
        intro j q hq
        rw [hx]
        refine (Lane.side_setSides _ _ j q hd hl hp.mark hq).trans ?_
        rw [Lane.side_setData]
      refine ⟨fun i => if i = lo + m + 1 then x.2.seed else seed i, fun i => if i = lo + m + 1 then x.2.flags else flags i,
        ⟨?_, ?_, ?_, ?_, ?_, ?_, ?_, ?_, ?_⟩⟩
      · simp only [if_neg (show ¬ lo = lo + m + 1 by omega)]; exact ih.start
      · intro e h1 h2 h3
        by_cases he : e = lo + m
        · subst he
          refine ⟨?_, ?_, ?_⟩
          · rw [rd', if_pos ⟨rfl, rfl⟩]
            simp only [if_neg (show ¬ lo + m = lo + m + 1 by omega), x]
          · simp only [if_neg (show ¬ lo + m = lo + m + 1 by omega), if_true, x]
          · simp only [if_neg (show ¬ lo + m = lo + m + 1 by omega), if_true, x]
        · have := ih.active e h1 (by omega) h3
          simp only [if_neg (show ¬ e = lo + m + 1 by omega), if_neg (show ¬ e + 1 = lo + m + 1 by omega)]
          rw [rd', if_neg (fun h => he (hp.inj e (lo + m) h1 h2 (by omega) (by omega) h.1 h.2))]
          exact this
      · intro e h1 h2 h3
        have he : e ≠ lo + m := by rintro rfl; rw [hg] at h3; cases h3
        have := ih.inactive e h1 (by omega) h3
        simp only [if_neg (show ¬ e = lo + m + 1 by omega), if_neg (show ¬ e + 1 = lo + m + 1 by omega)]
        exact this
      · intro j p hall
        rw [rd', if_neg (fun h => hall (lo + m) ⟨by omega, by omega, hg, h.1.symm, h.2.symm⟩)]
        exact ih.elsewhere j p fun e h => hall e (up e j p h)
      · intro e h1 h2 h3 q hq
        rw [side' _ _ (hp.lanes e h1 h2 q hq)]
        split
        · rfl
        · rename_i hne
          by_cases he : e = lo + m
          · subst he; exact absurd ⟨rfl, hq⟩ hne
          · exact ih.marked e h1 (by omega) h3 q hq
      · intro j q hq hall
        rw [side' j q hq, if_neg (fun h => hall (lo + m) _ h.2 ⟨by omega, by omega, hg, h.1.symm, rfl⟩)]
        exact ih.kept j q hq fun e p hpq h => hall e p hpq (up e j p h)
      · simp only [hx, ← Nat.add_assoc, if_true]; exact ⟨trivial, trivial⟩
      · refine ih.marks.touch hd hm hp.width ?_ ?_ fun j p => ⟨?_, ?_⟩
        · rw [hx]; exact (congrArg Lane.vdirty (Lane.setSides_eq (acc.setData (r.reg n (lo + m)) r.w (r.pos n (lo + m)) x.1) _ _ _) :)
        · rw [hx]; exact (congrArg Lane.vext (Lane.setSides_eq (acc.setData (r.reg n (lo + m)) r.w (r.pos n (lo + m)) x.1) _ _ _) :)
        · rintro ⟨e, h1, h2, h3⟩
          by_cases he : e = lo + m
          · subst he; exact .inr ⟨h3.2.1.symm, h3.2.2.symm⟩
          · exact .inl ⟨e, h1, by omega, h3⟩
        · rintro (⟨e, h⟩ | ⟨rfl, rfl⟩)
          · exact ⟨e, up e j p h⟩
          · exact ⟨lo + m, by omega, by omega, hg, rfl, rfl⟩
      · exact Lane.near_at r n n.l acc (lo + m) ih.rest
    · rw [if_neg hg]
      refine ⟨fun i => if i = lo + m + 1 then seed (lo + m) else seed i,
        fun i => if i = lo + m + 1 then flags (lo + m) else flags i, ⟨?_, ?_, ?_, ?_, ?_, ?_, ?_, ?_, ih.rest⟩⟩
      · simp only [if_neg (show ¬ lo = lo + m + 1 by omega)]; exact ih.start
      · intro e h1 h2 h3
        have he : e ≠ lo + m := by rintro rfl; exact hg h3
        have := ih.active e h1 (by omega) h3
        simp only [if_neg (show ¬ e = lo + m + 1 by omega), if_neg (show ¬ e + 1 = lo + m + 1 by omega)]
        exact this
      · intro e h1 h2 h3
        by_cases he : e = lo + m
        · subst he
          simp only [if_neg (show ¬ lo + m = lo + m + 1 by omega), if_true]
          exact ⟨trivial, trivial⟩
        · have := ih.inactive e h1 (by omega) h3
          simp only [if_neg (show ¬ e = lo + m + 1 by omega), if_neg (show ¬ e + 1 = lo + m + 1 by omega)]
          exact this
      · intro j p hall
        exact ih.elsewhere j p fun e h => hall e (up e j p h)
      · intro e h1 h2 h3
        by_cases he : e = lo + m
        · subst he; exact absurd h3 hg
        · exact ih.marked e h1 (by omega) h3
      · intro j q hq hall
        exact ih.kept j q hq fun e p hpq h => hall e p hpq (up e j p h)
      · simp only [← Nat.add_assoc, if_true]; exact ih.finish
      · refine ih.marks.congr fun j p => ⟨?_, fun ⟨e, h⟩ => ⟨e, up e j p h⟩⟩
        rintro ⟨e, h1, h2, h3⟩
        have he : e ≠ lo + m := by rintro rfl; exact hg h3.1
        exact ⟨e, h1, by omega, h3⟩

/-- The run of an element-wise entry. -/
theorem Elements.overActive (r : ElemRule) (n : LEnv) (f : Lane → Nat → Lane) (hf : ∀ acc e, f acc e = r.at n acc e)
    (lo hi : Nat) (hl : lo ≤ hi) (hp : r.Places n lo hi) :
    ∃ seed flags, Elements r n (n.overActive f lo hi) lo hi seed flags := by
  have h := Elements.fold r n lo (hi - lo) (by rw [Nat.add_sub_cancel' hl]; exact hp)
  rw [Nat.add_sub_cancel' hl] at h
  have : f = r.at n := by funext a e; exact hf a e
  rw [this]
  exact h

end Sys2Proof.Machine
end

