-- ==== Sys2Proof/Laws/Memory.lean ====
section
/-! SUPPORT. Memory as a canonical list of cells: what is read after a write, and that every operation over physical memory
keeps the canonical form. -/

namespace Sys2Proof.Machine

/-! ### Reads after writes -/

theorem alookup_aerase_same {α : Type} (d : α) (l : List (Nat × α)) (k : Nat) : alookup d (aerase l k) k = d := by
  induction l with
  | nil => rfl
  | cons p t ih =>
    simp only [aerase]
    split
    · exact ih
    · rename_i h; simp [alookup, h, ih]

theorem alookup_aerase_ne {α : Type} (d : α) (l : List (Nat × α)) {k j : Nat} (h : j ≠ k) :
    alookup d (aerase l k) j = alookup d l j := by
  induction l with
  | nil => rfl
  | cons p t ih =>
    simp only [aerase]
    split
    · rename_i hk; simp [alookup, hk, Ne.symm h, ih]
    · simp only [alookup]; split <;> simp [*]

/-- A byte reads as it was last written. -/
@[simp] theorem Memory.read_write_same (m : List Host.Cell) (a : Nat) (b : Byte) :
    Memory.read (Memory.write m a b) a = b := by
  unfold Memory.read Memory.write
  split
  · rename_i h; rw [alookup_aerase_same, h]
  · simp

/-- A write leaves every other byte alone. -/
theorem Memory.read_write_ne (m : List Host.Cell) {a c : Nat} (b : Byte) (h : c ≠ a) :
    Memory.read (Memory.write m a b) c = Memory.read m c := by
  unfold Memory.read Memory.write
  split
  · exact alookup_aerase_ne _ _ h
  · exact alookup_ainsert_ne _ _ _ h

/-! ### The canonical form -/

theorem Memory.wfFrom_mono {m : List Host.Cell} {lo lo' : Nat} (h : Memory.wfFrom lo m = true) (hl : lo' ≤ lo) :
    Memory.wfFrom lo' m = true := by
  cases m with
  | nil => rfl
  | cons p t =>
    simp only [Memory.wfFrom, Bool.and_eq_true, decide_eq_true_eq] at h ⊢
    exact ⟨⟨Nat.le_trans hl h.1.1, h.1.2⟩, h.2⟩

theorem Memory.wfFrom_aerase {m : List Host.Cell} {lo : Nat} (a : Nat) (h : Memory.wfFrom lo m = true) :
    Memory.wfFrom lo (aerase m a) = true := by
  induction m generalizing lo with
  | nil => rfl
  | cons p t ih =>
    simp only [Memory.wfFrom, Bool.and_eq_true, decide_eq_true_eq] at h
    simp only [aerase]
    split
    · exact Memory.wfFrom_mono (ih h.2) (Nat.le_succ_of_le h.1.1)
    · simp only [Memory.wfFrom, Bool.and_eq_true, decide_eq_true_eq]
      exact ⟨h.1, ih h.2⟩

theorem Memory.wfFrom_ainsert {m : List Host.Cell} {lo a : Nat} {b : Byte} (hb : b ≠ unlisted) (ha : lo ≤ a)
    (h : Memory.wfFrom lo m = true) : Memory.wfFrom lo (ainsert m a b) = true := by
  induction m generalizing lo with
  | nil => simp [ainsert, Memory.wfFrom, hb, ha]
  | cons p t ih =>
    have h' := h
    simp only [Memory.wfFrom, Bool.and_eq_true, decide_eq_true_eq] at h
    simp only [ainsert]
    split
    · rename_i hlt
      simp only [Memory.wfFrom, Bool.and_eq_true, decide_eq_true_eq]
      exact ⟨⟨ha, hb⟩, ⟨hlt, h.1.2⟩, h.2⟩
    · split
      · rename_i heq
        subst heq
        simp only [Memory.wfFrom, Bool.and_eq_true, decide_eq_true_eq]
        exact ⟨⟨ha, hb⟩, h.2⟩
      · rename_i h1 h2
        simp only [Memory.wfFrom, Bool.and_eq_true, decide_eq_true_eq]
        exact ⟨h.1, ih (by omega) h.2⟩

/-- A store keeps the canonical form. -/
theorem Memory.wf_write {m : List Host.Cell} (a : Nat) (b : Byte) (h : Memory.wf m = true) :
    Memory.wf (Memory.write m a b) = true := by
  unfold Memory.write
  split
  · exact Memory.wfFrom_aerase a h
  · rename_i hb; exact Memory.wfFrom_ainsert hb (Nat.zero_le a) h

/-- A run of stores keeps the canonical form. -/
theorem Memory.wf_foldl {β : Type} (l : List β) (a : β → Nat) (b : β → Byte) {m : List Host.Cell} (h : Memory.wf m = true) :
    Memory.wf (l.foldl (fun m x => Memory.write m (a x) (b x)) m) = true := by
  induction l generalizing m with
  | nil => exact h
  | cons x t ih => exact ih (Memory.wf_write _ _ h)

/-- Whatever holds before a fold and is kept by each of its steps holds after it. -/
theorem foldl_keeps {α β : Type} (p : α → Prop) (l : List β) (f : α → β → α) (hf : ∀ a b, p a → p (f a b)) (a : α) (h : p a) :
    p (l.foldl f a) := by
  induction l generalizing a with
  | nil => exact h
  | cons x t ih => exact ih _ (hf _ _ h)

/-! ### The operations over physical memory -/

theorem State.wf_flushLine {s : State} (line : Nat) (h : Memory.wf s.mem = true) : Memory.wf (s.flushLine line).mem = true := by
  unfold State.flushLine
  exact foldl_keeps (fun m => Memory.wf m = true) _ _ (fun m c hm => Memory.wf_foldl _ _ _ hm) _ h

theorem State.wf_flushCore {s : State} (c : Nat) (h : Memory.wf s.mem = true) : Memory.wf (s.flushCore c).mem = true := by
  unfold State.flushCore
  exact Memory.wf_foldl _ _ _ h

/-- A record leaves memory alone until it is stored. -/
theorem State.noteRecord_mem (s : State) (cls unit : Nat) (pa detail : X64) : (s.noteRecord cls unit pa detail).1.mem = s.mem := by
  simp only [State.noteRecord]
  split <;> rfl

theorem State.wf_putByte {s : State} (a : Nat) (b : Byte) (h : Memory.wf s.mem = true) : Memory.wf (s.putByte a b).mem = true := by
  unfold State.putByte
  split
  · exact h
  · exact Memory.wf_write _ _ h

theorem State.wf_putLine {s : State} (a : Nat) (l : List Byte) (h : Memory.wf s.mem = true) : Memory.wf (s.putLine a l).mem = true := by
  unfold State.putLine
  split
  · exact foldl_keeps (fun s : State => Memory.wf s.mem = true) _ _ (fun s x hs => State.wf_putByte _ _ hs) _ h
  · exact foldl_keeps (fun s : State => Memory.wf s.mem = true) _ _ (fun s x hs => State.wf_putByte _ _ hs) _ h
  · exact h
  · exact h

theorem State.wf_copyLine {s : State} (f : Fwd) (o n : Nat) (h : Memory.wf s.mem = true) :
    Memory.wf (s.copyLine f o n).mem = true := by
  unfold State.copyLine
  generalize List.range 128 = l
  split
  · exact foldl_keeps (fun m => Memory.wf m = true) l _ (fun m c hm => Memory.wf_write _ _ hm) _ h
  · exact State.wf_putLine _ _ h

theorem State.copyPoison_mem (s : State) (op o n : Nat) : (s.copyPoison op o n).mem = s.mem := by
  simp only [State.copyPoison]
  split <;> rw [State.noteRecord_mem]

/-- The copy of a line keeps the canonical form; the store of its record is a later move (R242). -/
theorem State.wf_moveLine {s : State} (f : Fwd) (i a : Nat) (h : Memory.wf s.mem = true) :
    Memory.wf (s.moveLine f i a).mem = true := by
  unfold State.moveLine
  have h1 := State.wf_copyLine f (s.home (f.old * 65536 + 128 * i) / 128) (a / 128)
    (State.wf_flushLine (a / 128) (State.wf_flushLine (s.home (f.old * 65536 + 128 * i) / 128) h))
  dsimp only
  generalize State.copyLine _ _ _ _ = t at h1 ⊢
  split
  · rw [State.copyPoison_mem]; exact h1
  · exact h1

theorem State.wf_forWriteIn (n : Nat) {s : State} (pa : Nat) (h : Memory.wf s.mem = true) :
    Memory.wf (State.forWriteIn n s pa).1.mem = true := by
  induction n generalizing pa with
  | zero => exact h
  | succ n ih =>
    unfold State.forWriteIn
    split
    · exact h
    · dsimp only
      split
      · exact ih _
      · exact State.wf_moveLine _ _ _ (ih _)

theorem State.wf_forWrite {s : State} (pa : Nat) (h : Memory.wf s.mem = true) : Memory.wf (s.forWrite pa).1.mem = true :=
  State.wf_forWriteIn _ _ h

theorem State.wf_mergeDirty {s : State} (a : Nat) (h : Memory.wf s.mem = true) : Memory.wf (s.mergeDirty a).mem = true := by
  unfold State.mergeDirty
  split
  · exact State.wf_flushLine _ h
  · exact h

theorem State.wf_writeHome {s : State} (pa : Nat) (b : List Byte) (h : Memory.wf s.mem = true) :
    Memory.wf (s.writeHome pa b).mem = true := by
  unfold State.writeHome
  refine foldl_keeps (fun s : State => Memory.wf s.mem = true) _ _ (fun s x hs => State.wf_mergeDirty _ hs) _ ?_
  exact foldl_keeps (fun s : State => Memory.wf s.mem = true) _ _ (fun s x hs => Memory.wf_write _ _ (State.wf_forWrite _ hs)) _ h

theorem State.wf_writeOver {s : State} (pa : Nat) (b : List Byte) (h : Memory.wf s.mem = true) :
    Memory.wf (s.writeOver pa b).mem = true := by
  unfold State.writeOver
  refine foldl_keeps (fun s : State => Memory.wf s.mem = true) _ _ (fun s x hs => ?_) _ h
  dsimp only
  split
  · exact Memory.wf_write _ _ (State.wf_flushLine _ (State.wf_forWrite _ hs))
  · exact State.wf_putByte _ _ (State.wf_flushLine _ (State.wf_forWrite _ hs))

theorem State.wf_sysStore {s : State} (pa : Nat) (b : List Byte) (h : Memory.wf s.mem = true) :
    Memory.wf (s.sysStore pa b).mem = true := by
  unfold State.sysStore
  split
  · exact h
  · exact State.wf_writeOver _ _ h

/-- A record or a dump keeps the canonical form, stored or held. -/
theorem State.wf_putPhys {s : State} (pa : Nat) (b : List Byte) (h : Memory.wf s.mem = true) :
    Memory.wf (s.putPhys pa b).mem = true := by
  unfold State.putPhys
  split
  · exact State.wf_sysStore _ _ h
  · exact h
  · exact h

theorem State.wf_addRecord {s : State} (cls unit : Nat) (pa detail : X64) (h : Memory.wf s.mem = true) :
    Memory.wf (s.addRecord cls unit pa detail).mem = true := by
  simp only [State.addRecord]
  split
  · exact State.wf_putPhys _ _ (by rw [State.noteRecord_mem]; exact h)
  · rw [State.noteRecord_mem]; exact h

theorem State.wf_trace {s : State} (k kind : Nat) (a b c : X64) (h : Memory.wf s.mem = true) :
    Memory.wf (s.trace k kind a b c).mem = true := by
  simp only [State.trace]
  split
  · exact h
  · exact State.wf_putPhys (s := { s with free := s.free + 1 }) _ _ h

/-- Laying dirty scalar bytes over a group's stores keeps the canonical form. -/
theorem State.wf_keepDirty (s : State) {t : State} (h : Memory.wf t.mem = true) : Memory.wf (s.keepDirty t).mem = true := by
  unfold State.keepDirty
  refine foldl_keeps (fun m => Memory.wf m = true) _ _ (fun m c hm => ?_) _ h
  refine foldl_keeps (fun m => Memory.wf m = true) _ _ (fun m x hm => ?_) _ hm
  split
  · exact Memory.wf_write _ _ hm
  · exact hm

theorem State.wf_evictLine {s : State} (c line : Nat) (h : Memory.wf s.mem = true) : Memory.wf (s.evictLine c line).mem = true := by
  unfold State.evictLine
  exact Memory.wf_foldl _ _ _ h

theorem State.wf_l1Room {s : State} (c a : Nat) (h : Memory.wf s.mem = true) : Memory.wf (s.l1Room c a).mem = true := by
  unfold State.l1Room
  dsimp only
  split
  · exact h
  · exact State.wf_evictLine _ _ h

theorem State.wf_writeScalar {s : State} (c pa : Nat) (b : List Byte) (h : Memory.wf s.mem = true) :
    Memory.wf (s.writeScalar c pa b).mem = true := by
  unfold State.writeScalar
  refine foldl_keeps (fun s : State => Memory.wf s.mem = true) _ _ (fun s x hs => ?_) _ h
  exact State.wf_l1Room c (s.forWrite (pa + x.2)).2 (State.wf_forWrite (pa + x.2) hs)

theorem State.wf_lockLine {s : State} (pa : Nat) (h : Memory.wf s.mem = true) : Memory.wf (s.lockLine pa).mem = true := by
  unfold State.lockLine
  exact State.wf_flushLine _ (State.wf_forWrite _ h)

end Sys2Proof.Machine
end

