-- ==== Sys2Proof/Laws/Translate.lean ====
section
/-! SUPPORT. What a translation through a table gives (R239, R240): the place under the leaf that the core's TLB holds, or that a
walk finds, when its permissions allow the access. -/

namespace Sys2Proof.Machine

/-- An address whose page has a plain leaf (level, e) translates to its place, in the state that the look-up leaves. -/
theorem State.translate_leaf {s u : State} {core align level : Nat} {pt va e : X64} {priv : Bool} {acc : Acc}
    (ha : va.toNat % align = 0) (hv : va.toNat < 2 ^ 57) (hen : rootEn pt = true) (hd : s.svc.offParts = [])
    (hu : u.svc = s.svc) (hl : s.leafOf core pt va.toNat = .ok (u, some (level, e))) (hm : pteMark e = false)
    (hp : permFault e priv acc (decide (core < 64) && (leafTarget level e va.toNat).onWindow && !pteWindow e)
      (leafTarget level e va.toNat).onHost = none) (hq : s.poison = []) :
    s.translate core pt priv acc align va = .ok (u, .ok (leafTarget level e va.toNat) va 0 none) := by
  have hh : ∀ t, u.hold t = t := by
    intro t
    cases t with
    | loc pa => simp only [State.hold, State.stackHeld, hu, hd, List.filter_nil, List.any_nil, Bool.false_eq_true, if_false]
    | far => rfl
    | held => rfl
  have hs : s.leafHeld core pt va.toNat = false := by simp only [State.leafHeld, hd, List.any_nil, Bool.false_and]
  have hx : s.leafPoison core pt va.toNat = false := by
    simp only [State.leafPoison, hq, List.isEmpty_nil, Bool.not_true, Bool.false_and]
  unfold State.translate
  rw [if_neg (not_not_intro ha)]
  unfold State.xlatFrom
  rw [if_neg (Nat.not_le.mpr hv), if_neg (by rw [hen]; decide), if_neg (by rw [hs]; decide), if_neg (by rw [hx]; decide), hl]
  simp only [bind, Except.bind, hm, Bool.false_eq_true, if_false, hp, hh]

/-- What a TLB holds for a page is its leaf, and the look-up changes nothing. -/
theorem State.leafOf_hit {s : State} {core va : Nat} {pt : X64} {t : TlbEnt}
    (h : (s.coreAt core).tlb.find? (fun t => t.asid == rootAsid pt && t.vpage == va / 65536 % 2 ^ 41) = some t) :
    s.leafOf core pt va = .ok (s, some (t.level, t.pte)) := by
  unfold State.leafOf; simp only [h]

/-- An agent without a TLB of its own walks, and the look-up changes nothing. -/
theorem State.leafOf_walk {s : State} {core va level pa : Nat} {pt e : X64} (hc : 64 ≤ core)
    (h : s.walkFrom 4 0 (rootTable pt) va = .ok (some (level, e, pa))) :
    s.leafOf core pt va = .ok (s, some (level, e)) := by
  have h1 : s.coreAt core = Core.reset := by
    unfold State.coreAt vat; rw [Vector.getElem?_eq_none hc]; rfl
  have h2 : ∀ f, s.modCore core f = s := by
    intro f; unfold State.modCore; rw [Vector.setIfInBounds_eq_of_size_le hc]
  unfold State.leafOf
  simp only [h1, Core.reset, List.find?_nil, h, h2, bind, Except.bind]

end Sys2Proof.Machine
end

