-- ==== Sys2Proof/Tests/Slice0.lean ====
section
/-! SUPPORT. Tests: words written out from the spec's encodings, ill-formed terms that the checks refuse, single steps whose
results are the spec's own examples or calculated by hand, and for each statement a state that meets its hypotheses. -/

namespace Sys2Proof.Tests

open Sys2Proof.Machine

set_option maxRecDepth 100000
set_option Elab.async false

/-! ### Small states -/

/-- A slot that runs. -/
def run : Slot := { Slot.reset with st := .run }
/-- Core 0 when its thread 0 holds every lane group. -/
def core0 : Core := { Core.reset with lanes := (List.range 32).map fun g => (g, 0) }
/-- The part with one bound slot, number 0, which holds every lane group of its core, and some bytes of memory. -/
def alone (sl : Slot) (m : List Host.Cell) : State :=
  { State.reset with slots := [(0, sl)], mem := m, cores := (Vector.replicate 64 Core.reset).setIfInBounds 0 core0 }
/-- Registers x1, x2 and so on. -/
def xs (l : List X64) : Vector X64 32 := Vector.ofFn fun i => if i.val = 0 then 0 else l.getD (i.val - 1) 0
/-- An entry of the control queue. -/
def entry (i : Instr) (x : X64) : Entry :=
  { kind := .instr, ins := some i, word := wordOf i, scalar := x, pc := 0x100, stages := 0, named := 0, vl := 0, p := true
    cvHead := 0, cvPos := 0, leave := 0, ahead := 0 }
/-- A slot whose queue holds one entry, with VL at the lanes. -/
def heads (i : Instr) (x : X64) (vl : BitVec 13) : Slot := { run with queue := [entry i x], lane := { Lane.reset with vl := vl } }

theorem vat_replicate {α : Type} (a d : α) (n j : Nat) (h : d = a) : vat (Vector.replicate n a) j d = a := by
  subst h; unfold vat; simp only [Vector.getElem?_replicate]; split <;> rfl

theorem alone_core (sl : Slot) (m : List Host.Cell) (c : Nat) :
    (alone sl m).coreAt c = { Core.reset with lanes := if c = 0 then core0.lanes else [] } := by
  by_cases h : c = 0
  · subst h; rfl
  · show vat _ c Core.reset = _
    rw [show (alone sl m).cores = (Vector.replicate 64 Core.reset).setIfInBounds 0 core0 from rfl, vat_setIfInBounds_ne _ _ _ h,
      vat_replicate _ _ _ _ rfl, if_neg h]; rfl

theorem alone_other (sl : Slot) (m : List Host.Cell) {j : Nat} (h : j ≠ 0) : (alone sl m).slot j = Slot.reset := by
  show (if 0 = j then sl else Slot.reset) = Slot.reset
  rw [if_neg (Ne.symm h)]

theorem alone_plain (sl : Slot) (m : List Host.Cell) : (alone sl m).plain :=
  ⟨⟨rfl, rfl, rfl⟩, fun c => by rw [alone_core]; rfl⟩

theorem alone_direct (sl : Slot) (m : List Host.Cell) (h : bitAt sl.ptroot 0 = false) : (alone sl m).direct 0 :=
  ⟨by decide, h, rfl, fun i _ => by rw [alone_core]; exact vat_replicate _ _ _ _ rfl⟩

theorem alone_reaches (sl : Slot) (m : List Host.Cell) (va : X64) (n : Nat) (h : bitAt sl.ptroot 0 = false) (h1 : va.toNat < 2 ^ 57)
    (h2 : va.toNat % n = 0) (h3 : va.toNat % 2 ^ 52 + n ≤ hbmBytes) : (alone sl m).reaches 0 va n :=
  ⟨alone_direct sl m h, (alone_plain sl m).tosettled, h1, h2, h3⟩

theorem alone_quiet (sl : Slot) (m : List Host.Cell) : (alone sl m).quiet 0 :=
  ⟨by rw [alone_core]; decide, by rw [alone_core]; decide⟩

theorem alone_claims (sl : Slot) (m : List Host.Cell) (hl : sl.share ≤ 32) : ((alone sl m).claimLanes 0).isSome = true :=
  Option.isSome_iff_exists.mpr ⟨_, State.claimLanes_held rfl (show max 1 sl.share ≤ 32 by omega) (show 0 < core0.held 0 by decide)⟩

theorem alone_lanesFree (sl : Slot) (m : List Host.Cell) (hb : sl.st ≠ .vacant ∧ sl.st ≠ .stop) (ht : sl.tr.froz = false)
    (hs : sl.cst ≠ .faulted ∧ sl.pend = none ∧ sl.preempt = false) (hc : sl.cap.toNat ≤ 5) (hl : sl.share ≤ 32 := by exact Nat.zero_le 32) :
    (alone sl m).lanesFree 0 :=
  ⟨by decide, hb, ht, hs, fun j hj _ => by rw [alone_other sl m hj]; rfl, by rw [alone_core]; decide,
    Option.isSome_iff_exists.mpr ⟨_,
      State.claimLanes_whole rfl (show max 1 sl.share ≤ 32 by omega) (show 0 < core0.held 0 by decide)⟩, hc, alone_quiet sl m⟩

theorem alone_traps (sl : Slot) (m : List Host.Cell) (hq : sl.queue = [] ∨ sl.tr.froz = true) (hi : sl.tr.inh = false) :
    (alone sl m).trapsAtOnce :=
  ⟨hq, hi, by rw [alone_core]; exact (by decide : bitAt DebugBlock.reset.trctl 0 = false)⟩

theorem alone_atHead (i : Instr) (x : X64) (sl : Slot) (m : List Host.Cell) (hq : sl.queue.head? = some (entry i x))
    (hf : (alone sl m).lanesFree 0) (hm : sl.lane.femask = 0) : AtHead (alone sl m) 0 i (entry i x) :=
  ⟨hf, hq, rfl, rfl, rfl, fun r _ _ => by
    show sl.lane.femask.getLsbD r = false
    rw [hm]; simp⟩

theorem heads_free (i : Instr) (x : X64) (vl : BitVec 13) : (alone (heads i x vl) []).lanesFree 0 :=
  alone_lanesFree _ _ ⟨nofun, nofun⟩ rfl ⟨nofun, rfl, rfl⟩ (show 5 ≤ 5 by decide)

theorem heads_atHead (i : Instr) (x : X64) (vl : BitVec 13) : AtHead (alone (heads i x vl) []) 0 i (entry i x) :=
  alone_atHead i x _ _ rfl (heads_free i x vl) rfl

/-! ### Hypotheses that are met: the lanes

A table of element rules is met at VL = one element group, where the entry retires, and at one element more, where it stays. -/

/-- The hypotheses of a table of element rules at some VL. -/
def GroupHyps (rule : Instr → Option ElemRule) (i : Instr) (r : ElemRule) (vl : Nat) : Prop :=
  let s := alone (heads i 0 (BitVec.ofNat 13 vl)) []
  AtHead s 0 i (entry i 0) ∧ (0 : Fin 64).val = coreOf 0 ∧ rule i = some r ∧ i.wf = true ∧
    (s.slot 0).lane.vl.toNat ≤ r.limit (s.lenv 0 (entry i 0)) ∧ (s.slot 0).lane.vstart.toNat < (s.slot 0).lane.vl.toNat

/-- Both ends of a group. -/
def GroupMet (rule : Instr → Option ElemRule) (i : Instr) : Prop :=
  ∃ r, GroupHyps rule i r r.group ∧ GroupHyps rule i r (r.group + 1)

theorem witness_IntegerElements : GroupMet intRule (.addVv 1 2 3 .s32 0 .none) :=
  ⟨_, ⟨heads_atHead _ _ _, rfl, rfl, rfl, by decide, by decide⟩, ⟨heads_atHead _ _ _, rfl, rfl, rfl, by decide, by decide⟩⟩
theorem witness_FloatElements : GroupMet fltRule (.faddVv 1 2 3 .f32 0 .none) :=
  ⟨_, ⟨heads_atHead _ _ _, rfl, rfl, rfl, by decide, by decide⟩, ⟨heads_atHead _ _ _, rfl, rfl, rfl, by decide, by decide⟩⟩
theorem witness_FloatElementsOfOwnRule : GroupMet fltOwnRule (.fclassVv 1 2 .f32) :=
  ⟨_, ⟨heads_atHead _ _ _, rfl, rfl, rfl, by decide, by decide⟩, ⟨heads_atHead _ _ _, rfl, rfl, rfl, by decide, by decide⟩⟩
theorem witness_Conversions : GroupMet cvtRule (.cvtVv 1 2 .s32 .f32 4) :=
  ⟨_, ⟨heads_atHead _ _ _, rfl, rfl, rfl, by decide, by decide⟩, ⟨heads_atHead _ _ _, rfl, rfl, rfl, by decide, by decide⟩⟩
theorem witness_WideningProducts : GroupMet wmulRule (.wmulVv 2 4 6 .s16 .none) :=
  ⟨_, ⟨heads_atHead _ _ _, rfl, rfl, rfl, by decide, by decide⟩, ⟨heads_atHead _ _ _, rfl, rfl, rfl, by decide, by decide⟩⟩
theorem witness_NarrowingShifts : GroupMet nrshrRule (.nrshrVs 1 2 3 .s16) :=
  ⟨_, ⟨heads_atHead _ _ _, rfl, rfl, rfl, by decide, by decide⟩, ⟨heads_atHead _ _ _, rfl, rfl, rfl, by decide, by decide⟩⟩
theorem witness_Positions : GroupMet placeRule (.iota 1 .s32) :=
  ⟨_, ⟨heads_atHead _ _ _, rfl, rfl, rfl, by decide, by decide⟩, ⟨heads_atHead _ _ _, rfl, rfl, rfl, by decide, by decide⟩⟩
theorem witness_Accrd : GroupMet accrdRule (.accrd 8 1 .f32 0 false) :=
  ⟨_, ⟨heads_atHead _ _ _, rfl, rfl, rfl, by decide, by decide⟩, ⟨heads_atHead _ _ _, rfl, rfl, rfl, by decide, by decide⟩⟩

/-- A whole-register entry at VSTART 0, and one that accepts any VSTART. -/
theorem witness_Moves : ∃ r, AtHead (alone (heads (.vperm 1 2 3 .s32) 0 512) []) 0 (.vperm 1 2 3 .s32) (entry (.vperm 1 2 3 .s32) 0) ∧
    moveRule (.vperm 1 2 3 .s32) = some r ∧ (Instr.vperm 1 2 3 .s32).wf = true ∧
    ((alone (heads (.vperm 1 2 3 .s32) 0 512) []).slot 0).lane.vstart = 0 ∧
    ((alone (heads (.vperm 1 2 3 .s32) 0 512) []).slot 0).lane.vl.toNat ≤
      r.limit ((alone (heads (.vperm 1 2 3 .s32) 0 512) []).lenv 0 (entry (.vperm 1 2 3 .s32) 0)) :=
  ⟨_, heads_atHead _ _ _, rfl, rfl, rfl, by decide⟩
theorem witness_Reductions : ∃ r,
  AtHead (alone (heads (.redSum 1 2 3 .s32 true) 0 0) []) 0 (.redSum 1 2 3 .s32 true) (entry (.redSum 1 2 3 .s32 true) 0) ∧
    reduceRule (.redSum 1 2 3 .s32 true) = some r ∧ (Instr.redSum 1 2 3 .s32 true).wf = true ∧
    ((alone (heads (.redSum 1 2 3 .s32 true) 0 0) []).slot 0).lane.vstart = 0 ∧
    ((alone (heads (.redSum 1 2 3 .s32 true) 0 0) []).slot 0).lane.vl.toNat ≤
      r.limit ((alone (heads (.redSum 1 2 3 .s32 true) 0 0) []).lenv 0 (entry (.redSum 1 2 3 .s32 true) 0)) :=
  ⟨_, heads_atHead _ _ _, rfl, rfl, rfl, by decide⟩

theorem witness_Pick : ∃ d t f,
  AtHead (alone (heads (.pickVv 1 2 3 .s32 .none) 0 16) []) 0 (.pickVv 1 2 3 .s32 .none) (entry (.pickVv 1 2 3 .s32 .none) 0) ∧
    pickRule (.pickVv 1 2 3 .s32 .none) = some (d, t, f) ∧ (Instr.pickVv 1 2 3 .s32 .none).wf = true ∧ 16 ≤ perReg 5 t.bits :=
  ⟨_, _, _, heads_atHead _ _ _, rfl, rfl, by decide⟩
theorem witness_Comparisons : ∃ r,
  AtHead (alone (heads (.cmpEqVv 1 2 3 .s32 .none) 0 17) []) 0 (.cmpEqVv 1 2 3 .s32 .none) (entry (.cmpEqVv 1 2 3 .s32 .none) 0) ∧
    cmpRule (.cmpEqVv 1 2 3 .s32 .none) = some r ∧ (Instr.cmpEqVv 1 2 3 .s32 .none).wf = true ∧ 17 ≤ perReg 5 r.t.bits :=
  ⟨_, heads_atHead _ _ _, rfl, rfl, by decide⟩
theorem witness_Masks : ∃ d f, AtHead (alone (heads (.msetVl 1) 0 4096) []) 0 (.msetVl 1) (entry (.msetVl 1) 0) ∧
    maskRule (.msetVl 1) = some (d, f) ∧ ((alone (heads (.msetVl 1) 0 4096) []).slot 0).lane.vl.toNat ≤ 4096 :=
  ⟨_, _, heads_atHead _ _ _, rfl, by decide⟩
/-- A block conversion into C4 under a usable codebook, and one into F8. -/
theorem witness_BlockScales : ∃ r, AtHead (alone (heads (.cvts 1 8 .f32 .c4 0) 0 32) []) 0 (.cvts 1 8 .f32 .c4 0) (entry (.cvts 1 8 .f32 .c4 0) 0) ∧
    blockRule (.cvts 1 8 .f32 .c4 0) = some r ∧ (Instr.cvts 1 8 .f32 .c4 0).wf = true ∧
    bookUsable (vat Lane.reset.b r.book (Vector.replicate 16 0)) = true ∧
    32 ≤ r.limit ((alone (heads (.cvts 1 8 .f32 .c4 0) 0 32) []).lenv 0 (entry (.cvts 1 8 .f32 .c4 0) 0)) :=
  ⟨_, heads_atHead _ _ _, rfl, rfl, by decide +kernel, by decide⟩
theorem witness_Codebook : AtHead (alone (heads (.cbld 3 9) 0 0) []) 0 (.cbld 3 9) (entry (.cbld 3 9) 0) := heads_atHead _ _ _
theorem witness_AccumulatorWriters : ∃ r, AtHead (alone (heads (.accwr 1 8 .f32) 0 17) []) 0 (.accwr 1 8 .f32) (entry (.accwr 1 8 .f32) 0) ∧
    accRule (.accwr 1 8 .f32) = some r ∧ (Instr.accwr 1 8 .f32).wf = true ∧
    17 ≤ r.limit ((alone (heads (.accwr 1 8 .f32) 0 17) []).lenv 0 (entry (.accwr 1 8 .f32) 0)) ∧ r.group = 16 :=
  ⟨_, heads_atHead _ _ _, rfl, rfl, by decide, rfl⟩
/-- Two k-blocks, of which the first leaves the entry at the head, and one, after which it retires. -/
theorem witness_MmaRegister : ∀ g : Fin 2, ∃ t d blocks r,
    AtHead (alone (heads (.mmaAccRegister 0 8 16 .bf16 0 (Fin.ofNat 4 g.val)) 0 1024) []) 0
      (.mmaAccRegister 0 8 16 .bf16 0 (Fin.ofNat 4 g.val)) (entry (.mmaAccRegister 0 8 16 .bf16 0 (Fin.ofNat 4 g.val)) 0) ∧
    mmaRule (.mmaAccRegister 0 8 16 .bf16 0 (Fin.ofNat 4 g.val)) = some (t, d, blocks, r) ∧
    (Instr.mmaAccRegister 0 8 16 .bf16 0 (Fin.ofNat 4 g.val)).wf = true ∧ (1024 : Nat) % 32 = 0 ∧ 1024 ≤ perReg 5 t.bits ∧
    d < ((alone (heads (.mmaAccRegister 0 8 16 .bf16 0 (Fin.ofNat 4 g.val)) 0 1024) []).lenv 0
      (entry (.mmaAccRegister 0 8 16 .bf16 0 (Fin.ofNat 4 g.val)) 0)).agrp ∧ blocks = g.val + 1 := by
  intro g
  match g with
  | 0 => exact ⟨_, _, _, _, heads_atHead _ _ _, rfl, rfl, rfl, by decide, by decide, rfl⟩
  | 1 => exact ⟨_, _, _, _, heads_atHead _ _ _, rfl, rfl, rfl, by decide, by decide, rfl⟩
theorem witness_Accz : AtHead (alone (heads (.accz 31) 0 0) []) 0 (.accz 31) (entry (.accz 31) 0) ∧
    (0 : Nat) < ((alone (heads (.accz 31) 0 0) []).lenv 0 (entry (.accz 31) 0)).agrp := ⟨heads_atHead _ _ _, by decide⟩

/-- A register that VPUSH may still fill holds an entry back: the empty mask of the other witnesses is no accident. -/
theorem test_armed_register_holds_entry : ({ Lane.reset with femask := 4 } : Lane).armedFor (.addVv 1 2 3 .s32 0 .none) = true := by
  decide

/-! ### Hypotheses that are met: the slice -/

/-- A slot inside the body of a live nest; with c8 clear its words are dead, with c8 set they are live. -/
def nested (live : Bool) : Slot :=
  { run with nest := { Nest.reset with act := true, n := 1, lenm1 := 3, trip := Vector.replicate 6 4 }
             c := (Vector.replicate 16 false).setIfInBounds 8 live }
/-- A privileged slot. -/
def privileged : Slot := { run with tr := { TrapRegs.reset with priv := true } }
/-- An entry that waits in a queue. -/
def waiting : Slot := heads (.addVv 1 2 3 .s32 0 .none) 0 4
/-- A slot with a frozen queue. -/
def frozen : Slot := { waiting with tr := { TrapRegs.reset with froz := true, inh := false } }

theorem alone_pushes (m : List Host.Cell) : (alone run m).pushes := ⟨rfl, rfl, show 0 < 64 by decide⟩
theorem run_acts (m : List Host.Cell) : (alone run m).acts := rfl
theorem run_free (m : List Host.Cell) : (alone run m).lanesFree 0 :=
  alone_lanesFree _ _ ⟨nofun, nofun⟩ rfl ⟨nofun, rfl, rfl⟩ (show 5 ≤ 5 by decide)
theorem run_traps (m : List Host.Cell) : (alone run m).trapsAtOnce := alone_traps _ _ (.inl rfl) rfl

theorem witness_IntegerScalarForms : ∃ d f, intScalarRule (.addSc 31 1 2 .s32 0) = some (d, f) ∧ (Instr.addSc 31 1 2 .s32 0).wf = true ∧
    (alone run []).acts := ⟨_, _, rfl, rfl, rfl⟩
theorem witness_FloatScalarForms : ∃ d f, fltScalarRule (.faddSc 0 1 2 .f32 0) = some (d, f) ∧ (Instr.faddSc 0 1 2 .f32 0).wf = true ∧
    (alone run []).acts := ⟨_, _, rfl, rfl, rfl⟩
theorem witness_ScalarComparisons : ∃ d f, cmpScalarRule (.cmpEqSc 7 1 2 .s64) = some (d, f) ∧ (Instr.cmpEqSc 7 1 2 .s64).wf = true ∧
    (alone run []).acts := ⟨_, _, rfl, rfl, rfl⟩
theorem witness_Immediates : (alone run []).acts := rfl
theorem witness_VectorInstructionsEnterQueue :
    (Instr.addVv 1 2 3 .s32 0 .none).wf = true ∧ entersQueue (.addVv 1 2 3 .s32 0 .none) = true ∧ (alone run []).pushes :=
  ⟨rfl, rfl, alone_pushes []⟩
/-- SETVL in a live and in a dead stage. -/
theorem witness_SetvlGrants : (Instr.setvl 5 6 .s32).wf = true ∧ ((alone (nested true) []).pushes ∧ (alone (nested true) []).me.stageLive = true) ∧
    (alone (nested false) []).pushes ∧ (alone (nested false) []).me.stageLive = false :=
  ⟨rfl, ⟨⟨rfl, rfl, by decide⟩, rfl⟩, ⟨rfl, rfl, by decide⟩, rfl⟩
theorem witness_SetvlReachesLanes : AtHead (alone (heads (.setvl 5 6 .s32) 0 0) []) 0 (.setvl 5 6 .s32) (entry (.setvl 5 6 .s32) 0) :=
  heads_atHead _ _ _
theorem witness_BackFlows : (Instr.mpopc 5 7).wf = true ∧ (alone run []).pushes ∧ (alone run []).acts ∧ (alone run []).lanesFree 0 ∧
    (alone run []).me.st = .run ∧ (alone run []).me.queue = [] ∧ (alone run []).me.phase = .fresh ∧
    (alone run []).me.lane.vstart = 0 ∧ (alone run []).me.lane.femask = 0 ∧
    ∃ d v, ∀ e, backValue ((alone run []).lenv 0 e) (.mpopc 5 7) = some (d, v) :=
  ⟨rfl, alone_pushes [], rfl, run_free [], rfl, rfl, rfl, rfl, rfl, 5, 0, fun _ => rfl⟩
theorem witness_Branches : (alone run []).untraced ∧ (alone run []).acts ∧ (alone run []).outsideNest := ⟨rfl, rfl, rfl⟩
/-- Both targets of a jump: a word address and one that is none. -/
theorem witness_Jumps : (alone { run with x := xs [8, 6] } []).outsideNest ∧ ((alone { run with x := xs [8, 6] } []).me.rx 1).toNat % 4 = 0 ∧
    ((alone { run with x := xs [8, 6] } []).me.rx 2).toNat % 4 ≠ 0 ∧ (alone { run with x := xs [8, 6] } []).trapsAtOnce :=
  ⟨rfl, by decide, by decide, alone_traps _ _ (.inl rfl) rfl⟩
/-- A context whose groups have one field of four bits and one of three. -/
def ctx0 : Ctx :=
  { crec := 0x1000, hqroot := 0, hq := 0, prio := 0, age := 0, st := .running, ptroot := 0, tvec := 0, cimg := 0, ctxid := 0
    pack := false, code := 0, codelen := 0, entry := 0, widths := [4, 3], counts := [2], lgwish := 0, qcnt := 16, agrp := 32
    loftt := 65536, loftg := 256, cwaddr := 0x2000, cwscope := 0, irq := false, codeMem := [], groups := [], nextGroup := 0,
      waits := none, word := none
    endedGroups := 0, flags := FlagWord.reset, faultCode := 0 }
theorem witness_Workid : (alone (nested false) []).me.stageLive = false ∧ (alone run []).acts ∧
    ({ alone { run with ctx := some 3 } [] with ctxs := [(3, ctx0)] } : State).ctxOf (some 3) = some ctx0 := ⟨rfl, rfl, rfl⟩
/-- LOOP: a trip count of 2^32, a product of more than 2^47, no pass to make, and a counter that moves. -/
theorem witness_Loop : (Instr.loop 2 1 3 0).wf = true ∧ (alone { run with x := xs [0x100000000, 1] } []).outsideNest ∧
    2 ^ 32 ≤ ((alone { run with x := xs [0x100000000, 1] } []).me.rx 1).toNat ∧
    2 ^ 47 < ((alone { run with x := xs [0xFFFFFFFF, 0xFFFFFFFF] } []).me.rx 1).toNat * ((alone { run with x := xs [0xFFFFFFFF,
      0xFFFFFFFF] } []).me.rx 2).toNat ∧
    ((alone { run with x := xs [0, 5] } []).me.rx 1).toNat = 0 ∧
    vat ({ run with k := Vector.replicate 6 1 } : Slot).k 0 0 ≠ 0 ∧ ({ run with k := Vector.replicate 6 1 } : Slot).emits :=
  ⟨rfl, rfl, by decide, by decide, rfl, by decide, rfl, rfl, by decide, fun q _ => by
    rw [show ({ run with k := Vector.replicate 6 1 } : Slot).reg q = ResReg.reset from vat_replicate _ _ _ _ rfl]; nofun⟩
/-- The end of a pass that goes on (NPASS 0 of 4), of the last counted pass, and of the nest. -/
theorem witness_PassEnd :
    let sl := fun (p : BitVec 48) => ({ nested true with
      pc := 16, nest := { (nested true).nest with npass := p, sm1 := 1 } } : Slot)
    (sl 0).st = .run ∧ (sl 0).nest.own = (sl 0).tr.inh ∧ (sl 0).pc = (sl 0).nest.nbody + 4 * BitVec.ofNat 64 ((sl 0).nest.lenm1.toNat + 1) ∧
    (0 + 1 = (sl 0).nest.n.toNat) ∧ (0 + 1 < (sl 0).nest.total) ∧ ¬ (3 + 1 < (sl 3).nest.total) ∧
    (3 + 1 < (sl 3).nest.total + (sl 3).nest.sm1.toNat) ∧ ¬ (4 + 1 < (sl 4).nest.total + (sl 4).nest.sm1.toNat) :=
  ⟨rfl, rfl, by decide, rfl, by decide, by decide, by decide, by decide⟩
theorem witness_Counters : (alone run []).outsideNest ∧ (alone run []).untraced ∧ (alone run []).me.emits :=
  ⟨rfl, rfl, rfl, rfl, by decide, fun q _ => by rw [show (alone run []).me.reg q = ResReg.reset from vat_replicate _ _ _ _ rfl]; nofun⟩
/-- One word for each trap at decode. -/
theorem witness_RefusedWords :
    (Instr.csrr 5 0x7FF).encodable = true ∧ sliceTrapOf (alone run []) (.csrr 5 0x7FF) = some .undefinedInstruction ∧
    sliceTrapOf (alone (nested true) []) .jmpRet = some .undefinedInstruction ∧
    sliceTrapOf (alone run []) .eret = some .privilege ∧
    sliceTrapOf (alone run []) (.addVv 1 2 3 .f32 0 .none) = some .illegalType ∧
    (csrwOf (.ctxidWrite 5)).isSome = true ∧ sliceTrapOf (alone run []) (.ctxidWrite 5) = some .privilege ∧
    (alone run []).trapsAtOnce := ⟨rfl, rfl, rfl, rfl, rfl, rfl, rfl, run_traps []⟩
/-- Without vector state, at a frozen queue, and at a full one. -/
theorem witness_VectorWords :
    let none_ := ({ run with tr := { TrapRegs.reset with vu := false } } : Slot)
    let full := ({ run with queue := List.replicate 64 (entry (.addVv 1 2 3 .s32 0 .none) 0) } : Slot)
    (none_.tr.vu = false ∧ (alone none_ []).trapsAtOnce) ∧ (frozen.tr.froz = true ∧ (alone frozen []).trapsAtOnce) ∧ 64 ≤ full.queue.length :=
  ⟨⟨rfl, alone_traps _ _ (.inl rfl) rfl⟩, ⟨rfl, alone_traps _ _ (.inr rfl) rfl⟩, by decide⟩
theorem witness_TrapAndSvc : (alone run []).acts ∧ (alone run []).trapsAtOnce := ⟨rfl, run_traps []⟩
/-- A trap that has to wait, one that enters, and one in a handler. -/
theorem witness_TrapsDrain :
    let p : PendTrap := { code := .svc, kind := 0, lane := false, epc := 0, tval := 12, rpc := 4 }
    let drained := ({ run with st := .drain, cause := 6, pend := some p } : Slot)
    (alone waiting []).acts ∧ (alone waiting []).drainsFirst ∧ drained.pend = some p ∧ p.epc = drained.pc ∧ drained.queue = [] ∧
      ({ TrapRegs.reset with inh := true } : TrapRegs).inh = true ∧
      (alone { run with tr := { TrapRegs.reset with inh := true } } []).acts :=
  ⟨rfl, ⟨show waiting.queue ≠ [] from List.cons_ne_nil _ _, rfl⟩, rfl, rfl, rfl, rfl, rfl⟩
theorem witness_Eret : (alone privileged []).acts ∧ (alone privileged []).me.tr.priv = true ∧ (alone privileged []).me.ctx = none :=
  ⟨rfl, rfl, rfl⟩
/-- A register of the slice, one of the lanes at an empty queue, and one while an entry waits. -/
theorem witness_Csrr : (alone privileged []).acts ∧ (∃ v, sliceCsrValue (alone privileged []) privileged 0x120 = some v) ∧
    (∃ v, laneCsr (alone run []).me.lane 0 = some v) ∧ (alone run []).me.queue = [] ∧ (alone waiting []).me.queue ≠ [] :=
  ⟨rfl, ⟨_, rfl⟩, ⟨_, rfl⟩, rfl, show waiting.queue ≠ [] from List.cons_ne_nil _ _⟩
/-- A value that the register takes, and one it does not support (NEST with LEN beyond the loop buffer). -/
theorem witness_CsrwSlice : csrwOf (.csrw 1 0x005) = some (1, 0x005) ∧ (∃ r, sliceCsrSet run 0 7 0x005 = some r) ∧
    csrwOf (.vlcapWrite 1) = some (1, 0x100) ∧ (alone run []).me.queue = [] ∧
    sliceCsrSet run 0 (BitVec.allOnes 64) 0x030 = some none := ⟨rfl, ⟨_, rfl⟩, rfl, rfl, by decide⟩
theorem witness_CsrwLane : csrwOf (.csrw 1 0x000) = some (1, 0) ∧ (laneCsr Lane.reset 0).isSome = true ∧ (alone run []).pushes ∧
    (∃ l, laneCsrSet Lane.reset 3 0 = some l) ∧ laneCsrSet Lane.reset 0x20 3 = none ∧ frozen.tr.froz = true :=
  ⟨rfl, rfl, alone_pushes [], ⟨_, rfl⟩, by decide, rfl⟩

/-! ### Hypotheses that are met: memory, sets and far access -/

/-- A slot with x8 = 0x1000 and x9 = 4. -/
def pointers : Slot := { run with x := xs [0, 0, 0, 0, 0, 0, 0, 0x1000, 4] }

theorem reset_regs (sl : Slot) (h : sl.q = Vector.replicate 16 ResReg.reset) (q : Nat) : sl.reg q = ResReg.reset := by
  unfold Slot.reg; rw [h]; exact vat_replicate _ _ _ _ rfl

theorem performed_of (sl : Slot) (hq : sl.queue = []) (h : sl.q = Vector.replicate 16 ResReg.reset) : sl.performed :=
  ⟨hq, fun q _ => by rw [reset_regs sl h q]; exact ⟨rfl, nofun⟩⟩

theorem witness_ScalarLoads : loadOf (.ldsW 5 8 9) = some (4, true, 5, 8, 9) ∧ (alone pointers []).acts ∧
    (alone pointers []).reaches 0 ((alone pointers []).me.rx 8 + (alone pointers []).me.rx 9) 4 :=
  ⟨rfl, rfl, alone_reaches _ _ _ _ rfl (by decide) (by decide) (by decide)⟩
theorem witness_ScalarStores : storeOf (.stsD 5 8 0) = some (8, 5, 8, 0) ∧ (alone pointers []).acts ∧
    (alone pointers []).reaches 0 ((alone pointers []).me.rx 8 + (alone pointers []).me.rx 0) 8 :=
  ⟨rfl, rfl, alone_reaches _ _ _ _ rfl (by decide) (by decide) (by decide)⟩
theorem witness_Atomics : (∃ f, atomicOf (.amoAdd .device 5 8 9 .s64) = some (5, 8, .s64, f)) ∧ (Instr.amoAdd .device 5 8 9 .s64).wf = true ∧
    (alone pointers []).acts ∧ (alone pointers []).reaches 0 ((alone pointers []).me.rx 8) 8 ∧ (alone pointers []).plain ∧
    (alone pointers []).me.performed :=
  ⟨⟨_, rfl⟩, rfl, rfl, alone_reaches _ _ _ _ rfl (by decide) (by decide) (by decide), alone_plain _ _, performed_of _ rfl rfl⟩
/-- A misaligned address, and the first one above bit 56. -/
theorem witness_ScalarTraps : loadOf (.ldsW 5 8 9) = some (4, true, 5, 8, 9) ∧ storeOf (.stsB 5 8 0) = some (1, 5, 8, 0) ∧
    (alone pointers []).acts ∧ (alone pointers []).trapsAtOnce ∧ (alone pointers []).reqs = [] ∧ (0x1001#64).toNat % 4 ≠ 0 ∧
    (0x200000000000000#64).toNat % 4 = 0 ∧ 2 ^ 57 ≤ (0x200000000000000#64).toNat :=
  ⟨rfl, rfl, rfl, alone_traps _ _ (.inl rfl) rfl, rfl, by decide, by decide, by decide⟩
theorem witness_Fences : (alone run []).acts ∧ (alone run []).pushes ∧ (alone run []).me.queue = [] ∧ (alone waiting []).me.queue ≠ [] ∧
    (alone waiting []).me.tr.vu = true := ⟨rfl, alone_pushes [], rfl, show waiting.queue ≠ [] from List.cons_ne_nil _ _, rfl⟩
theorem alone_flushes (sl : Slot) (m : List Host.Cell) : (alone sl m).flushes 0 := by
  unfold State.flushes; rw [alone_core]; exact fun b hb => nomatch hb
theorem witness_FenceAll : (alone run []).acts ∧ (alone run []).pushes ∧ (alone run []).lanesFree 0 ∧ (alone run []).me.queue = [] ∧
    (alone run []).flushes 0 ∧ (alone run []).me.phase = .fresh ∧ (alone run []).me.st = .run :=
  ⟨rfl, alone_pushes [], run_free [], rfl, alone_flushes _ _, rfl, rfl⟩

/-- A tensor of four S32 elements at 0x20000, read and written whole, in a box that no counter moves. -/
def desc1 : Desc :=
  { base := 0x20000, flags := BitVec.ofNat 64 (1 + 2 ^ 9 + 2 ^ 10 + 7 * 2 ^ 16 + 4 * 2 ^ 25 + 4 * 2 ^ 29 + 7 * 2 ^ 42)
    ext := (Vector.replicate 6 0).setIfInBounds 0 4, str := (Vector.replicate 6 0).setIfInBounds 0 1
    box := (Vector.replicate 6 0).setIfInBounds 0 (BitVec.ofNat 64 (4 * 2 ^ 32)), shape := 0, waddr := 0 }
/-- Its first delivery. -/
def gen1 (landed : Bool) : Gen :=
  { n := 0, ks := Vector.replicate 6 0, old := none, ix := 0, gate := true, gateFail := none, released := true, landed := landed, causePc := 0 }
/-- Its element 0. -/
def cell1 : Cell := { co := [0], val := 77, scale := 0x7F, base := 0x20000, dirty := false, fail := none }
/-- A live register that holds it. -/
def live1 : ResReg :=
  { ResReg.reset with
    st := .live, desc := desc1, created := 1, lanesSee := true, gens := [gen1 true]
    cells := [cell1] }
theorem one0 : (1#4096).getLsbD 0 = true := by simp
/-- Lanes of which only element 0 is active. -/
def oneActive (vl : BitVec 13) : Lane := { Lane.reset with vl := vl, msel := 0, m := (Vector.replicate 8 0).setIfInBounds 0 1 }
/-- A slot with an entry at the head, only element 0 active, and a register q0. -/
def heads1 (i : Instr) (x : X64) (vl : BitVec 13) (r : ResReg) : Slot :=
  { heads i x vl with lane := oneActive vl, q := (Vector.replicate 16 ResReg.reset).setIfInBounds 0 r }

theorem heads1_atHead (i : Instr) (x : X64) (vl : BitVec 13) (r : ResReg) : AtHead (alone (heads1 i x vl r) []) 0 i (entry i x) :=
  alone_atHead i x _ _ rfl (alone_lanesFree _ _ ⟨nofun, nofun⟩ rfl ⟨nofun, rfl, rfl⟩ (show 5 ≤ 5 by decide)) rfl

theorem oneActive_gov (vl : BitVec 13) (x : Nat) (h : (oneActive vl).gov x = true) : x = 0 := by
  have : (1#4096).getLsbD x = true := h
  simpa using this

/-- A resident load whose group ends at VL, and one whose group ends before. -/
theorem witness_ResidentLoads : ∀ vl : BitVec 13, vl = 1 ∨ vl = 17 →
    let s := alone (heads1 (.ldr 1 0 8 .s32) 0 vl live1) []
    let n := s.lenv 0 (entry (.ldr 1 0 8 .s32) 0)
    AtHead s 0 (.ldr 1 0 8 .s32) (entry (.ldr 1 0 8 .s32) 0) ∧ residentOf (.ldr 1 0 8 .s32) = some (false, 1, 0, .s32, none) ∧
      (Instr.ldr 1 0 8 .s32).wf = true ∧ ResidentReady s 0 (entry (.ldr 1 0 8 .s32) 0) false 0 .s32 none ∧
      (s.slot 0).lane.vstart.toNat < (s.slot 0).lane.vl.toNat ∧
      ∀ x, n.l.gov x = true → ResidentAt (s.slot 0) 0 (offsetsOf n none x) 77 0x7F := by
  intro vl hvl
  rcases hvl with rfl | rfl <;>
  exact ⟨heads1_atHead _ _ _ _, rfl, rfl, ⟨by decide, nofun, by decide, rfl, by decide, fun g hg => by cases hg; rfl, nofun⟩,
    by decide, fun x hx => by
      cases oneActive_gov _ x hx
      exact ⟨rfl, gen1 true, rfl, by decide, fun h => absurd h (by decide), fun _ => ⟨cell1, by decide, rfl, rfl, rfl⟩⟩⟩
theorem witness_ResidentStores : ∀ vl : BitVec 13, vl = 1 ∨ vl = 17 →
    let s := alone (heads1 (.str 1 0 8 .s32) 0 vl live1) []
    let n := s.lenv 0 (entry (.str 1 0 8 .s32) 0)
    AtHead s 0 (.str 1 0 8 .s32) (entry (.str 1 0 8 .s32) 0) ∧ residentOf (.str 1 0 8 .s32) = some (true, 1, 0, .s32, none) ∧
      (Instr.str 1 0 8 .s32).wf = true ∧ ResidentReady s 0 (entry (.str 1 0 8 .s32) 0) true 0 .s32 none ∧
      (s.slot 0).lane.vstart.toNat < (s.slot 0).lane.vl.toNat ∧
      ∀ x, n.l.gov x = true → StorableAt (s.slot 0) 0 (offsetsOf n none x) [0] := by
  intro vl hvl
  rcases hvl with rfl | rfl <;>
  exact ⟨heads1_atHead _ _ _ _, rfl, rfl, ⟨by decide, nofun, by decide, rfl, by decide, fun g hg => by cases hg; rfl, nofun⟩,
    by decide, fun x hx => by
      cases oneActive_gov _ x hx
      exact ⟨rfl, gen1 true, rfl, by decide, by decide, by decide, cell1, by decide, rfl⟩⟩
theorem witness_ResidencyMiss :
    let s := alone (heads1 (.ldr 1 0 8 .s32) 0 1 ResReg.reset) []
    AtHead s 0 (.ldr 1 0 8 .s32) (entry (.ldr 1 0 8 .s32) 0) ∧ s.reqs = [] ∧ 0 < (s.limits 0).2.1 ∧
      ((s.slot 0).reg 0).lanesSee = false ∧ (s.slot 0).st = .run ∧ (s.slot 0).phase = .fresh ∧
      0 < (s.slot 0).lane.vl.toNat ∧ (s.slot 0).lane.gov 0 = true :=
  ⟨heads1_atHead _ _ _ _, rfl, by decide, rfl, rfl, rfl, by decide, one0⟩
theorem witness_LaneFaults :
    let p : PendTrap := { code := .residencyMiss, kind := 0, lane := true, epc := 0x100, tval := 0, rpc := 0x104 }
    let sl := ({ waiting with st := .drain, cause := 6, pend := some p } : Slot)
    sl.st = .drain ∧ sl.pend = some p ∧ p.lane = true ∧ p.code ≠ .preempt ∧ p.code ≠ .resume ∧ sl.tr.inh = false :=
  ⟨rfl, rfl, rfl, nofun, nofun, rfl⟩
/-- A set of BF16 whose box lies outside its tensor: every element reads FILL. -/
def descB : Desc :=
  { base := 0x20000, flags := BitVec.ofNat 64 (2 + 3 * 2 ^ 3 + 2 ^ 9 + 7 * 2 ^ 16 + 9 * 2 ^ 25 + 9 * 2 ^ 29 + 63 * 2 ^ 42)
    ext := (Vector.replicate 6 0).setIfInBounds 0 1 |>.setIfInBounds 1 1, str := Vector.replicate 6 1
    box := Vector.replicate 6 (BitVec.ofNat 64 (64 * 2 ^ 32 + 100)), shape := 0, waddr := 0 }
/-- One k-block of two, and the last. -/
theorem witness_MmaResident :
    let s := alone (heads1 (.mmaAccResident 0 8 0 .bf16 0 0) 0 32 { live1 with desc := descB }) []
    let n := s.lenv 0 (entry (.mmaAccResident 0 8 0 .bf16 0 0) 0)
    AtHead s 0 (.mmaAccResident 0 8 0 .bf16 0 0) (entry (.mmaAccResident 0 8 0 .bf16 0 0) 0) ∧
      mmaResidentOf (.mmaAccResident 0 8 0 .bf16 0 0) = some (.bf16, 0, 0, 8, 0, 1, false) ∧
      mmaResidentOf (.mmaAccResident 0 8 0 .bf16 0 1) = some (.bf16, 0, 0, 8, 0, 2, false) ∧
      (Instr.mmaAccResident 0 8 0 .bf16 0 0).wf = true ∧ (s.slot 0).lane.vl.toNat % 32 = 0 ∧
      (s.slot 0).lane.vl.toNat ≤ perReg (s.slot 0).cap.toNat 16 ∧ 0 < n.agrp ∧ 0 < (s.limits 0).2.1 ∧
      ((s.slot 0).reg 0).lanesSee = true ∧ ((s.slot 0).reg 0).desc.rtype = .bf16 ∧
      (∀ x kk, n.l.gov x = true → kk < 32 →
        ResidentAt (s.slot 0) 0 [((32 * 0 + kk : Nat) : Int), ((x % 32 : Nat) : Int), 0, 0] 0 0x7F) := by
  refine ⟨heads1_atHead _ _ _ _, rfl, rfl, rfl, rfl, by decide, by decide, by decide, rfl, rfl, ?_⟩
  intro x kk hx hk
  cases oneActive_gov 32 x hx
  have h1 : ∀ j : Fin 32, descB.inSet (Vector.replicate 6 0) ((List.range 6).map fun i => descB.lower (Vector.replicate 6 0) i +
      coordAt [((32 * 0 + j.val : Nat) : Int), ((0 % 32 : Nat) : Int), 0, 0] i) = true := by decide
  have h2 : ∀ j : Fin 32, descB.isFill ((List.range 6).map fun i => descB.lower (Vector.replicate 6 0) i +
      coordAt [((32 * 0 + j.val : Nat) : Int), ((0 % 32 : Nat) : Int), 0, 0] i) = true := by decide
  exact ⟨rfl, gen1 true, rfl, h1 ⟨kk, hk⟩, fun _ => ⟨by decide, rfl⟩, fun h => nomatch (h2 ⟨kk, hk⟩).symm.trans h⟩

/-- An entry with an address whose only active element is 0. -/
def far1 (i : Instr) (x : X64) (vl : BitVec 13) : State := alone (heads1 i x vl ResReg.reset) []

theorem fenced_of (sl : Slot) (h : ∀ q, sl.reg q = ResReg.reset) : sl.fenced := fun q _ => by rw [h q]; exact ⟨nofun, nofun⟩
theorem heads1_none (i : Instr) (x : X64) (vl : BitVec 13) (q : Nat) : (heads1 i x vl ResReg.reset).reg q = ResReg.reset := by
  show vat ((Vector.replicate 16 ResReg.reset).setIfInBounds 0 ResReg.reset) q ResReg.reset = ResReg.reset
  rw [show (Vector.replicate 16 ResReg.reset).setIfInBounds 0 ResReg.reset = Vector.replicate 16 ResReg.reset by decide]
  exact vat_replicate _ _ _ _ rfl
theorem far1_ready (i : Instr) (x : X64) (vl : BitVec 13) (t : Ty) (ix : Option Nat) (st : Bool) (h : vl.toNat ≤ perReg 5 t.bits)
    (h2 : vl.toNat ≤ perReg 5 64) (hb : t.isBlock = false) : FarReady (far1 i x vl) 0 ((far1 i x vl).lenv 0 (entry i x)) t ix st :=
  ⟨alone_direct _ _ (show bitAt 0 0 = false by decide), alone_plain _ _, h, fun _ => h2, fenced_of _ (heads1_none i x vl),
    fun h => by rw [hb] at h; cases h⟩

/-- The active elements of a group that starts at 0 are element 0. -/
theorem far1_active (i : Instr) (x : X64) (vl : BitVec 13) (hi y : Nat)
    (h : y ∈ activesIn ((far1 i x vl).lenv 0 (entry i x)) 0 hi) : y = 0 :=
  oneActive_gov vl y (List.mem_filter.mp h).2

/-- A far load whose group ends at VL, and one whose group ends before. -/
theorem witness_FarLoads : ∀ vl : BitVec 13, vl = 1 ∨ vl = 17 →
    let i := Instr.ldf .thread 1 8 0 .s32 false false false
    let n := (far1 i 0x3000 vl).lenv 0 (entry i 0x3000)
    AtHead (far1 i 0x3000 vl) 0 i (entry i 0x3000) ∧ farLoadOf i = some (1, .s32, none) ∧ i.wf = true ∧
      FarReady (far1 i 0x3000 vl) 0 n .s32 none false ∧ n.l.vstart.toNat = 0 ∧ 0 < n.l.vl.toNat ∧ n.l.gov 0 = true ∧
      ∀ hi, ∀ x ∈ activesIn n 0 hi, ∀ r ∈ runsOf n .s32 none n.x x, runOk .s32 r := by
  intro vl hvl
  have h1 : vl.toNat ≤ 512 := by rcases hvl with rfl | rfl <;> decide
  have h2 : vl.toNat ≤ 256 := by rcases hvl with rfl | rfl <;> decide
  refine ⟨heads1_atHead _ _ _ _, rfl, rfl, far1_ready _ _ _ _ _ _ h1 h2 rfl, rfl, ?_, one0, ?_⟩
  · rcases hvl with rfl | rfl <;> decide
  · intro hi x hx r hr
    cases far1_active _ _ _ _ _ hx
    cases List.mem_singleton.mp hr
    rcases hvl with rfl | rfl <;> exact ⟨by decide, fun _ => by decide, by decide⟩
/-- A far load that faults at its first active element, and one that trims VL at its second. -/
theorem witness_FarLoadsFault :
    let i := Instr.ldf .thread 1 8 0 .s32 false false false
    let a := alone (heads i 0x3001 2) []
    let b := alone { heads i 0x3000 2 with lane := { Lane.reset with vl := 2, vstride := 6 } } []
    AtHead a 0 i (entry i 0x3001) ∧ FarReady a 0 (a.lenv 0 (entry i 0x3001)) .s32 none false ∧
      (elementAddr (a.lenv 0 (entry i 0x3001)) 32 none 0x3001 0).toNat % 4 ≠ 0 ∧
      AtHead b 0 i (entry i 0x3000) ∧ FarReady b 0 (b.lenv 0 (entry i 0x3000)) .s32 none false ∧
      (elementAddr (b.lenv 0 (entry i 0x3000)) 32 none 0x3000 1).toNat % 4 ≠ 0 ∧
      (elementAddr (b.lenv 0 (entry i 0x3000)) 32 none 0x3000 0).toNat % 4 = 0 ∧
      (1 : Nat) < groupEnd (b.lenv 0 (entry i 0x3000)).l (groupWidth .s32 none) :=
  ⟨heads_atHead _ _ _, ⟨alone_direct _ _ rfl, alone_plain _ _, by decide, nofun, fenced_of _ fun q => reset_regs _ rfl q, nofun⟩, by decide,
    alone_atHead _ _ _ _ rfl (alone_lanesFree _ _ ⟨nofun, nofun⟩ rfl ⟨nofun, rfl, rfl⟩ (show 5 ≤ 5 by decide)) rfl,
    ⟨alone_direct _ _ rfl, alone_plain _ _, by decide, nofun, fenced_of _ fun q => reset_regs _ rfl q, nofun⟩, by decide, by decide, by decide⟩
theorem witness_FarStores : ∀ vl : BitVec 13, vl = 1 ∨ vl = 17 →
    let i := Instr.stf .thread 1 8 0 .s32 true false false
    let n := (far1 i 0x3000 vl).lenv 0 (entry i 0x3000)
    AtHead (far1 i 0x3000 vl) 0 i (entry i 0x3000) ∧ farStoreOf i = some (1, .s32, none, true) ∧ i.wf = true ∧
      FarReady (far1 i 0x3000 vl) 0 n .s32 none true ∧
      ((far1 i 0x3000 vl).slot 0).written ∧
      ∀ hi, ∀ x ∈ activesIn n 0 hi, ∀ r ∈ runsOf n .s32 none n.x x, runOk .s32 r := by
  intro vl hvl
  have h1 : vl.toNat ≤ 512 := by rcases hvl with rfl | rfl <;> decide
  have h2 : vl.toNat ≤ 256 := by rcases hvl with rfl | rfl <;> decide
  refine ⟨heads1_atHead _ _ _ _, rfl, rfl, far1_ready _ _ _ _ _ _ h1 h2 rfl, ?_, ?_⟩
  · intro q _
    rw [show ((far1 (.stf .thread 1 8 0 .s32 true false false) 0x3000 vl).slot 0).reg q = ResReg.reset from heads1_none _ _ _ q]
    exact ⟨rfl, nofun⟩
  · intro hi x hx r hr
    cases far1_active _ _ _ _ _ hx
    cases List.mem_singleton.mp hr
    rcases hvl with rfl | rfl <;> exact ⟨by decide, fun _ => by decide, by decide⟩
/-- A list at 0x3000 of one destination, 0x4000. -/
theorem witness_Multicast :
    let i := Instr.stfm .thread 1 8 0 .s32 false false false
    let s := alone (heads1 i 0x3000 1 ResReg.reset) [(0x3000, 1), (0x3009, 0x40)]
    let n := s.lenv 0 (entry i 0x3000)
    AtHead s 0 i (entry i 0x3000) ∧ i.wf = true ∧ FarReady s 0 n .s32 none true ∧ n.l.vstart = 0 ∧
      memNat s.mem (physOf n.x) 8 = 1 ∧ memNat s.mem (physOf (n.x + BitVec.ofNat 64 (8 + 8 * 0))) 8 = (0x4000#64).toNat ∧
      ∀ x ∈ activesIn n 0 n.l.vl.toNat, ∀ r ∈ runsOf n .s32 none 0x4000 x, runOk .s32 r := by
  refine ⟨alone_atHead _ _ _ _ rfl (alone_lanesFree _ _ ⟨nofun, nofun⟩ rfl ⟨nofun, rfl, rfl⟩ (show 5 ≤ 5 by decide)) rfl, rfl,
    ⟨alone_direct _ _ rfl, alone_plain _ _, by decide, nofun, fenced_of _ (heads1_none _ _ _), nofun⟩, rfl, by decide, by decide, ?_⟩
  intro x hx r hr
  cases oneActive_gov 1 x (List.mem_filter.mp hx).2
  cases List.mem_singleton.mp hr
  exact ⟨by decide, fun _ => by decide, by decide⟩
theorem witness_ScatterAdd :
    let i := Instr.scaddInt .device 1 8 2 .s32
    let s := far1 i 0x3000 1
    let n := s.lenv 0 (entry i 0x3000)
    AtHead s 0 i (entry i 0x3000) ∧ scaddOf i = some (1, 2, .s32, false) ∧ i.wf = true ∧ FarReady s 0 n .s32 (some 2) true ∧
      n.l.vstart = 0 ∧ n.l.vl.toNat = 1 ∧ n.l.gov 0 = true ∧ runOk .s32 (elementAddr n 32 (some 2) n.x 0, 4) :=
  ⟨heads1_atHead _ _ _ _, rfl, rfl, far1_ready _ _ _ _ _ _ (by decide) (by decide) rfl, rfl, rfl, one0,
    by decide +kernel, fun _ => by decide +kernel, by decide +kernel⟩

/-- The bytes of a descriptor in memory. -/
def memOf (pa : Nat) (b : List Byte) : List Host.Cell := (b.zipIdx.filter fun p => p.1 != 0).map fun p => (pa + p.2, p.1)
/-- A slot whose x8 points at a descriptor. -/
def setting : Slot := { run with x := xs [0x1001, 0, 0, 0, 0, 0, 0, 0x3000] }
/-- The part with the descriptor of the four elements in memory. -/
def setState : State := alone setting (memOf 0x3000 desc1.bytes)

theorem setState_desc : descriptorAt setState 0x3000 = desc1 := by decide +kernel
theorem setState_retired (j : Nat) : (setState.me.reg j).st = .retired := by
  rw [show setState.me.reg j = ResReg.reset from reset_regs _ rfl j]; rfl

theorem witness_Qset : setState.setsUp 0 ∧ setState.direct 0 ∧ setState.settled ∧ (setState.me.rx 8).toNat % 128 = 0 ∧
    (∀ j, j < 16 → (setState.me.reg j).st = .retired) ∧ (descriptorAt setState 0x3000).mfc ≠ 3 ∧
    (descriptorAt setState 0x3000).check 0 (setState.me.reg (descriptorAt setState 0x3000).ixq) = none ∧
    (descriptorAt setState 0x3000).ringBytes ≤ (setState.limits 0).2.2 := by
  rw [setState_desc]
  exact ⟨⟨rfl, ⟨rfl, rfl, by decide⟩, by decide⟩, alone_direct _ _ rfl, (alone_plain _ _).tosettled, by decide,
    fun j _ => setState_retired j, by decide, by decide, by decide⟩
/-- The register is not the launch's (QCNT 0), DROPPING, LIVE, the address is misaligned, the descriptor is all zero, and the
ring is larger than the loft (LOFTT 0). -/
theorem witness_QsetRefuses :
    let s0 := ({ alone { setting with ctx := some 3 } (memOf 0x3000 desc1.bytes) with ctxs := [(3, { ctx0 with qcnt := 0, loftt := 0 })] } : State)
    let drop := ({ setting with q := Vector.replicate 16 { ResReg.reset with st := .dropping } } : Slot)
    let live := ({ setting with q := Vector.replicate 16 { ResReg.reset with st := .live } } : Slot)
    (setState.acts ∧ setState.pushes ∧ setState.trapsAtOnce) ∧ (s0.limits 0).2.1 ≤ 0 ∧ (drop.reg 0).st = .dropping ∧ (live.reg 0).st = .live ∧
      (setState.me.rx 1).toNat % 128 ≠ 0 ∧ (descriptorAt (alone setting []) 0x3000).check 0 ResReg.reset = some 8 ∧
      (s0.limits 0).2.2 < desc1.ringBytes ∧ desc1.check 0 ResReg.reset = none :=
  ⟨⟨rfl, ⟨rfl, rfl, by decide⟩, alone_traps _ _ (.inl rfl) rfl⟩, by decide, by decide, by decide, by decide, by decide +kernel, by decide,
    by decide⟩
/-- A slot whose registers are all DROPPING, or whose q0 is LIVE. -/
def dropping1 : Slot := { run with q := Vector.replicate 16 { ResReg.reset with st := .dropping } }
def living1 : Slot := { run with q := (Vector.replicate 16 ResReg.reset).setIfInBounds 0 live1 }

theorem living1_unindexed : ∀ j : Nat, j < 16 → ¬ ((living1.reg j).st = .live ∧ (living1.reg j).desc.ixd ≠ 7 ∧ (living1.reg j).desc.ixq = 0) := by
  have : ∀ j : Fin 16, ¬ ((living1.reg j.val).st = .live ∧ (living1.reg j.val).desc.ixd ≠ 7 ∧ (living1.reg j.val).desc.ixq = 0) := by decide
  exact fun j h => this ⟨j, h⟩
theorem witness_Qdrop : (alone run []).setsUp 15 ∧ ((alone run []).me.reg 15).st ≠ .live ∧ (alone living1 []).setsUp 0 ∧
    ((alone living1 []).me.reg 0).st = .live ∧
    ((dropping1.reg 0).st = .dropping ∧ (dropping1.reg 0).lanesSee = false ∧ (dropping1.reg 0).wbs = [] ∧ dropping1.queue = []) ∧
    ∃ e ∈ (dropping1.qMarked (wordOf (.qdrop 0))).queue,
      e.p = true ∧ e.kind = .qMarker ∧ e.word.toNat / 2 ^ 25 = 0x69 ∧ e.word.toNat / 2 ^ 21 % 16 = 0 :=
  ⟨⟨rfl, alone_pushes [], by decide⟩, by decide, ⟨rfl, ⟨rfl, rfl, by decide⟩, by decide⟩, by decide,
    ⟨by decide, by decide, by decide, rfl⟩, _, List.mem_singleton.mpr rfl, rfl, rfl, by decide, by decide⟩
theorem witness_Qstat :
    let s0 := ({ alone { run with ctx := some 3 } [] with ctxs := [(3, { ctx0 with qcnt := 8 })] } : State)
    s0.acts ∧ (7 : Nat) < (s0.limits 0).2.1 ∧ (s0.limits 0).2.1 ≤ 8 ∧ s0.trapsAtOnce :=
  ⟨rfl, by decide, by decide, ⟨.inl rfl, rfl, rfl⟩⟩
/-- A QWAIT whose delivery has landed, one that waits, and one for a delivery that does not exist. -/
theorem witness_Waits :
    let done := ({ living1 with qdone := Vector.replicate 16 1, x := xs [1, 2] } : Slot)
    let still := ({ living1 with x := xs [1, 2] } : Slot)
    (alone done []).acts ∧ (done.rx 1).toNat ≤ deliveriesOf (done.reg 0) ∧ done.rx 1 ≤ vat done.qdone 0 0 ∧
      vat still.qdone 0 0 < still.rx 1 ∧ (still.rx 1).toNat ≤ deliveriesOf (still.reg 0) ∧ (still.reg 0).st ≠ .retired ∧
      deliveriesOf (still.reg 0) < (still.rx 2).toNat ∧ (alone still []).trapsAtOnce :=
  ⟨rfl, by decide, by decide, by decide, by decide, by decide, by decide, alone_traps _ _ (.inl rfl) rfl⟩
/-- LANDED with no bit of the mask, and with its lowest at 0 and at 63. -/
theorem witness_Ffrdy : (alone run []).acts ∧ (0#64 &&& 5#64 = 0) ∧ (1#64 &&& 5#64).getLsbD 0 = true ∧
    (0x8000000000000000#64 &&& BitVec.allOnes 64).getLsbD 63 = true ∧
    ∀ i : Fin 63, (0x8000000000000000#64 &&& BitVec.allOnes 64).getLsbD i.val = false := ⟨rfl, rfl, rfl, by decide, by decide⟩
/-- A delivery that lands. -/
def landing : Slot := { run with q := (Vector.replicate 16 ResReg.reset).setIfInBounds 0 { live1 with gens := [gen1 false], cells := [] } }

theorem landing_regs (j : Nat) (h : j < 16) :
    (landing.reg j).wbs = [] ∧ ∀ g ∈ (landing.reg j).gens.take ((landing.reg j).past + 1), g.released = true := by
  have : ∀ j : Fin 16, (landing.reg j.val).wbs = [] ∧ ∀ g ∈ (landing.reg j.val).gens.take ((landing.reg j.val).past + 1), g.released = true := by
    decide
  exact this ⟨j, h⟩
theorem witness_Deliveries : LandsNext (alone landing []) 0 0 (gen1 false) ∧ desc1.plainSet ∧
    (∀ a ∈ desc1.coords (gen1 false).ks, elementOk desc1 a) :=
  ⟨⟨alone_direct _ _ rfl, alone_plain _ _, ⟨rfl, nofun⟩, .inl rfl, ⟨rfl, rfl, rfl, rfl⟩, ⟨rfl, rfl, rfl, rfl, rfl⟩, ⟨by decide, rfl⟩,
    fun j hj => landing_regs j hj, rfl⟩, ⟨by decide, by decide, by decide, by decide⟩, by unfold elementOk; decide⟩
/-- The set gated by a watermark at 0x5000: it asks for more than 3. -/
def descW : Desc := { desc1 with flags := desc1.flags + 0x200000000#64, waddr := 0x5000 }
theorem witness_Watermark :
    let g := { gen1 false with gate := false }
    let sl := ({ run with q := (Vector.replicate 16 ResReg.reset).setIfInBounds 0 { live1 with desc := descW, gens := [g] } } : Slot)
    (alone sl []).direct 0 ∧ (alone sl []).plain ∧ (alone sl []).fills 0 ∧ sl.cst ≠ .faulted ∧ (sl.reg 0).st ≠ .retired ∧ (sl.reg 0).gens = [g] ∧
      g.n < (sl.reg 0).created ∧ descW.gateHi g.ks = some 3 ∧ (3 : Int) < memNat [(0x5000, 4)] 0x5000 8 ∧
      (memNat [(0x5000, 3)] 0x5000 8 : Int) ≤ 3 :=
  ⟨alone_direct _ _ rfl, alone_plain _ _, .inl rfl, nofun, nofun, rfl, by decide, by decide, by decide, by decide⟩
/-- A box of two elements that has moved by one: element 0, dirty, leaves, and element 1 stays. -/
def descM : Desc :=
  { desc1 with
    flags := BitVec.ofNat 64 (1 + 2 ^ 9 + 2 ^ 10 + 7 * 2 ^ 16 + 4 * 2 ^ 25 + 4 * 2 ^ 29)
    box := (Vector.replicate 6 0).setIfInBounds 0 (BitVec.ofNat 64 (2 * 2 ^ 32 + 2 ^ 48)) }
def leaving : Slot :=
  { run with
    q := (Vector.replicate 16 ResReg.reset).setIfInBounds 0 { live1 with
      desc := descM, created := 2, gens := [{ gen1 false with
        n := 1, ks := Vector.replicate 6 1, old := some (Vector.replicate 6 0), released := false }]
      cells := [{ cell1 with dirty := true }, { cell1 with co := [1] }] } }
theorem leaving_regs (j : Nat) (h : j < 16) : (leaving.reg j).desc.ixd = 7 ∨ (leaving.reg j).st = .retired := by
  have : ∀ j : Fin 16, (leaving.reg j.val).desc.ixd = 7 ∨ (leaving.reg j.val).st = .retired := by decide
  exact this ⟨j, h⟩
theorem witness_Leaving : (alone leaving []).fills 0 ∧ leaving.cst ≠ .faulted ∧ (leaving.reg 0).st ≠ .retired ∧ (leaving.reg 0).lanesSee = true ∧
    (leaving.reg 0).paired = false ∧ descM.plainSet ∧
    (descM.inSet (Vector.replicate 6 0) [0] && !descM.inSet (Vector.replicate 6 1) [0]) = true ∧
    (descM.inSet (Vector.replicate 6 0) [1] && !descM.inSet (Vector.replicate 6 1) [1]) = false :=
  ⟨.inl rfl, nofun, nofun, rfl, rfl, ⟨by decide, by decide, by decide, by decide⟩, by decide, by decide⟩
theorem witness_Writebacks :
    let w : Writeback := { elems := [[(0x20000, [1, 2, 3, 4])]], causePc := 0, fail := none, raised := false }
    let sl := ({ run with q := (Vector.replicate 16 ResReg.reset).setIfInBounds 0 { live1 with wbs := [w] } } : Slot)
    (sl.reg 0).wbs = [w] ∧ (alone sl []).direct 0 ∧ (alone sl []).plain ∧
      w.fail = none ∧ w.raised = false ∧ w.lost = [] ∧ sl.cst ≠ .faulted ∧ ∀ p ∈ w.elems.flatten, p.2 ≠ [] ∧ p.1 < 2 ^ 57 ∧ p.1 % 2 ^ 52 + p.2.length ≤ hbmBytes :=
  ⟨rfl, alone_direct _ _ rfl, alone_plain _ _, rfl, rfl, rfl, nofun, by decide⟩

/-! ### Hypotheses that are met: groups -/

/-- A group of two threads in slots 0 and 1, with a barrier at 0x10 that expects two. -/
def grp0 : Group :=
  { st := .bound, cluster := 0, slots := [some 0, some 1], ended := [false, false], bars := [(0x10, { count := 0, expect := 2, phase := false })]
    badBars := [], boundAt := 0 }
/-- A thread of it. -/
def member (f0 : Nat) : Slot := { run with ctx := some 3, f0 := f0, cst := .running, x := xs [0x10, 5, 0x20, 1] }
/-- The part with the two threads of the group. -/
def grouped (a b : Slot) (g : Group) : State :=
  { State.reset with slots := [(0, a), (1, b)], ctxs := [(3, { ctx0 with groups := [(0, g)] })] }

theorem grouped_core (a b : Slot) (g : Group) (c : Nat) : (grouped a b g).coreAt c = Core.reset := vat_replicate _ _ _ _ rfl

theorem member_performed (f0 : Nat) : (member f0).performed := performed_of _ rfl rfl

theorem grouped_flushes (a b : Slot) (g : Group) (c : Nat) : (grouped a b g).flushes c := by
  unfold State.flushes; rw [grouped_core]; exact fun b hb => nomatch hb

/-- x1 names the barrier that expects two, x3 one that expects none yet, x2 no barrier. -/
theorem witness_Barriers :
    let s := grouped (member 0) (member 1) grp0
    s.atBarrier (s.me.rx 1) 0x10 false 3 grp0 ∧ s.atBarrier (s.me.rx 3) 0x20 false 3 grp0 ∧ s.cur < 1024 ∧ s.flushes 0 ∧
      s.me.tr.froz = false ∧ s.me.performed ∧ 0 < (s.me.rx 2).toNat ∧ (s.me.rx 2).toNat < 2 ^ 32 ∧ (grp0.barAt 0x10).expect ≠ 0 ∧
      (grp0.barAt 0x20).expect = 0 ∧ s.acts ∧ s.trapsAtOnce ∧ s.barrierIllegal (s.me.rx 2) :=
  ⟨⟨rfl, by decide, ⟨rfl, rfl⟩, ⟨_, rfl, by decide⟩, nofun⟩, ⟨rfl, by decide, ⟨rfl, rfl⟩, ⟨_, rfl, by decide⟩, nofun⟩, by decide,
    grouped_flushes _ _ _ _, rfl, member_performed 0, by decide, by decide, by decide, by decide, rfl, ⟨.inl rfl, rfl, rfl⟩,
    .inr (.inl (by decide))⟩
/-- The barrier behind the last of the 256 bytes of the group area, counts of 0 and 2^32, and a frozen queue. -/
theorem witness_BarrierEdges :
    let s := grouped { member 0 with x := xs [0x100, 0, 0x100000000] } (member 1) grp0
    let f := grouped { member 0 with tr := { TrapRegs.reset with froz := true } } (member 1) grp0
    s.acts ∧ s.trapsAtOnce ∧ s.barrierIllegal (s.me.rx 1) ∧ s.me.rx 2 = 0 ∧ 2 ^ 32 ≤ (s.me.rx 3).toNat ∧
      f.acts ∧ f.trapsAtOnce ∧ f.me.tr.froz = true :=
  ⟨rfl, ⟨.inl rfl, rfl, rfl⟩, .inr (.inr ⟨3, _, rfl, rfl, by decide⟩), rfl, by decide, rfl, ⟨.inl rfl, rfl, rfl⟩, rfl⟩
theorem witness_Wmark :
    let marked := ({ pointers with phase := .marked } : Slot)
    ((alone pointers []).acts ∧ (alone pointers []).pushes ∧ (pointers.rx 8).toNat % 8 = 0 ∧ pointers.phase = .fresh) ∧
    ((alone marked []).acts ∧ marked.tr.vu = true ∧ marked.phase = .marked ∧ marked.performed ∧
      (alone marked []).reaches 0 (marked.rx 8) 8 ∧ (alone marked []).plain) ∧
    (alone pointers []).trapsAtOnce ∧ (pointers.rx 9).toNat % 8 ≠ 0 :=
  ⟨⟨rfl, ⟨rfl, rfl, by decide⟩, by decide, rfl⟩,
    ⟨rfl, rfl, rfl, performed_of _ rfl rfl, alone_reaches _ _ _ _ rfl (by decide) (by decide) (by decide), alone_plain _ _⟩,
    alone_traps _ _ (.inl rfl) rfl, by decide⟩
/-- The part with a queue 0. -/
def queued (sl : Slot) (m : List Host.Cell) (q : Hq) : State :=
  { alone sl m with hqs := (Vector.replicate 64 Hq.reset).setIfInBounds 0 q }
/-- An empty queue with its ring at 0x8000. -/
def ring0 : Hq := { Hq.reset with base := 0x8000, st := .idle }
theorem queued_direct (sl : Slot) (m : List Host.Cell) (q : Hq) (h : bitAt sl.ptroot 0 = false) : (queued sl m q).direct 0 :=
  let d := alone_direct sl m h
  ⟨d.inPart, d.root, d.reqs, d.watch⟩
theorem queued_plain (sl : Slot) (m : List Host.Cell) (q : Hq) : (queued sl m q).plain := ⟨⟨rfl, rfl, rfl⟩, (alone_plain sl m).caches⟩
/-- x8 = 0x1000 holds a packet for queue 0 (x0); x9 = 4 is misaligned, and queue 4 is DISABLED. -/
theorem witness_Launch :
    let s := queued pointers [] ring0
    s.launches (s.me.rx 8) (s.me.rx 0).toNat ∧ s.acts ∧ s.trapsAtOnce ∧ (s.me.rx 9).toNat % 64 ≠ 0 ∧
      (s.me.rx 8).toNat % 64 = 0 ∧ 63 < (s.me.rx 8).toNat ∧ (s.hqAt (s.me.rx 9).toNat).st = .disabled :=
  ⟨⟨rfl, ⟨queued_direct _ _ _ rfl, ⟨rfl, rfl, rfl⟩, by decide, by decide, by decide⟩, queued_plain _ _ _, performed_of _ rfl rfl,
      ⟨by decide, by decide, by decide⟩, by decide, ⟨by decide, by decide, by decide⟩⟩,
    rfl, ⟨.inl rfl, rfl, rfl⟩, by decide, by decide, by decide, by decide⟩
/-- A push to thread 1 (x4), whose register v2 is armed empty or not, and one to thread 0 itself (x0) or to a thread that has ended. -/
theorem witness_Vpush :
    let armed := { member 1 with lane := { Lane.reset with femask := 4 } }
    let a := grouped (member 0) armed grp0
    let b := grouped (member 0) (member 1) grp0
    (Instr.vpush 2 4 5 0).wf = true ∧ (a.pushesTo (a.me.rx 4).toNat 1 grp0 ∧ a.me.cap = (a.slot 1).cap ∧ a.me.cap.toNat ≤ 5 ∧
      ∀ r, 2 ≤ r → r < 2 + 1 → (a.slot 1).lane.femask.getLsbD r = true) ∧
    (b.pushesTo (b.me.rx 4).toNat 1 grp0 ∧ (b.slot 1).lane.femask.getLsbD 2 = false) ∧
    (b.acts ∧ b.trapsAtOnce ∧ b.me.tr.vu = true ∧ b.me.tr.froz = false ∧ b.me.queue = [] ∧ (b.me.rx 0).toNat = b.me.f0) ∧
    let e := grouped (member 0) (member 1) { grp0 with ended := [false, true] }
    (e.acts ∧ e.trapsAtOnce ∧ e.me.ctx = some 3 ∧ ∃ g, e.groupAt 3 e.me.group = some g ∧ g.ended.getD (e.me.rx 4).toNat true = true ∧
      g.ended.length ≤ (e.me.rx 2).toNat) ∧
    let o := grouped (member 0) { armed with cap := 4 } grp0
    (o.pushesTo (o.me.rx 4).toNat 1 grp0 ∧ o.trapsAtOnce ∧ o.me.cap ≠ (o.slot 1).cap ∧
      ∀ r, 2 ≤ r → r < 2 + 1 → (o.slot 1).lane.femask.getLsbD r = true) ∧
    let f := grouped { member 0 with tr := { TrapRegs.reset with froz := true } } (member 1) grp0
    f.acts ∧ f.trapsAtOnce ∧ f.me.tr.vu = true ∧ f.me.tr.froz = true := by
  have hp : ∀ l, (grouped (member 0) { member 1 with lane := l } grp0).pushesTo 1 1 grp0 := fun l =>
    ⟨rfl, ⟨rfl, rfl, rfl⟩, ⟨3, rfl, rfl⟩, ⟨Nat.one_ne_zero, Nat.one_ne_zero⟩, ⟨rfl, rfl, rfl, nofun, nofun⟩,
      fun o _ h => absurd h (Nat.not_lt_zero _)⟩
  have h2 : ∀ r, 2 ≤ r → r < 2 + 1 → ({ Lane.reset with femask := 4 } : Lane).femask.getLsbD r = true := fun r h1 h2 => by
    cases show r = 2 by omega
    decide
  exact ⟨rfl, ⟨hp _, rfl, by decide, h2⟩, ⟨hp Lane.reset, by decide⟩, ⟨rfl, ⟨.inl rfl, rfl, rfl⟩, rfl, rfl, rfl, rfl⟩,
    ⟨rfl, ⟨.inl rfl, rfl, rfl⟩, rfl, _, rfl, rfl, by decide⟩,
    ⟨⟨rfl, ⟨rfl, rfl, rfl⟩, ⟨3, rfl, rfl⟩, ⟨Nat.one_ne_zero, Nat.one_ne_zero⟩, ⟨rfl, rfl, rfl, nofun, nofun⟩,
      fun o _ h => absurd h (Nat.not_lt_zero _)⟩, ⟨.inl rfl, rfl, rfl⟩, by decide, h2⟩, rfl, ⟨.inl rfl, rfl, rfl⟩, rfl, rfl⟩
theorem witness_Endk :
    let sl := { member 0 with st := .drain, cause := 9 }
    let s := grouped sl (member 1) grp0
    ((alone run []).acts ∧ (alone run []).pushes ∧ (alone run []).me.tr.inh = false) ∧
    sl.st = .drain ∧ sl.cause = 9 ∧ sl.pend = none ∧ sl.performed ∧ (∀ j, j < 16 → (sl.reg j).st = .retired) ∧ sl.ctx = some 3 ∧
      (∃ c, s.ctxOf (some 3) = some c ∧ c.st = .running) ∧ s.halted = false ∧ s.groupAt 3 sl.group = some grp0 ∧ grp0.st = .bound ∧
      (grp0.ended.set sl.f0 true).all id = false ∧
      (∀ p ∈ s.slots, p.2.ctx = some 3 → p.2.st ≠ .vacant → p.2.cst = .running) ∧
      (∃ p ∈ s.slots, p.1 ≠ 0 ∧ p.2.ctx = some 3 ∧ p.2.st ≠ .vacant ∧ p.2.group = sl.group) ∧ s.flushes (coreOf 0) := by
  refine ⟨⟨rfl, alone_pushes [], rfl⟩, rfl, rfl, rfl, performed_of _ rfl rfl, fun j _ => ?_, rfl, ⟨_, rfl, rfl⟩, rfl, rfl, rfl, rfl, ?_,
    ⟨(1, member 1), List.mem_cons_of_mem _ (List.mem_singleton.mpr rfl), by decide, rfl, nofun, rfl⟩, grouped_flushes _ _ _ _⟩
  · rw [reset_regs _ rfl j]; rfl
  · intro p hp _ _
    rcases List.mem_cons.mp hp with rfl | hp
    · rfl
    · cases List.mem_singleton.mp hp; rfl

/-! ### Hypotheses that are met: pages -/

/-- A result is a certain value. -/
def okIs {α : Type} [DecidableEq α] (r : Res α) (v : α) : Bool := match r with | .ok x => decide (x = v) | .error _ => false
theorem of_okIs {α : Type} [DecidableEq α] {r : Res α} {v : α} (h : okIs r v = true) : r = .ok v := by
  unfold okIs at h
  split at h
  · rw [of_decide_eq_true h]
  · cases h
/-- Eight bytes in memory. -/
def at8 (pa v : Nat) : List Host.Cell := memOf pa (toBytes 8 v)
/-- Tables at pages 0x10 to 0x13: page 1 may move, page 2 receives, page 3 holds descriptors and words; pages 5, 7 and 8 carry
marks to pages 6, 5 and 7. -/
def tables (w0 w1 : Nat) : List Host.Cell :=
  at8 0x100000 0x110001 ++ at8 0x110000 0x120001 ++ at8 0x120000 0x130001 ++ at8 0x130008 0x3000AF ++ at8 0x130010 0x31002F ++
    at8 0x130018 0x32002F ++ at8 0x130028 0x62003 ++ at8 0x130038 0x52003 ++ at8 0x130040 0x72003 ++ at8 0x320000 w0 ++ at8 0x320008 w1
/-- Core 0, whose TLB holds page 3. -/
def holding : Core := { Core.reset with tlb := [{ asid := 0, vpage := 3, level := 3, pte := 0x32002F }] }
/-- The part with a privileged slot in the address space of the tables; x1 = 0x30000, x2 = 0x20000 and x3 = 0x10001. -/
def mapped (w0 w1 : Nat) (ops : Vector (Option DroverOp) 4) : State :=
  { alone { privileged with ptroot := 0x100001, x := xs [0x30000, 0x20000, 0x10001] } (tables w0 w1) with
    cores := (Vector.replicate 64 Core.reset).setIfInBounds 0 holding, drover := ops }
/-- No operation, one in place 0, and one in every place. -/
def noOp : Vector (Option DroverOp) 4 := Vector.replicate 4 none
def oneOp (o : DroverOp) : Vector (Option DroverOp) 4 := noOp.setIfInBounds 0 (some o)

theorem mapped_l1 (w0 w1 : Nat) (ops : Vector (Option DroverOp) 4) (c : Nat) : ((mapped w0 w1 ops).coreAt c).l1 = [] := by
  show (vat ((Vector.replicate 64 Core.reset).setIfInBounds 0 holding) c Core.reset).l1 = []
  unfold vat
  rw [Vector.getElem?_setIfInBounds]
  split
  · rfl
  · simp only [Vector.getElem?_replicate]; split <;> rfl
theorem mapped_plain (w0 w1 : Nat) (ops : Vector (Option DroverOp) 4) : (mapped w0 w1 ops).plain := ⟨⟨rfl, rfl, rfl⟩, mapped_l1 w0 w1 ops⟩

/-- An address of page 3 is reached at its place by the drover and by a core that holds the page. -/
theorem page3 {s : State} {acc : Acc} (va : X64) {t : Target} (hs : s.svc.offParts = [] ∧ s.poison = [])
    (h : s.walkFrom 4 0 0x10 va.toNat = .ok (some (3, 0x32002F, 0x130018))) (ha : va.toNat % 8 = 0) (hv : va.toNat < 2 ^ 57)
    (hp : permFault 0x32002F true acc false false = none) (ht : leafTarget 3 0x32002F va.toNat = t ∧ t.onHost = false) :
    s.translate 64 0x100001 true acc 8 va = .ok (s, .ok t va 0 none) :=
  ht.1 ▸ State.translate_leaf (u := s) ha hv (by decide) hs.1 rfl (State.leafOf_walk (by decide) h) (by decide)
    (by rw [ht.1, ht.2]; exact hp) hs.2
theorem held3 (w0 w1 : Nat) (ops : Vector (Option DroverOp) 4) :
    (mapped w0 w1 ops).translate 0 0x100001 true .read 8 0x30000 = .ok (mapped w0 w1 ops, .ok (.loc 0x320000) 0x30000 0 none) :=
  State.translate_leaf (e := 0x32002F) (level := 3) (by decide) (by decide) (by decide) rfl rfl
    (State.leafOf_hit (t := { asid := 0, vpage := 3, level := 3, pte := 0x32002F }) rfl) (by decide) (by decide) rfl

theorem witness_Invalidates :
    let s := mapped 0 0 noOp
    let t : Tlbi := { asid := 0, page := some 3, thread := some (threadIdOf s 0), drover := none, received := [] }
    s.acts ∧ s.me.tr.priv = true ∧ (s.me.rx 1).toNat / 2 % 2 ^ 15 = 0 ∧ (s.me.rx 0).toNat / 2 % 2 ^ 15 = 0 ∧ s.cur < 1024 ∧ s.flushes 0 ∧ s.trapsAtOnce ∧
      (0xFFFE#64).toNat / 2 % 2 ^ 15 ≠ 0 ∧ s.me.queue = [] ∧ s.tlbis = [] ∧ ({ s with tlbis := [t] } : State).tlbis = t :: [] ∧
      t.thread = some (threadIdOf s s.cur) ∧ 63 ∉ t.received ∧ s.reqs = [] ∧ s.held = [] ∧
      (let e : Tlbi := { t with received := List.range 64 }; e.drover = none ∧ ∀ j, j < 64 → j ∈ e.received) ∧
      dropsEntry t { asid := 0, vpage := 3, level := 3, pte := 0x32002F } :=
  ⟨rfl, rfl, by decide, by decide, by decide, fun b hb => (by rw [mapped_l1] at hb; cases hb), ⟨.inl rfl, rfl, by decide⟩, by decide, rfl, rfl,
    rfl, rfl, nofun, rfl, rfl,
    ⟨rfl, fun j hj => List.mem_range.mpr hj⟩, rfl, fun p hp => by cases hp; exact .inl rfl⟩
theorem witness_RelmoveBusy :
    let s := mapped 0x10000 0 (Vector.replicate 4 (some (.sweep 0 0 0 0 0 0 false)))
    s.readsDesc (s.me.rx 1) 0x320000 0x10000 0 ∧ s.reportsTo s.me.ptroot (s.me.rx 1) 3 0x320010 ∧
      (∀ i, i < 4 → (vat s.drover i none).isSome = true) ∧ (s.me.rx 1).toNat % 32 = 0 ∧ (s.me.rx 2).toNat % 2 ^ 16 = 0 := by
  refine ⟨⟨rfl, rfl, by decide, mapped_plain _ _ _, rfl, held3 _ _ _, by decide, by decide +kernel⟩,
    ⟨page3 0x30010 ⟨rfl, rfl⟩ (of_okIs (by decide +kernel)) (by decide) (by decide) (by decide) (by decide),
      page3 0x30018 ⟨rfl, rfl⟩ (of_okIs (by decide +kernel)) (by decide) (by decide) (by decide) (by decide), by decide, nofun, rfl,
      mapped_l1 _ _ _⟩, ?_, by decide, by decide⟩
  intro i hi
  have : ∀ i : Fin 4, (vat (mapped 0x10000 0 (Vector.replicate 4 (some (.sweep 0 0 0 0 0 0 false)))).drover i.val none).isSome = true := by decide
  exact this ⟨i, hi⟩
/-- Page 1 moves to page 2 by the operation of place 0. -/
def fwd1 : Fwd := { old := 0x30, new := 0x31, upto := 0, ahead := [], op := 0, page := 0, ea := 0x130008, pte := 0x3010AF }
theorem witness_RelmoveStarts :
    let s := mapped 0x10000 0 noOp
    let marked := storeNat s.mem 0x130008 8 0x3010AF
    let u : State := { s with mem := marked, fwds := [fwd1] }
    s.readsDesc (s.me.rx 1) 0x320000 0x10000 0 ∧ u.reportsTo s.me.ptroot (s.me.rx 1) 1 0x320010 ∧ vat s.drover 0 none = none ∧
      movesPage s s.me.ptroot 0x10000 (s.me.rx 2) 0 0 fwd1 ∧ 0x10000 + 1 * 65536 ≤ (s.me.rx 2).toNat :=
  ⟨⟨rfl, rfl, by decide, mapped_plain _ _ _, rfl, held3 _ _ _, by decide, by decide +kernel⟩,
    ⟨page3 0x30010 ⟨rfl, rfl⟩ (of_okIs (by decide +kernel)) (by decide) (by decide) (by decide) (by decide),
      page3 0x30018 ⟨rfl, rfl⟩ (of_okIs (by decide +kernel)) (by decide) (by decide) (by decide) (by decide), by decide,
        by decide, rfl, mapped_l1 0x10000 0 noOp⟩, by decide,
    ⟨0x3000AF, 0x130008, 0x31002F, 0x130010, of_okIs (by decide +kernel), of_okIs (by decide +kernel), by decide, by decide,
      by decide, by decide, by decide, by decide, by decide,
      by decide, by decide, by decide, by decide⟩, by decide⟩
/-- The first and the last line of a page, and the end of a move. -/
theorem witness_Drover :
    let o := fun (i m : Nat) => DroverOp.move 0x100001 0x30000 0x10000 0x20000 1 0 i m none
    let s := fun (j : Nat) => ({ alone run (at8 0x130008 0x3010AF) with
      drover := oneOp (o 0 0), fwds := [{ fwd1 with ahead := List.range j }] } : State)
    (∀ j, (s j).poison = [] ∧ (s j).svc.offParts = [] ∧ (∀ c, ((s j).coreAt c).l1 = []) ∧ vat (s j).drover 0 none = some (o 0 0) ∧
      (s j).fwds = [{ fwd1 with ahead := List.range j }] ∧ memNat (s j).mem fwd1.ea 8 = fwd1.pte.toNat) ∧
    fwd1.old * 65536 + 65535 < hbmBytes ∧ fwd1.new * 65536 + 65535 < hbmBytes ∧ fwd1.old ≠ fwd1.new ∧ fwd1.upto = 0 ∧ fwd1.ea % 8 = 0 ∧ fwd1.ea / 65536 ≠ fwd1.old ∧ fwd1.ea / 65536 ≠ fwd1.new ∧
    let e : State := mapped 0 0 (oneOp (o 1 1))
    let u : State := { e with fwds := [], tlbis := [], drover := e.drover.setIfInBounds 0 none }
    vat e.drover 0 none = some (o 1 1) ∧ e.tlbis = [] ∧ e.held = [] ∧ e.reqs = [] ∧ u.reportsTo 0x100001 0x30000 (1 % 2 ^ 40 * 2 ^ 24 + 2) 0x320010 :=
  ⟨fun _ => ⟨rfl, rfl, fun c => congrArg Core.l1 (alone_core run [] c), rfl, rfl,
    by show memNat (at8 0x130008 0x3010AF) fwd1.ea 8 = fwd1.pte.toNat; decide +kernel⟩,
    by decide, by decide, by decide, rfl, by decide, by decide, by decide, by decide, rfl, rfl, rfl, ⟨page3 0x30010 ⟨rfl,
      rfl⟩ (of_okIs (by decide +kernel)) (by decide) (by decide) (by decide) (by decide),
      page3 0x30018 ⟨rfl, rfl⟩ (of_okIs (by decide +kernel)) (by decide) (by decide) (by decide) (by decide), by decide, nofun, rfl, mapped_l1 _ _ _⟩⟩
/-- SWEEP with a free place. -/
theorem witness_SweepStarts :
    let s := mapped 0x30040 8 noOp
    let u : State := { s with
      drover := s.drover.setIfInBounds 0 (some (.sweep s.me.ptroot 0x30000 0x30040 (0x30040 + 8) (s.me.rx 0).toNat 0 false)) }
    s.readsDesc (s.me.rx 1) 0x320000 0x30040 8 ∧ u.reportsTo s.me.ptroot (s.me.rx 1) 1 0x320010 ∧ (s.me.rx 0).toNat < 2 ^ 7 :=
  ⟨⟨rfl, rfl, by decide, mapped_plain _ _ _, rfl, held3 _ _ _, by decide, by decide +kernel⟩,
    ⟨page3 0x30010 ⟨rfl, rfl⟩ (of_okIs (by decide +kernel)) (by decide) (by decide) (by decide) (by decide),
      page3 0x30018 ⟨rfl, rfl⟩ (of_okIs (by decide +kernel)) (by decide) (by decide) (by decide) (by decide), by decide, nofun,
        rfl, mapped_l1 0x30040 8 noOp⟩, by decide⟩
/-- A sweep of two words, and one at its end. -/
def sweeping : State := mapped 0x50008 0x70000 (oneOp (.sweep 0x100001 0x30000 0x30000 0x30048 0 5 false))
def swept : State := mapped 0 0 (oneOp (.sweep 0x100001 0x30000 0x30048 0x30048 0 5 false))
/-- Words whose address has no mark, one hop, two hops and three. -/
theorem witness_SweepWords :
    sweeping.pageLeaf 0x100001 0x60008 = .ok none ∧ sweeping.pageLeaf 0x100001 0x50008 = .ok (some (0x62003, 0x130028)) ∧
      sweeping.pageLeaf 0x100001 0x70000 = .ok (some (0x52003, 0x130038)) ∧
      sweeping.pageLeaf 0x100001 0x80000 = .ok (some (0x72003, 0x130040)) ∧ 2 ≤ fld 0x62003 12 2 ∧ 2 ≤ fld 0x52003 12 2 ∧
      2 ≤ fld 0x72003 12 2 ∧ fld 0x62003 57 7 = 0 ∧ hopped 0x62003 0x50008 = 0x60008 ∧ hopped 0x52003 0x70000 = 0x50000 ∧
      hopped 0x72003 0x80000 = 0x70000 :=
  ⟨of_okIs (by decide +kernel), of_okIs (by decide +kernel), of_okIs (by decide +kernel), of_okIs (by decide +kernel), by decide,
    by decide, by decide, by decide, by decide, by decide, by decide⟩
theorem witness_Sweep :
    (sweeping.sweepsAt 0 0x100001 0x30000 0x30000 0x30048 0 5 false 0x320000 ∧ memNat sweeping.mem 0x320000 8 = (0x50008#64).toNat) ∧
    let v : State := { swept with drover := swept.drover.setIfInBounds 0 none }
    vat swept.drover 0 none = some (.sweep 0x100001 0x30000 0x30048 0x30048 0 5 false) ∧ swept.reqs = [] ∧
      v.reportsTo 0x100001 0x30000 (5 % 2 ^ 40 * 2 ^ 24 + 2) 0x320010 :=
  ⟨⟨⟨⟨by decide, rfl⟩, by decide, mapped_plain _ _ _, rfl, page3 0x30000 ⟨rfl,
    rfl⟩ (of_okIs (by decide +kernel)) (by decide) (by decide) (by decide) (by decide),
      page3 0x30000 ⟨rfl, rfl⟩ (of_okIs (by decide +kernel)) (by decide) (by decide) (by decide) (by decide), by decide⟩, by decide +kernel⟩,
    rfl, rfl, ⟨page3 0x30010 ⟨rfl, rfl⟩ (of_okIs (by decide +kernel)) (by decide) (by decide) (by decide) (by decide),
      page3 0x30018 ⟨rfl, rfl⟩ (of_okIs (by decide +kernel)) (by decide) (by decide) (by decide) (by decide), by decide, nofun,
        rfl, mapped_l1 0 0 (oneOp (.sweep 0x100001 0x30000 0x30048 0x30048 0 5 false))⟩⟩

/-! ### Hypotheses that are met: images, stopped threads and links -/

/-- A privileged slot without vector state, whose x8 is an image address and x9 is none. -/
def bare : Slot := { pointers with tr := { TrapRegs.reset with priv := true, vu := false } }
/-- The same with vector state. -/
def full : Slot := { pointers with tr := { TrapRegs.reset with priv := true } }

theorem image_of (sl : Slot) (m : List Host.Cell) (va : X64) (ha : bitAt sl.ptroot 0 = false) (hs : sl.stageLive = true) (hp : sl.tr.priv = true)
    (hv : va.toNat % 256 = 0 ∧ va.toNat < 2 ^ 57) (hi : physOf va + 610304 ≤ hbmBytes) : (alone sl m).hasImage va :=
  ⟨hs, hp, alone_direct sl m ha, alone_plain _ _, hv, hi⟩

/-- A slot that owes memory a writeback and a dirty element of q0; its image lies at 0x100000. -/
def owing : Slot :=
  { full with
    x := xs [0, 0, 0, 0, 0, 0, 0, 0x100000]
    q := (Vector.replicate 16 ResReg.reset).setIfInBounds 0 { live1 with
      cells := [{ cell1 with dirty := true }], wbs := [{ elems := [[(0x30000, [1, 2])]], causePc := 0, fail := none, raised := false }] } }

theorem owing_owes : owedBy owing = [(0x30000, [1, 2]), (0x20000, [77, 0, 0, 0])] := by decide +kernel

theorem other_reg (sl : Slot) (r : ResReg) (h : sl.q = (Vector.replicate 16 ResReg.reset).setIfInBounds 0 r) {q : Nat} (hq : q ≠ 0) :
    sl.reg q = ResReg.reset := by
  unfold Slot.reg
  rw [h, vat_setIfInBounds_ne _ _ _ hq]
  exact vat_replicate _ _ _ _ rfl

theorem owing_pays : owing.paysAt 0x100000 := by
  refine ⟨fun q _ h => ?_, ?_, ?_, ?_⟩
  · by_cases h0 : q = 0
    · subst h0; exact ⟨rfl, rfl, rfl, rfl⟩
    · rw [other_reg owing _ rfl h0] at h
      obtain ⟨c, hc, _⟩ := h
      exact absurd hc (List.not_mem_nil)
  all_goals rw [owing_owes]; decide

/-- An image of what the thread owes, at a queue that runs, without vector state, and at a misaligned address. -/
theorem witness_Vsave :
    ((alone owing []).hasImage (owing.rx 8) ∧ owing.paysAt (physOf (owing.rx 8)) ∧ owing.tr.vu = true ∧ owing.queue = [] ∧ owing.cap.toNat ≤ 5 ∧
      owing.lane.vext.toNat ≤ 32 ∧ owing.queue.length ≤ 64) ∧
    ((alone bare []).acts ∧ bare.tr.priv = true ∧ (bare.rx 8).toNat % 256 = 0 ∧ bare.tr.vu = false) ∧
    (let w := ({ full with queue := waiting.queue } : Slot)
     w.tr.vu = true ∧ w.queue ≠ [] ∧ w.tr.froz = false) ∧
    (alone full []).acts ∧ (alone full []).trapsAtOnce ∧ (full.rx 9).toNat % 256 ≠ 0 :=
  ⟨⟨image_of _ _ _ rfl rfl rfl (by decide) (by decide), owing_pays, rfl, rfl, by decide, by decide, by decide⟩, ⟨rfl, rfl, by decide, rfl⟩,
    ⟨rfl, List.cons_ne_nil _ _, rfl⟩, rfl, alone_traps _ _ (.inl rfl) rfl, by decide⟩
/-- An image with CAP 5, a live q0 and an empty queue, one of FORMAT 0, a queue that still runs, and a slot with vector state. -/
theorem witness_Vrest :
    let m := memOf 0x1000 (toBytes 8 0x50001) ++ memOf 0x1060 [1] ++ memOf 0x2200 desc1.bytes
    ((alone bare m).hasImage (bare.rx 8) ∧ bare.tr.vu = false ∧ bare.queue = [] ∧ bare.q = Vector.replicate 16 ResReg.reset ∧
      memNat m 0x1000 8 = 0x50001 ∧ memNat m 0x1058 8 = 0 ∧
      ((List.range 16).filter fun q => (memNat m 0x1060 8).testBit q) = [0] ∧
      let d := Desc.parse ((List.range 128).map fun i => Memory.read m (0x2200 + i))
      d.mfc ≠ 3 ∧ d.shv = false) ∧
    (let w := ({ bare with queue := waiting.queue } : Slot)
     w.tr.vu = false ∧ ¬ (w.queue = [] ∨ w.tr.froz = true)) ∧
    ((alone full []).acts ∧ full.tr.priv = true ∧ (alone full []).trapsAtOnce ∧ full.tr.vu = true) ∧
    (alone bare []).hasImage (bare.rx 8) ∧ (alone bare []).trapsAtOnce ∧ memNat [] 0x1000 8 % 2 ^ 16 ≠ 1 :=
  ⟨⟨image_of _ _ _ rfl rfl rfl (by decide) (by decide), rfl, rfl, rfl, by decide +kernel, by decide +kernel, by decide +kernel, by decide +kernel⟩,
    ⟨rfl, nofun⟩, ⟨rfl, rfl, alone_traps _ _ (.inl rfl) rfl, rfl⟩,
    image_of _ _ _ rfl rfl rfl (by decide) (by decide), alone_traps _ _ (.inl rfl) rfl, by decide +kernel⟩
theorem witness_Idle :
    let sl := { member 0 with tr := { TrapRegs.reset with priv := true, vu := false } }
    let s := grouped sl (member 1) grp0
    (s.acts ∧ s.me.tr.priv = true ∧ s.me.tr.vu = false ∧ s.me.queue = [] ∧ (∀ q, q < 16 → (s.me.reg q).st = .retired) ∧ s.cur < 1024 ∧
      s.halted = false ∧ s.me.ctx = some 3 ∧ (∃ c, s.ctxOf (some 3) = some c ∧ c.st = .running) ∧
      s.groupAt 3 s.me.group = some grp0 ∧ grp0.st = .bound ∧ grp0.ended.all id = false ∧
      (∀ p ∈ s.slots, p.2.ctx = some 3 → p.2.st ≠ .vacant → p.2.cst = .running) ∧
      (∃ p ∈ s.slots, p.1 ≠ s.cur ∧ p.2.ctx = some 3 ∧ p.2.st ≠ .vacant ∧ p.2.group = s.me.group) ∧ s.flushes 0) ∧
    (alone full []).acts ∧ full.tr.priv = true ∧ (alone full []).trapsAtOnce ∧ full.tr.vu = true := by
  refine ⟨⟨rfl, rfl, rfl, rfl, fun j _ => ?_, by decide, rfl, rfl, ⟨_, rfl, rfl⟩, rfl, rfl, rfl, ?_,
    ⟨(1, member 1), List.mem_cons_of_mem _ (List.mem_singleton.mpr rfl), Nat.one_ne_zero, rfl, nofun, rfl⟩, grouped_flushes _ _ _ _⟩, rfl, rfl,
      alone_traps _ _ (.inl rfl) rfl, rfl⟩
  · show (({ member 0 with tr := { TrapRegs.reset with priv := true, vu := false } } : Slot).reg j).st = .retired
    rw [reset_regs _ rfl j]; rfl
  · intro p hp _ _
    rcases List.mem_cons.mp hp with rfl | hp
    · rfl
    · cases List.mem_singleton.mp hp; rfl
/-- A far load whose page is REMOTE, and its READ with an outcome. -/
def loadR : Instr := .ldf .thread 1 8 0 .s32 false false false
def slotR : Slot := { heads1 loadR 0x30000 1 ResReg.reset with ptroot := 0x100001 }
def readR (o : ReqOutcome) : LinkReq :=
  { tag := 0, port := 2, owner := 1, kind := 2, part := 0x50, addr := 0x10000, len := 4, elem := 0, eva := 0x30000, va := 0x30000, outcome := o }
/-- A far store with a request on its way. -/
def storing : Slot := { heads (.stf .thread 1 8 0 .s32 false false false) 0x30000 1 with preempt := true }
/-- Pending, put off by a handler, taken at once, with a far load's request open or none, and a far store whose request is still open. -/
theorem witness_Preemption :
    let a := ({ waiting with preempt := true } : Slot)
    run.st ≠ .vacant ∧ (State.reset.slot 0).st = .vacant ∧ ({ a with tr := { a.tr with inh := true } } : Slot).preempt = true ∧
      (a.preempt = true ∧ a.tr.inh = false ∧ a.st ≠ .vacant ∧ a.st ≠ .stop ∧ a.pend = none ∧ (alone a []).reqs = [] ∧
        (∀ d, a.phase ≠ .pushed d) ∧ (∀ d v, a.phase ≠ .value d v)) ∧
      (let l := { heads loadR 0x30000 1 with preempt := true }
       ∀ r ∈ [readR .waiting], r.owner = 4 * 0 + 1 → l.headStores = false ∧ (l.headLoads = true → r.lost = false)) ∧
      let s := ({ alone storing [] with reqs := [{ readR .waiting with kind := 1 }] } : State)
      storing.headStores = true ∧ (∃ r ∈ s.reqs, r.owner = 4 * 0 + 1) ∧ (∀ r ∈ s.reqs, r.owner ≠ 4 * 0) ∧ s.halted = false ∧
        storing.pend = none ∧ storing.tr.inh = false ∧ storing.st = .run ∧ storing.phase = .fresh ∧
        bitAt (s.coreAt (coreOf 0)).dbg.trctl 0 = false :=
  ⟨nofun, rfl, rfl, ⟨rfl, rfl, nofun, nofun, rfl, rfl, nofun, nofun⟩,
    fun r hr _ => by cases List.mem_singleton.mp hr; exact ⟨rfl, fun _ => rfl⟩, rfl, ⟨_, List.mem_singleton.mpr rfl, rfl⟩,
    fun r hr => by cases List.mem_singleton.mp hr; decide, rfl, rfl, rfl, rfl, rfl, rfl⟩
theorem witness_StoppedThreads :
    let sl := ({ run with st := .stop } : Slot)
    sl.st = .stop ∧ (∃ l, laneCsrSet sl.lane 3 0 = some l) ∧ sl.queue = [] ∧ (∃ r, sliceCsrSet sl 0 7 0x005 = some r) ∧ run.st ≠ .stop :=
  ⟨rfl, ⟨_, rfl⟩, rfl, ⟨_, rfl⟩, nofun⟩
/-- A counter event for k0 that moves no register, and one that moves q0 on. -/
theorem witness_CounterEvents :
    let e : Entry := { (entry .jmpRet 0) with kind := .counter, ins := none, named := 1 }
    let d : Desc := { desc1 with flags := desc1.flags &&& ~~~ 0x1C0000000000#64 }
    let r : ResReg := { live1 with desc := d, created := 2, gens := [gen1 true, { gen1 true with n := 1 }] }
    let a := ({ run with queue := [e] } : Slot)
    let b := ({ a with q := (Vector.replicate 16 ResReg.reset).setIfInBounds 0 r } : Slot)
    a.queue = e :: [] ∧ e.kind = .counter ∧ a.tr.froz = false ∧ a.pend = none ∧ a.cst ≠ .faulted ∧ a.st ≠ .stop ∧
      bitAt ((alone a []).coreAt (coreOf 0)).dbg.trctl 0 = false ∧ ((alone a []).claimLanes 0).isSome = true ∧
      ((alone b []).claimLanes 0).isSome = true ∧ (∀ m ∈ b.queue, m.kind ≠ .qMarker) ∧
      (∀ q, q < 16 → ¬ advances e (a.reg q)) ∧ advances e (b.reg 0) ∧
      (∃ g, (b.reg 0).gens[(b.reg 0).past + 1]? = some g ∧ g.n < (b.reg 0).created) ∧ ∀ q, 1 ≤ q → q < 16 → ¬ advances e (b.reg q) := by
  intro e d r a b
  have hb : b.reg 0 = r := rfl
  refine ⟨rfl, rfl, rfl, rfl, nofun, nofun,
    by rw [alone_core]; exact (by decide : bitAt DebugBlock.reset.trctl 0 = false), alone_claims a [] (Nat.zero_le 32),
    alone_claims b [] (Nat.zero_le 32), fun m hm => by cases List.mem_singleton.mp hm; nofun, fun q _ h => ?_,
    by rw [hb]; exact ⟨nofun, rfl, by decide⟩, ⟨{ gen1 true with n := 1 }, by rw [hb]; rfl, by decide⟩, fun q h1 h2 h => ?_⟩
  · exact h.1 (by rw [reset_regs _ rfl q]; rfl)
  · refine h.1 ?_
    show (vat ((Vector.replicate 16 ResReg.reset).setIfInBounds 0 _) q ResReg.reset).st = .retired
    unfold vat
    rw [Vector.getElem?_setIfInBounds, if_neg (by omega)]
    simp only [Vector.getElem?_replicate]; split <;> rfl
def entR : TlbEnt := { asid := 0, vpage := 3, level := 3, pte := BitVec.ofNat 64 (2 ^ 57 + 2 * 2 ^ 53 + 0x50 * 2 ^ 40 + 0x1002F) }
def coreR : Core := { core0 with tlb := [entR] }
def remote (o : ReqOutcome) : State :=
  { alone slotR [] with
    cores := (Vector.replicate 64 Core.reset).setIfInBounds 0 coreR, reqs := [readR o] }
theorem remote_core (o : ReqOutcome) : (remote o).coreAt (coreOf 0) = coreR := rfl
theorem remote_atHead (o : ReqOutcome) : AtHead (remote o) 0 loadR (entry loadR 0x30000) :=
  ⟨⟨by decide, ⟨nofun, nofun⟩, rfl, ⟨nofun, rfl, rfl⟩, fun j hj _ => by
      show ((alone slotR []).slot j).queue = []
      rw [alone_other slotR [] hj]; rfl, by rw [remote_core]; decide,
      Option.isSome_iff_exists.mpr ⟨_, State.claimLanes_whole rfl (show 1 ≤ 32 by decide) (show 0 < coreR.held 0 by decide)⟩,
      show 5 ≤ 5 by decide, by rw [remote_core]; decide, by rw [remote_core]; decide⟩, rfl, rfl, rfl, rfl,
    fun r _ _ => by show (0#32).getLsbD r = false; simp⟩
/-- Its request has gone, and its answer is there. -/
theorem witness_RemoteLoads : ∀ o, o = .waiting ∨ o = .ok [1, 2, 3, 4] →
    let n := (remote o).lenv 0 (entry loadR 0x30000)
    AtHead (remote o) 0 loadR (entry loadR 0x30000) ∧ loadR.wf = true ∧ n.l.vl = 1 ∧ n.l.vstart = 0 ∧ n.l.gov 0 = true ∧
      (∀ j, j < 8 → vat ((remote o).coreAt (coreOf 0)).dbg.dbk j 0 = 0) ∧ ((remote o).slot 0).fenced ∧ (remote o).reqs = [readR o] ∧ (readR o).owner = 4 * 0 + 1 ∧
      (readR o).kind = 2 ∧ (readR o).len = Ty.s32.bits / 8 ∧ (entry loadR 0x30000).scalar.toNat % (Ty.s32.bits / 8) = 0 ∧
      (remote o).translate (coreOf 0) ((remote o).slot 0).ptroot ((remote o).slot 0).tr.priv .read 4 0x30000 =
        .ok (remote o, .ok (.far 2 0x50 0x10000 0) 0x30000 0 none) :=
  fun o _ => ⟨remote_atHead o, rfl, rfl, rfl, one0, fun j _ => vat_replicate _ _ _ _ rfl,
    fenced_of _ (heads1_none loadR 0x30000 1), rfl, rfl, rfl, rfl, by decide,
    (by
      show (remote o).translate (coreOf 0) 0x100001 false .read 4 0x30000 = _
      exact State.translate_leaf (va := 0x30000) (pt := 0x100001) (core := 0) (align := 4) (level := 3) (e := entR.pte)
        (by decide) (by decide) (by decide) rfl rfl
        (State.leafOf_hit (t := entR) (by rw [show (remote o).coreAt 0 = coreR from rfl]; decide)) (by decide) (by decide) rfl)⟩

/-! ### Hypotheses that are met: the core and the debug blocks -/

/-- The part with core 0 given. -/
def cored (sl : Slot) (x : Core) : State := { alone sl [] with cores := (Vector.replicate 64 Core.reset).setIfInBounds 0 x }
theorem cored_l1 (sl : Slot) (x : Core) (h : x.l1 = []) (c : Nat) : ((cored sl x).coreAt c).l1 = [] := by
  by_cases h0 : c = 0
  · subst h0; exact h
  · show (vat ((Vector.replicate 64 Core.reset).setIfInBounds 0 x) c Core.reset).l1 = []
    rw [vat_setIfInBounds_ne _ _ _ h0, vat_replicate _ _ _ _ rfl]; rfl
theorem cored_at (sl : Slot) (x : Core) : (cored sl x).coreAt 0 = x := rfl

/-- IDs 2 and 5 are active at a refill; 2 issues after 5, 5 after 2, and neither without a token. -/
theorem witness_Ports :
    let old : List Piece := [{ id := 2, old := true }, { id := 5, old := true }]
    let x := { Core.reset with pieces := old, issued := [5], buckets := [(2, 3), (5, 1)], lastId := some 5 }
    ([2, 5].Pairwise (· < ·) ∧ ∀ j, j ∈ [2, 5] ↔ j ∈ x.issued ∨ ∃ p ∈ x.pieces, p.old = true ∧ p.id = j) ∧ issuesNext x 2 ∧
      issuesNext { x with lastId := some 2 } 5 ∧ issuesNext { x with lastId := none } 2 ∧ ∀ j, ¬ mayIssue { x with buckets := [] } j := by
  have h2 : ∀ (b : List (Nat × Nat)) (l : Option Nat) (j : Nat), mayIssue { Core.reset with
      pieces := [{ id := 2, old := true }, { id := 5, old := true }], issued := [5], buckets := b, lastId := l } j → j = 2 ∨ j = 5 := by
    intro b l j h
    obtain ⟨_, p, hp, rfl⟩ := h
    rcases List.mem_cons.mp hp with rfl | hp
    · exact .inl rfl
    · cases List.mem_singleton.mp hp; exact .inr rfl
  refine ⟨⟨by decide, fun j => ?_⟩, ⟨⟨by decide, _, List.mem_cons_self .., rfl⟩, .inr ⟨fun j hj => ?_, fun j hj => ?_⟩⟩,
    ⟨⟨by decide, _, List.mem_cons_of_mem _ (List.mem_singleton.mpr rfl), rfl⟩, .inl ⟨by decide, fun j hj h => ?_⟩⟩,
    ⟨⟨by decide, _, List.mem_cons_self .., rfl⟩, fun j hj => ?_⟩, fun j h => Nat.lt_irrefl 0 h.1⟩
  · simp; omega
  · rcases h2 _ _ j hj with rfl | rfl <;> decide
  · rcases h2 _ _ j hj with rfl | rfl <;> decide
  · rcases h2 _ _ j hj with rfl | rfl <;> omega
  · rcases h2 _ _ j hj with rfl | rfl <;> decide
/-- HALT with a thread that runs, at a device that is halted already, and a drain that has reached its limit. -/
theorem witness_Debug :
    let d := ({ run with st := .stop, stopping := true } : Slot)
    let h := ({ alone d [] with halted := true } : State)
    (alone run []).halted = false ∧ (alone run []).untracedPart ∧
      (∀ k d v, ((alone run []).slot k).phase ≠ .pushed d ∧ ((alone run []).slot k).phase ≠ .value d v) ∧ (alone run []).ctxs = [] ∧
      h.halted = true ∧ (h.slot 0).st = .stop ∧ (h.slot 0).stopping = true ∧
      ∀ d v, (h.slot 0).phase ≠ .pushed d ∧ (h.slot 0).phase ≠ .value d v := by
  refine ⟨rfl, fun c => by rw [alone_core]; exact (by decide : bitAt DebugBlock.reset.trctl 0 = false), fun k d v => ?_, rfl,
    rfl, rfl, rfl, fun d v => ⟨nofun, nofun⟩⟩
  by_cases h : k = 0
  · subst h; exact ⟨nofun, nofun⟩
  · rw [alone_other _ _ h]; exact ⟨nofun, nofun⟩
/-- A core that samples its only thread every 1,024 cycles. -/
theorem witness_Samples :
    let d := { DebugBlock.reset with trctl := 0x40000400001#64, trbase := 0x40000 }
    let s := cored run { Core.reset with dbg := d }
    d.trctl.toNat / 2 ^ 32 % 2 ^ 16 ≠ 0 ∧ d.trctl.getLsbD 0 = true ∧ d.trctl.getLsbD 22 = true ∧ d.trfull = false ∧ s.plain ∧
      d.trbase.toNat / 2 ^ 12 % 2 ^ 40 * 2 ^ 12 + 32 * 0 + 32 ≤ hbmBytes ∧ (s.coreAt 0).dbg = d ∧
      (s.slot 0).st ≠ .vacant ∧ ∀ j, j < 16 → j ≠ 0 → (s.slot (16 * 0 + j)).st = .vacant :=
  ⟨by decide, by decide, by decide, rfl, ⟨⟨rfl, rfl, rfl⟩, cored_l1 _ _ rfl⟩, by decide, rfl, nofun, fun j _ hj => by
    show ((alone run []).slot (16 * 0 + j)).st = .vacant
    rw [alone_other _ _ (show 16 * 0 + j ≠ 0 by omega)]; rfl⟩

/-! ### Hypotheses that are met: queues and launches -/

/-- The booted part without a slot, with queue 0, launches and some memory. -/
def served (q : Hq) (cs : List (Nat × Ctx)) (m : List Host.Cell) : State :=
  { State.reset with
    hqs := (Vector.replicate 64 Hq.reset).setIfInBounds 0 q, ctxs := cs, mem := m, svc := { Service.reset with boot := 4 } }
theorem served_plain (q : Hq) (cs : List (Nat × Ctx)) (m : List Host.Cell) : (served q cs m).plain :=
  ⟨⟨rfl, rfl, rfl⟩, fun _ => congrArg Core.l1 (vat_replicate _ _ _ _ rfl)⟩
/-- A queue with its ring at 0x8000 and one packet. -/
def one : Hq := { Hq.reset with base := 0x8000, tail := 1, st := .active }
/-- Memory with words from an address on. -/
def words (pa : Nat) (l : List Nat) : List Host.Cell := memOf pa (l.flatMap (toBytes 8))
/-- The words of a list, 0 beyond it. -/
def wordsOf (l : List Nat) (i : Nat) : X64 := BitVec.ofNat 64 (l.getD i 0)

theorem one_ring : physOf (ringAddr one one.head) = 0x8000 := by decide

/-- The head packet is read from the ring. -/
theorem headIs_open (o : Nat) (cs : List (Nat × Ctx)) (m : List Host.Cell) (l : List Nat)
    (h : ∀ i : Fin 8, memNat m (0x8000 + 8 * i.val) 8 = (wordsOf l i.val).toNat) :
    (served { one with opn := o } cs m).headIs 0 (wordsOf l) :=
  ⟨⟨rfl, rfl, by decide⟩, ⟨nofun, nofun, show one.head ≠ one.tail by decide⟩,
    show (one.tail - one.head).toNat ≤ 64 * 2 ^ (one.base.toNat % 16) by decide, show bitAt 0 0 = false by decide, served_plain _ _ _, rfl,
    have d : (ringAddr one one.head).toNat < 2 ^ 57 ∧ physOf (ringAddr one one.head) + 64 ≤ hbmBytes := by decide
    .inl ⟨rfl, d.1, d.2, fun i hi => by
      rw [show physOf (ringAddr ((served { one with opn := o } cs m).hqAt 0) ((served { one with opn := o } cs m).hqAt 0).head) = 0x8000
        from one_ring]
      exact h ⟨i, hi⟩⟩⟩
theorem headIs_of (cs : List (Nat × Ctx)) (m : List Host.Cell) (l : List Nat)
    (h : ∀ i : Fin 8, memNat m (0x8000 + 8 * i.val) 8 = (wordsOf l i.val).toNat) : (served one cs m).headIs 0 (wordsOf l) :=
  headIs_open 0 cs m l h
theorem zeros_of (l : List Nat) (n : Nat) (h : l.length ≤ n) (i : Nat) (hi : n ≤ i) : wordsOf l i = 0 := by
  simp [wordsOf, List.getElem?_eq_none (Nat.le_trans h hi)]

/-- The form of a packet with a scope in word j. -/
theorem form_of (l : List Nat) (type used : Nat) (scope : Option Nat) (h : (wordsOf l 0).toNat % 2 ^ 8 = type)
    (h0 : (wordsOf l 0).toNat / 2 ^ 10 % 2 ^ 22 = 0) (hl : l.length ≤ used) (hs : ∀ j ∈ scope, (wordsOf l j).toNat ≤ 4) :
    packetForm (wordsOf l) type used scope := ⟨h, h0, fun i hi _ => zeros_of _ used hl i hi, fun j hj => hs j hj⟩
/-- A WAIT-WORD for 5 at 0x1000: the word is 5, and 4; and one that stays behind an open launch. -/
theorem witness_PacketsWait :
    let p := [0x302, 0x1000, 5, 3]
    ((served one [] (words 0x1000 [5] ++ words 0x8000 p)).headIs 0 (wordsOf p) ∧
      packetOk (served one [] (words 0x1000 [5] ++ words 0x8000 p)) 0 (wordsOf p) 2 4 (some 3) ∧ wholeIn (wordsOf p 1) 8 8 ∧
      (wordsOf p 2).toNat ≤ memNat (words 0x1000 [5] ++ words 0x8000 p) 0x1000 8) ∧
    (memNat (words 0x1000 [4] ++ words 0x8000 p) 0x1000 8 < (wordsOf p 2).toNat ∧ one.st ≠ .blocked) ∧
    (served { one with opn := 1 } [] (words 0x8000 p)).headIs 0 (wordsOf p) ∧ packetForm (wordsOf p) 2 4 (some 3) ∧
      (wordsOf p 0).getLsbD 8 = true := by
  have f : packetForm (wordsOf [0x302, 0x1000, 5, 3]) 2 4 (some 3) := form_of _ _ _ _ (by decide) (by decide) (by decide) (by decide)
  exact ⟨⟨headIs_of _ _ _ (by decide +kernel), ⟨f, fun _ => rfl⟩, ⟨by decide, by decide, by decide⟩, by decide +kernel⟩,
    ⟨by decide +kernel, nofun⟩, headIs_open 1 _ _ _ (by decide +kernel), f, by decide⟩
/-- A WRITE-WORD at an aligned address and at a misaligned one, a MARKER, a packet of type 5, more packets than the ring holds, and an
ACTIVE queue without one. -/
theorem witness_Packets :
    let p := [0x3, 0x1000, 5, 3]
    let b := [0x3, 0x1004, 5, 3]
    let m := [0x7700000004]
    let tooMany := ({ one with tail := 65 } : Hq)
    ((served one [] (words 0x8000 p)).headIs 0 (wordsOf p) ∧ packetOk (served one [] (words 0x8000 p)) 0 (wordsOf p) 3 4 (some 3) ∧
      wholeIn (wordsOf p 1) 8 8) ∧
    ((served one [] (words 0x8000 b)).headIs 0 (wordsOf b) ∧ packetOk (served one [] (words 0x8000 b)) 0 (wordsOf b) 3 4 (some 3) ∧
      (wordsOf b 1).toNat % 8 ≠ 0) ∧
    ((served one [] (words 0x8000 m)).headIs 0 (wordsOf m) ∧ packetOk (served one [] (words 0x8000 m)) 0 (wordsOf m) 4 1 none) ∧
    ((served one [] (words 0x8000 [5])).headIs 0 (wordsOf [5]) ∧ 4 < (wordsOf [5] 0).toNat % 2 ^ 8) ∧
    (tooMany.st ≠ .disabled ∧ tooMany.st ≠ .faulted ∧ tooMany.head ≠ tooMany.tail ∧
      64 * 2 ^ (tooMany.base.toNat % 16) < (tooMany.tail - tooMany.head).toNat) ∧
    ({ one with tail := 0 } : Hq).st = .active ∧ ({ one with tail := 0 } : Hq).head = ({ one with tail := 0 } : Hq).tail :=
  ⟨⟨headIs_of _ _ _ (by decide +kernel), ⟨form_of _ _ _ _ (by decide) (by decide) (by decide) (by decide), fun _ => rfl⟩,
      ⟨by decide, by decide, by decide⟩⟩,
    ⟨headIs_of _ _ _ (by decide +kernel), ⟨form_of _ _ _ _ (by decide) (by decide) (by decide) (by decide), fun _ => rfl⟩, by decide⟩,
    ⟨headIs_of _ _ _ (by decide +kernel), form_of _ _ _ _ (by decide) (by decide) (by decide) nofun, fun _ => rfl⟩,
    ⟨headIs_of _ _ _ (by decide +kernel), by decide⟩, ⟨nofun, nofun, by decide, by decide⟩, rfl, rfl⟩
/-- A queue whose head has a WRITE on its way, one whose head has none, and one that waits for its word. -/
theorem witness_QueueRegisters :
    let r := { readR .waiting with owner := queueOwner 0, kind := 1 }
    (∃ x ∈ [r], x.owner = queueOwner 0 ∧ x.kind = 1) ∧ (∀ x ∈ ([] : List LinkReq), x.owner ≠ queueOwner 0) ∧
      one.st ≠ .disabled ∧ Hq.reset.st = .disabled ∧ ({ one with st := .blocked, memWait := true } : Hq).memWait = true :=
  ⟨⟨_, List.mem_singleton.mpr rfl, rfl, rfl⟩, nofun, nofun, rfl, rfl⟩
/-- A kernel object: code at 0x10000 of 16 bytes, two threads in three groups, LGWISH 8. -/
def object1 : List Nat := [1, 0x10000, 16, 0, 0x201, 2, 3, 1, 1, 1, 1, 8 + 4 * 2 ^ 8 + 4 * 2 ^ 16, 65536 + 256 * 2 ^ 32]
theorem object1_ok : ObjectOk (wordsOf object1) :=
  ⟨⟨by decide, fun i h _ => zeros_of _ 13 (by decide) i h, by decide⟩, by decide, by decide, by decide, by decide, by decide, by
    have : ∀ i : Fin 6, 1 ≤ (wordsOf object1 (5 + i.val)).toNat ∧
        (wordsOf object1 (5 + i.val)).toNat ≤ 2 ^ ((wordsOf object1 4).toNat / 2 ^ (8 * i.val) % 2 ^ 8) := by decide
    exact fun i h => this ⟨i, h⟩, by decide, by decide⟩
/-- A LAUNCH with the object at 0x1000 and the record at 0x2000. -/
theorem witness_Launches :
    let p := [1, 0x1000, 0x2000, 0x3000, 3]
    let s := served one [] (words 0x1000 object1 ++ words 0x8000 p)
    s.headIs 0 (wordsOf p) ∧ packetOk s 0 (wordsOf p) 1 5 (some 4) ∧ wholeIn (wordsOf p 1) 256 256 ∧ wholeIn (wordsOf p 2) 256 256 ∧
      (wordsOf p 3).toNat % 8 = 0 ∧ one.opn < 16 ∧ (wordAt s 0x2000 0).toNat % 16 = 0 ∧ (wordAt s 0x2000 1).getLsbD 0 = false ∧
      (∀ i : Fin 32, wordAt s 0x1000 i.val = wordsOf object1 i.val) ∧ s.ctxs = [] := by
  exact ⟨headIs_of _ _ _ (by decide +kernel), ⟨form_of _ _ _ _ (by decide) (by decide) (by decide) (by decide), fun _ => rfl⟩,
    ⟨by decide, by decide, by decide⟩, ⟨by decide, by decide, by decide⟩, by decide, by decide, by decide +kernel,
      by decide +kernel, by decide +kernel, rfl⟩
/-- A launch of three groups of two threads, by spread and by PACK. -/
theorem witness_Placement : ∀ pack : Bool,
    let c := { ctx0 with st := .ready, widths := [1, 2, 0, 0, 0, 0], counts := [2, 3, 1, 1, 1, 1], lgwish := 8, pack := pack }
    ({ served Hq.reset [(3, c)] [] with slots := [] } : State).placesFirst 3 c := by
  intro pack c
  exact ⟨⟨rfl, rfl, rfl, rfl⟩, fun i _ => congrArg Cluster.st (vat_replicate _ _ _ _ rfl), ⟨rfl, rfl, rfl, by decide +revert⟩, by decide +revert,
    by decide +revert, by decide +revert, served_plain _ _ _, ⟨show bitAt 0 0 = false by decide, ⟨by decide +revert,
      by decide +revert, by decide +revert⟩⟩⟩
/-- A FAULTED launch whose faulted slot is still bound, and an ENDED one. -/
theorem witness_Released :
    let c := { ctx0 with st := .faulted, faultCode := 0x14 }
    let sl := ({ member 0 with st := .stop, cst := .faulted } : Slot)
    let s := ({ alone sl [] with ctxs := [(3, c)] } : State)
    s.ctxs = [(3, c)] ∧ c.word = none ∧ bitAt c.hqroot 0 = false ∧ wholeIn c.crec 8 8 ∧ s.plain ∧ s.reqs = [] ∧ c.hq < 64 ∧ c.st = .faulted ∧ s.slots = [(0, sl)] ∧
      sl.ctx = some 3 ∧ sl.st = .stop ∧ sl.cst = .faulted ∧ wholeIn c.cwaddr 8 8 ∧ c.faultCode < 2 ^ 8 ∧ ({ ctx0 with st := .ended } : Ctx).st = .ended :=
  ⟨rfl, rfl, by decide, ⟨by decide, by decide, by decide⟩, ⟨⟨rfl, rfl, rfl⟩, fun c => congrArg Core.l1 (alone_core run [] c)⟩,
    rfl, by decide, rfl, rfl, rfl, rfl, rfl, ⟨by decide, by decide, by decide⟩, by decide, rfl⟩

/-! ### Hypotheses that are met: links -/

/-- The part with port 0 and open requests. -/
def linked (q : Port) (rs : List LinkReq) : State :=
  { State.reset with ports := (Vector.replicate 16 Port.reset).setIfInBounds 0 q, reqs := rs }
theorem linked_plain (q : Port) (rs : List LinkReq) : (linked q rs).plain :=
  ⟨⟨rfl, rfl, rfl⟩, fun _ => congrArg Core.l1 (vat_replicate _ _ _ _ rfl)⟩
/-- A port that is UP with credit. -/
def upPort : Port := { Port.reset with st := .up, credit := #v[512, 128, 16] }
/-- A WRITE of four bytes at 0x20000 by part 1. -/
def write1 : Packet :=
  { cls := .bulk, dpart := 0, spart := 1, kind := 1, opc := 0, tag := 7, addr := 0x20000, len := 4, status := 0, atype := 0, arm := 0, draw := 0
    data := [1, 2, 3, 4] }
/-- Its flit with SEQ 0 and ACK 4,095, written out from R300 and R301 with the CRC-32 of its bytes. -/
def flit1 : BitVec 1024 := 0x40302010000000000000000000000000000000400000000000200000007000100010000000fff35d6360271
theorem write1_small : write1.small :=
  ⟨by decide, by decide, by decide, ⟨by decide, nofun, fun _ => rfl⟩⟩
theorem witness_LinkStates : ({ Port.reset with st := .errorHeld } : Port).st = .errorHeld ∧ ({ Port.reset with st := .training } : Port).st = .training ∧
    ((linked Port.reset []).portAt 0).st = .down ∧ (linked Port.reset []).svc.offParts = [] ∧ ((linked upPort []).portAt 0).st = .up :=
  ⟨rfl, rfl, rfl, rfl, rfl⟩
/-- Link control first; then a replay; then a whole packet, or the next flit of one begun, chosen by class or by R304. -/
theorem witness_FlitsSent :
    let c := ({ upPort with ctl := [.keepAlive] } : Port)
    let r := ({ upPort with toResend := [flit1] } : Port)
    let w := ({ upPort with wait := (Vector.replicate 3 []).setIfInBounds 0 [write1] } : Port)
    let g := flit1 &&& ~~~ 0xFFFFFF00FFFFFFFF#1024
    let o : OpenPacket := { flits := [g, g], tag := 7, isReq := true, started := true }
    let t := ({ upPort with tx := #v[some o, some o, none] } : Port)
    c.ctl = .keepAlive :: [] ∧ r.ctl = [] ∧ r.toResend = flit1 :: [] ∧
      (w.replay.length < 2048 ∧ w.seq < 4096 ∧ (∀ j : Fin 3, vat w.tx j.val none = none) ∧ (∀ j : Fin 3, j.val ≠ 0 → vat w.wait j.val [] = []) ∧
        vat w.wait 0 [] = write1 :: [] ∧ 0 < vat w.credit 0 0) ∧
      nextClass t 1 ∧ nextClass { t with starve := 48 } 0 ∧ vat t.tx 1 none = some o ∧ g.toNat % 2 ^ 32 = 0 ∧ g.toNat / 2 ^ 40 % 2 ^ 24 = 0 := by
  refine ⟨rfl, rfl, rfl, ⟨by decide, by decide, by decide, by decide, by decide, by decide⟩, ⟨⟨rfl, by decide⟩,
    .inr ⟨fun h => ?_, fun j h1 h2 h => ?_⟩⟩,
    ⟨⟨rfl, by decide⟩, .inl ⟨rfl, by decide⟩⟩, rfl, by decide +kernel, by decide +kernel⟩
  · exact absurd h.2 (by decide)
  · cases show j = 2 by omega
    cases h.1
/-- A flit that is right, a bad one, and replays. -/
theorem witness_FlitsReceived :
    let a := ({ upPort with replay := [flit1 + BitVec.ofNat 1024 (2 ^ 52), flit1] } : Port)
    flitGood flit1 = true ∧ CarriesPacket flit1 write1 ∧ write1.small ∧ flit1.toNat / 2 ^ 52 % 2 ^ 12 = upPort.rxSeq ∧ upPort.replay = [] ∧
      vat upPort.rx 0 none = none ∧ write1.dpart = (linked upPort []).svc.partid ∧ flitGood (flit1 ^^^ BitVec.ofNat 1024 (2 ^ 100)) = false ∧
      a.replay = [flit1 + BitVec.ofNat 1024 (2 ^ 52)] ++ flit1 :: [] ∧ flit1.toNat / 2 ^ 52 % 2 ^ 12 = 0 ∧
      (∀ h ∈ [flit1 + BitVec.ofNat 1024 (2 ^ 52)], h.toNat / 2 ^ 52 % 2 ^ 12 ≠ 0) ∧ a.toResend = [] ∧ a.retryRun + 1 < 16 ∧
      16 ≤ ({ a with retryRun := 15 } : Port).retryRun + 1 :=
  ⟨by decide +kernel, ⟨by decide +kernel, by decide +kernel, by decide +kernel, by decide +kernel⟩, write1_small, by decide +kernel, rfl, rfl, rfl,
    by decide +kernel, rfl, by decide +kernel, fun h hh => by cases List.mem_singleton.mp hh; exact (by decide +kernel), rfl, by decide, by decide⟩
theorem witness_Unanswered :
    let o : OpenPacket := { flits := [flit1], tag := 7, isReq := true, started := true }
    (∀ r ∈ (linked upPort [readR .waiting]).reqs, r.owner < 4096) ∧ vat ({ upPort with tx := #v[some o, none, none] } : Port).tx 0 none = some o ∧
      o.started = true ∧ vat ({ upPort with rx := #v[none, some [flit1], none] } : Port).rx 1 none = some [flit1] :=
  ⟨by decide, rfl, rfl, rfl⟩
/-- A WRITE, a READ and an ATOMIC CAS that have been delivered, and answers that a request waits for or not. -/
theorem witness_Delivered :
    let read1 := ({ write1 with kind := 2, data := [] } : Packet)
    let cas1 := ({ write1 with kind := 4, opc := 7, atype := 4, len := 8, data := [0, 0, 0, 0, 9, 0, 0, 0] } : Packet)
    let data := ({ write1 with kind := 3, tag := 0 } : Packet)
    (∀ k, (linked { upPort with delivered := [k] } []).plain) ∧ write1.kind = 1 ∧ upPort.st = .up ∧ write1.addr + write1.data.length ≤ hbmBytes ∧
      read1.kind = 2 ∧ read1.addr + read1.len ≤ hbmBytes ∧ cas1.kind = 4 ∧ cas1.opc ≤ 7 ∧ 4 ≤ cas1.atype ∧ cas1.atype ≤ 7 ∧ cas1.arm ≤ 4 ∧
      cas1.addr + (Ty.ofCode cas1.atype).bits / 8 ≤ hbmBytes ∧ cas1.data.length = 2 * ((Ty.ofCode cas1.atype).bits / 8) ∧ data.kind = 3 ∧
      (∃ r ∈ [{ readR .waiting with port := 0 }], (r.port == 0 && r.tag == data.tag && r.kind == 2) = true ∧ r.outcome = .waiting) ∧
      ∀ r ∈ [readR .waiting], (r.port == 0 && r.tag == data.tag && r.kind == 2) = true → r.outcome ≠ .waiting :=
  ⟨fun _ => linked_plain _ _, rfl, rfl, by decide, rfl, by decide, rfl, by decide, by decide, by decide, by decide, by decide, by decide, rfl,
    ⟨_, List.mem_singleton.mpr rfl, rfl, rfl⟩, by decide⟩

/-! ### Hypotheses that are met: service and steps -/

/-- The part with a state of its update, and an image at UPSRC 0x40000. -/
def updating (x : Service) : State := { State.reset with svc := x }
theorem updating_l1 (x : Service) (c : Nat) : ((updating x).coreAt c).l1 = [] := congrArg Core.l1 (vat_replicate _ _ _ _ rfl)
theorem updating_ring (x : Service) (h : x.erbase.toNat / 2 ^ 12 % 2 ^ 40 * 2 ^ 12 + 32 * (128 * 2 ^ (x.erbase.toNat % 16)) ≤ hbmBytes) :
    (updating x).ringInMemory := ⟨rfl, updating_l1 x, h⟩
theorem witness_Updates :
    let b := { Service.reset with upst := .draining, upPart := 1, upUnit := 3 }
    let held := ({ updating b with ctxs := [(3, { ctx0 with groups := [(0, { grp0 with cluster := 3 })] })] } : State)
    (Service.reset.upst ≠ .verifying ∧ Service.reset.upst ≠ .draining ∧ Service.reset.upst ≠ .loading) ∧ b.upst = .draining ∧ b.upPart = 1 ∧
      (updating b).ctxs = [] ∧ (∃ c ∈ held.ctxs, ∃ g ∈ c.2.groups, g.2.cluster = 3 ∧ g.2.st = .bound) ∧ unitOk 1 15 ∧ unitOk 3 7 ∧
      ((State.reset).portAt 2).st ≠ .up ∧
      let x := { Service.reset with upst := .loading, upPart := 3, upUnit := 2, offParts := [3 * 256 + 2] }
      x.upst = .loading ∧ unitOk x.upPart x.upUnit ∧ (∀ u ∈ x.offParts, u / 256 = 3 → u = partKey x.upPart x.upUnit) ∧
        (updating { x with offParts := [] }).stacksIn ∧ (updating x).ringInMemory :=
  ⟨⟨nofun, nofun, nofun⟩, rfl, rfl, rfl, ⟨_, List.mem_singleton.mpr rfl, _, List.mem_singleton.mpr rfl, rfl, rfl⟩,
    ⟨by decide, by decide, by decide⟩, ⟨by decide, by decide, by decide⟩, nofun, rfl,
    ⟨by decide, by decide, by decide⟩, by decide, nofun, updating_ring _ (by decide)⟩
/-- An image that lies in HBM and does not pass, whatever its signature: its PART is another. -/
theorem witness_UpdateRejected :
    let s := updating { Service.reset with upst := .verifying, upPart := 1, upsrc := 0x40000 }
    s.svc.upst = .verifying ∧ s.fwds = [] ∧ s.poison = [] ∧ s.stacksIn ∧ s.ringInMemory ∧
      s.svc.upsrc.toNat % 2 ^ 52 + (stagedBytes s.mem (s.svc.upsrc.toNat % 2 ^ 52)).length ≤ hbmBytes ∧
      ¬ Passes s.svc.upPart (stagedBytes s.mem (s.svc.upsrc.toNat % 2 ^ 52)) := by
  refine ⟨rfl, rfl, rfl, nofun, updating_ring _ (by decide), ?_, fun h => absurd h.2.1 (by decide +kernel)⟩
  simp only [stagedBytes, List.length_map, List.length_range]
  decide +kernel
/-- An empty error ring, a full one, and an address of HBM. -/
theorem witness_Errors : ¬ State.reset.ringFull ∧ (updating { Service.reset with eridx := 128 }).ringFull ∧ State.reset.fwds = [] ∧
    State.reset.stacksIn ∧ State.reset.ringInMemory ∧ (0x20000#52).toNat < hbmBytes := by
  refine ⟨?_, ?_, rfl, nofun, updating_ring Service.reset (by decide), by decide⟩ <;> unfold State.ringFull <;> decide
/-- A queue that is DISABLED and one that is not; a booted part; GO. -/
theorem witness_Windows : ((State.reset).hqAt 3).st = .disabled ∧ ((served one [] []).hqAt 0).st ≠ .disabled ∧ (served one [] []).svc.boot = 4 ∧
    (1#64).getLsbD 0 = true := ⟨rfl, nofun, rfl, rfl⟩
theorem witness_HostRequests : State.reset.hostReady ∧ 0x20000 + 8 ≤ hbmBytes ∧ 0x20000 % 8 = 0 ∧ hbmBytes < hbmBytes - 1 + 2 ∧ hbmBytes - 1 < 2 ^ 62 ∧
    (vat State.reset.svc.qown 5 0).getLsbD 7 = false ∧
    let s := updating { Service.reset with boot := 4, qown := (Vector.replicate 64 0).setIfInBounds 5 (BitVec.ofNat 8 (128 + 9)) }
    s.svc.boot = 4 ∧ vat s.svc.qown 5 0 = BitVec.ofNat 8 (128 + 9) :=
  ⟨⟨rfl, fun c => updating_l1 Service.reset c, rfl, rfl⟩, by decide, by decide, by decide, by decide, by decide, rfl, by decide⟩
theorem witness_Spdm : State.reset.spdm.asymOk = false ∧ 1 ≤ (42#8).toNat ∧ (42#8).toNat ≤ 42 ∧
    ({ State.reset with spdm := { negotiated := true, asymOk := true, answers := [] } } : State).spdm.asymOk = true :=
  ⟨rfl, by decide, by decide, rfl⟩
theorem witness_Invariants : State.reset.memoryCanonical ∧ State.reset.capsLegal := ⟨rfl, fun _ => by show 5 ≤ 5; decide⟩
theorem witness_Encodable : (Instr.csrr 5 0x005).encodable = true ∧ decode 0xDC0A5800#32 = .ok (.launch 10 11) := ⟨rfl, rfl⟩
/-- A slice at 0x100 with ENDK, one with a word of the extension block, one with a word that decodes to nothing, and one with
an F32 word whose type is none of ADD's; and a thread of a launch, whose code image holds ENDK where memory holds nothing. -/
theorem witness_Steps :
    let s := fun (w : Word) => ({ alone { run with pc := 0x100 } (at8 0x100 w.toNat) with agenda := [.slice 0] } : State)
    let l := ({ alone { run with pc := 0x100, ctx := some 3 } [] with
      agenda := [.slice 0], ctxs := [(3, { ctx0 with code := 0x100, codelen := 16, codeMem := at8 0x100 0xF6C00000 })] } : State)
    (∀ w : Word, w = 0xF6C00000 ∨ w = 0x30000000 ∨ w = 0xFFFFFFFF ∨ w = 0x0010C110 → (s w).fetches 0 [] w) ∧ l.fetches 0 [] 0xF6C00000 ∧
      decode 0xF6C00000#32 = .ok (.endk .device) ∧ decode 0x30000000#32 = .error .emulation ∧ decode 0xFFFFFFFF#32 = .error .undefined := by
  intro s l
  have place : ∀ (sl : Slot) (m : List Host.Cell), sl.pc = 0x100 → sl.ptroot = 0 → (alone sl m).reaches 0 sl.pc 4 := fun sl m hp hr => by
    rw [hp]; exact alone_reaches _ _ _ _ (by rw [hr]; rfl) (by decide) (by decide) (by decide)
  have hl := place { run with pc := 0x100, ctx := some 3 } [] rfl rfl
  refine ⟨fun w hw => ?_, ⟨rfl, ⟨rfl, rfl⟩, rfl, .inl rfl, .inl rfl, ⟨⟨by decide, show bitAt 0 0 = false by decide, rfl, hl.direct.watch⟩,
    ⟨rfl, rfl, rfl⟩, hl.implemented, hl.aligned, hl.inside⟩,
    by decide +kernel⟩, rfl, rfl, rfl⟩
  have h := place { run with pc := 0x100 } (at8 0x100 w.toNat) rfl rfl
  refine ⟨rfl, ⟨rfl, rfl⟩, rfl, .inl rfl, .inl rfl, ⟨⟨by decide, show bitAt 0 0 = false by decide, rfl, h.direct.watch⟩, ⟨rfl, rfl, rfl⟩,
    h.implemented, h.aligned, h.inside⟩, ?_⟩
  rcases hw with rfl | rfl | rfl | rfl <;> decide +kernel

/-! ### Words written out in the spec and the instructions they stand for -/

/-- Format V, vv, vs, vi and sc forms (R58 to R62, R80; the tables of *Encoding* and *Lane Arithmetic*). -/
theorem test_decode_integer : decode 0x00000000 = .ok (.addVv 0 0 0 .s8 0 .none) ∧ decode 0x018C8560 = .ok (.addSc 3 4 5 .s64 0) ∧
    decode 0x01085F4D = .ok (.addVi 2 2 0x1FD .s32) ∧ decode 0x1814C724 = .ok (.maddVv 5 6 7 .s16 1 .none) := ⟨rfl, rfl, rfl, rfl⟩
theorem test_decode_wide : decode 0x2A082200 = .ok (.wmacVv 2 1 2 .s8 0 .none) ∧ decode 0x2D0C4007 = .ok (.nrshrVi 3 2 7 .s8) := ⟨rfl, rfl⟩
theorem test_decode_float : decode 0x468C24A0 = .ok (.fmaVs 3 1 4 .f32 0) ∧ decode 0x59085FAD = .ok (.fscaleVi 2 2 0x1FD .f32) ∧
    decode 0x5E1080A2 = .ok (.fsgnNeg 4 4 .f32) := ⟨rfl, rfl, rfl⟩
theorem test_decode_convert : decode 0x62048AB4 = .ok (.cvts 1 4 .f32 .f8e4 4) ∧ decode 0x64204BA0 = .ok (.cvtw 8 2 .f8e4 .f32 0) ∧
    decode 0x680D20D0 = .ok (.cbld 3 9) := ⟨rfl, rfl, rfl⟩
theorem test_decode_compare : decode 0x70488540 = .ok (.cmpLtVv 2 4 5 .s32 .none) ∧ decode 0x732420A0 = .ok (.fcmpLtVi 1 1 0 .f32) := ⟨rfl, rfl⟩
theorem test_decode_mask : decode 0x76082000 = .ok (.msbf 2 1) ∧ decode 0x7A1C2000 = .ok (.mpopc 7 1) ∧ decode 0x7C1C2000 = .ok (.mfirst 7 1) ∧
    decode 0x801CC040 = .ok (.compress 7 6 .s32) ∧ decode 0x84180040 = .ok (.iota 6 .s32) := ⟨rfl, rfl, rfl, rfl, rfl⟩
theorem test_decode_reorder : decode 0x86184340 = .ok (.vperm 6 2 3 .s32) ∧ decode 0x8C900960 = .ok (.vbcastVs 4 9 .s64) ∧
    decode 0x8E1843B0 = .ok (.bperm 6 2 3 .f8e4) ∧ decode 0x90204340 = .ok (.vzipZip 8 2 3 .s32) ∧ decode 0x921C4060 = .ok (.vmoveExt 7 2 .s64) ∧
    decode 0x9A214060 = .ok (.vsort 8 10 .s64) ∧ decode 0x98214C70 = .ok (.vmrgLo 8 10 12 .n64) := ⟨rfl, rfl, rfl, rfl, rfl, rfl, rfl⟩
theorem test_decode_reduce : decode 0x94086441 = .ok (.redSum 2 3 4 .s32 true) ∧ decode 0x960864A2 = .ok (.fredTsum 2 3 4 .f32) := ⟨rfl, rfl⟩
theorem test_decode_matrix : decode 0xA00902B3 = .ok (.mmaAccResident 2 8 2 .f8e4 0 3) ∧ decode 0xA1808695 = .ok (.mmaZeroRegister 0 4 6 .bf16 1 1) ∧
    decode 0xA1848C06 = .ok (.mmaZeroRegister 1 4 12 .s8 1 2) ∧ decode 0xA6080000 = .ok (.accz 2) ∧
    decode 0xA2106094 = .ok (.accrd 4 3 .bf16 1 false) ∧ decode 0xA40100A0 = .ok (.accwr 0 8 .f32) ∧ decode 0xA80043E0 = .ok (.dfma 0 2 3 0) :=
  ⟨rfl, rfl, rfl, rfl, rfl, rfl, rfl⟩
theorem test_decode_resident : decode 0xB00202C0 = .ok (.ldr 1 0 5 .f16) ∧ decode 0xB2061340 = .ok (.str 3 1 6 .f16) ∧
    decode 0xB4044350 = .ok (.ldrx 2 4 6 .f32) := ⟨rfl, rfl, rfl⟩
theorem test_decode_far : decode 0xB80284D0 = .ok (.ldf .thread 1 8 9 .f32 false false false) ∧
    decode 0xB8C284D4 = .ok (.ldf .device 1 8 9 .f32 true false false) ∧ decode 0xB80284D2 = .ok (.ldf .thread 1 8 9 .f32 false true false) ∧
    decode 0xBA048350 = .ok (.ldfx .thread 2 8 6 .f32 false false false) ∧ decode 0xBCC684D4 = .ok (.stf .device 3 8 9 .f32 true false false) ∧
    decode 0xBE088330 = .ok (.stfx .thread 4 8 6 .s64 false false false) ∧ decode 0xC006A050 = .ok (.stfm .thread 3 10 0 .f32 false false false) ∧
    decode 0xC2CA8351 = .ok (.scaddFlt .device 5 8 6 .f32) := ⟨rfl, rfl, rfl, rfl, rfl, rfl, rfl, rfl⟩
theorem test_decode_memory : decode 0xC40A8482 = .ok (.ldsW 5 8 9) ∧ decode 0xC60A8483 = .ok (.stsD 5 8 9) ∧
    decode 0xC8CA84B0 = .ok (.amoAdd .device 5 8 9 .s64) ∧ decode 0xCB0A84B0 = .ok (.cas .system 5 8 9 .s64) ∧
    decode 0xCC000000 = .ok (.fenceSv .thread) ∧ decode 0xCC400001 = .ok (.fenceVs .core) ∧ decode 0xCCC00002 = .ok (.fenceVv .device) ∧
    decode 0xCD000003 = .ok (.fenceAll .system) := ⟨rfl, rfl, rfl, rfl, rfl, rfl, rfl, rfl⟩
theorem test_decode_queue : decode 0xD06A0002 = .ok (.qset 3 10 .cluster) ∧ decode 0xD6604801 = .ok (.qstat 3 9 1) ∧
    decode 0xDA064000 = .ok (.ffrdy 6 8) ∧ decode 0xDC0A5800 = .ok (.launch 10 11) := ⟨rfl, rfl, rfl, rfl⟩
theorem test_decode_control : decode 0xE0943A00 = .ok (.loop 2 10 7 1) ∧ decode 0xE2800000 = .ok (.kadv 2) ∧ decode 0xE40E0000 = .ok (.krd 0 7) ∧
    decode 0xE6520000 = .ok (.kset 1 9) ∧ decode 0xEA7FFFFC = .ok (.bc 3 0xFFFFC) ∧ decode 0xEE000000 = .ok .jmpRet ∧ decode 0xEF300000 = .ok (.jmpJr 6) ∧
    decode 0xF1948040 = .ok (.setvl 5 4 .s32) ∧ decode 0xF2280008 = .ok (.liLo 5 8) ∧ decode 0xF3280008 = .ok (.liHi 5 8) ∧
    decode 0xF40A0001 = .ok (.workid 5 1) := ⟨rfl, rfl, rfl, rfl, rfl, rfl, rfl, rfl, rfl, rfl, rfl⟩
theorem test_decode_group : decode 0xF6C00000 = .ok (.endk .device) ∧ decode 0xF8C08480 = .ok (.wmark .device 8 9) ∧
    decode 0xFA808480 = .ok (.barInit .cluster 8 9) ∧ decode 0xFA808010 = .ok (.barArrive .cluster 8) ∧ decode 0xFA808020 = .ok (.barWait .cluster 8) ∧
    decode 0xFA8A8030 = .ok (.barTest .cluster 5 8) ∧ decode 0xFC106101 = .ok (.vpush 8 6 2 1) := ⟨rfl, rfl, rfl, rfl, rfl, rfl, rfl⟩
theorem test_decode_system : decode 0xFE000005 = .ok (.trap 5) ∧ decode 0xFE20000C = .ok (.svc 12) ∧ decode 0xFE670001 = .ok (.csrr 7 1) ∧
    decode 0xFE800926 = .ok (.csrw 1 0x126) ∧ decode 0xFE802822 = .ok (.csrw 5 0x022) ∧ decode 0xFEA04000 = .ok (.tlbi 8) ∧ decode 0xFEC00000 = .ok .tlbs ∧
    decode 0xFEEA5800 = .ok (.sweep 10 11) ∧ decode 0xFF0C6800 = .ok (.relmove 12 13) ∧ decode 0xFF200800 = .ok (.vsave 1) ∧
    decode 0xFF400800 = .ok (.vrest 1) ∧ decode 0xFF600000 = .ok .idle := ⟨rfl, rfl, rfl, rfl, rfl, rfl, rfl, rfl, rfl, rfl, rfl, rfl⟩
/-- The hand-made words of *Encoding*, and what the slice makes of them (R76 to R78, R80). -/
theorem test_decode_refused : decode 0x30000000 = .error .emulation ∧ decode 0x6A000000 = .error .undefined ∧ decode 0x1B000000 = .error .undefined ∧
    decode 0x00800003 = .error .undefined ∧ decode 0x008000FB = .error .undefined ∧ decode 0xFFFFFFFF = .error .undefined ∧
    (decode 0x000000F0 = .ok (.addVv 0 0 0 .t15 0 .none) ∧ (Instr.addVv 0 0 0 .t15 0 .none).typeTrap = some .illegalType) :=
  ⟨rfl, rfl, rfl, rfl, rfl, rfl, rfl, rfl⟩

/-! ### Ill-formed terms that the checks refuse -/

/-- A qualifier outside the type's, for integers, WMAC, scalar floats, conversions, MMA and ACCRD (R61, R64). -/
theorem test_illformed_qualifier : (Instr.addVv 1 2 3 .s32 2 .none).wf = false ∧ (Instr.wmacVv 0 1 2 .s8 2 .none).wf = false ∧
    (Instr.faddSc 1 2 3 .f32 3).wf = false ∧ (Instr.cvtVv 1 2 .s32 .s16 2).wf = false ∧ (Instr.mmaAccRegister 0 4 8 .s8 2 0).wf = false ∧
    (Instr.accrd 0 0 .f32 0 true).wf = false := ⟨rfl, rfl, rfl, rfl, rfl, rfl⟩
/-- A register group that is misaligned or overlaps (R108). -/
theorem test_illformed_group : (Instr.wmulVv 1 2 3 .s8 .none).wf = false ∧ (Instr.cvtw 1 2 .f8e4 .f32 0).wf = false ∧
    (Instr.cvtw 0 2 .f8e4 .f32 0).wf = false ∧ (Instr.vzipZip 1 2 3 .s32).wf = false ∧ (Instr.vsort 2 3 .s64).wf = false ∧
    (Instr.vperm 1 2 3 .s8).wf = false ∧ (Instr.mmaAccRegister 0 3 8 .bf16 0 1).wf = false ∧ (Instr.accwr 0 3 .f32).wf = false ∧
    (Instr.vpush 31 1 2 1).wf = false := ⟨rfl, rfl, rfl, rfl, rfl, rfl, rfl, rfl, rfl⟩
/-- A scope without order, a nest of seven or of no loop, and a body that its stages do not divide (R68, R101). -/
theorem test_illformed_control : (Instr.ldf .device 1 8 9 .f32 false false false).wf = false ∧ (Instr.loop 7 1 0 0).wf = false ∧
    (Instr.loop 0 1 0 0).wf = false ∧ (Instr.loop 2 31 7 0).wf = false ∧ (Instr.loop 1 1 6 1).wf = false := ⟨rfl, rfl, rfl, rfl, rfl⟩
/-- A type that the instruction does not accept, and a step of the device, which has no word (R63). -/
theorem test_illformed_type : (Instr.addVv 1 2 3 .f32 0 .none).wf = false ∧ (Instr.faddVv 1 2 3 .s32 0 .none).wf = false ∧
    (Instr.issueOpportunity 0).wf = false := ⟨rfl, rfl, rfl⟩

/-! ### Single steps, with results of the spec's examples or calculated by hand -/

/-- The state after an instruction. -/
def after (i : Instr) (s : State) : State := match exec i s with | .next t => t | _ => s
/-- The part with one slot whose first registers are given. -/
def withX (l : List X64) : State := alone { run with pc := 0x100, x := xs l } []

/-- The example of *Encoding*: LI.HI shifts by 19 places. -/
theorem test_li : (after (.liHi 5 8) (withX [0, 0, 0, 0, 8])).me.rx 5 = 0x400008 ∧
    (after (.liLo 5 0x40000) (withX [])).me.rx 5 = 0xFFFFFFFFFFFC0000 := by decide +kernel
/-- 2^31 − 1 + 1 wraps, and is clamped under .SAT (R34, R110). -/
theorem test_add : (after (.addSc 3 1 2 .s32 0) (withX [0x7FFFFFFF, 1])).me.rx 3 = 0xFFFFFFFF80000000 ∧
    (after (.addSc 3 1 2 .s32 1) (withX [0x7FFFFFFF, 1])).me.rx 3 = 0x7FFFFFFF := by decide +kernel
/-- A division by 0 gives −1, and the remainder its dividend (R112). -/
theorem test_divide : (after (.divSc 3 1 2 .s32 0) (withX [7, 0])).me.rx 3 = 0xFFFFFFFFFFFFFFFF ∧
    (after (.remSc 3 1 2 .s32) (withX [7, 0])).me.rx 3 = 7 := by decide +kernel
/-- 2^24 + 1 is a tie of F32 that goes to even (R43). -/
theorem test_float_tie : (after (.faddSc 3 1 2 .f32 0) (withX [0x4B800000, 0x3F800000])).me.rx 3 = 0x4B800000 := by decide +kernel
/-- The first draw from the reset state (the example of *Numbers*). -/
theorem test_draw : drawStep 1 = (0x40822041, 0) := by decide +kernel
/-- A jump to 6 raises the instruction-alignment trap (6) with the target in TVAL (R94, R253). -/
theorem test_jump_alignment : (after (.jmpJr 1) (withX [6])).me.tr.cause = 6 ∧ (after (.jmpJr 1) (withX [6])).me.tr.tval = 6 ∧
    (after (.jmpJr 1) (withX [8])).me.pc = 8 := by decide +kernel
/-- TRAP #5 enters the handler with CODE 7, and returns behind itself (R253, R254). -/
theorem test_trap : (after (.trap 5) (withX [])).me.tr.cause = 7 ∧ (after (.trap 5) (withX [])).me.tr.rpc = 0x104 ∧
    (after (.trap 5) (withX [])).me.tr.tval = 5 ∧ (after (.trap 5) (withX [])).me.tr.priv = true := by decide +kernel
/-- KADV wraps at 2^32, and the event for k2 names it alone (R97). -/
theorem test_kadv : vat (after (.kadv 2) (alone { run with k := Vector.replicate 6 0xFFFFFFFF } [])).me.k 2 7 = 0 := by decide +kernel
/-- LOOP #2, x10, #8, #2 opens a nest of two loops and two stages over eight words (R101). -/
theorem test_loop : let s := after (.loop 2 1 7 1) (withX [3, 4]); s.me.nest.act = true ∧ s.me.nest.nbody = 0x104 ∧ s.me.nest.n = 2 ∧
    s.me.nest.lenm1 = 7 ∧ s.me.nest.sm1 = 1 := by decide +kernel
/-- A store of a byte and a load that extends a word's sign (R221). -/
theorem test_memory : (after (.ldsW 5 1 0) (alone { run with x := xs [0x1000] } [(0x1003, 0x80)])).me.rx 5 = 0xFFFFFFFF80000000 ∧
    (after (.stsB 2 1 0) (withX [0x1001, 0x1FF])).seenNat 0x1000 8 = 0xFF00 := by decide +kernel
/-- A fetch-and-add gives the old value and stores the sum (R222). -/
theorem test_amo : let s := after (.amoAdd .device 5 1 2 .s64) (alone { run with x := xs [0x1000, 3] } [(0x1000, 4)])
    s.me.rx 5 = 4 ∧ s.mem = [(0x1000, 7)] := by decide +kernel
/-- The work identifier of the example of *The Machine*: 17,605. -/
theorem test_workid : workIdOf [6, 4, 8] [5, 3, 17] = 0x44C5 ∧
    (after (.workid 5 2) ({ alone { run with ctx := some 3, workId := 0x44C5 } [] with ctxs := [(3, { ctx0 with widths := [6, 4,
      8, 0, 0, 0] })] })).me.rx 5 = 17 := by
  decide +kernel
/-- The lanes add an immediate to element 0 of v2, and the entry retires (R14, R24). -/
theorem test_lanes : let s := after (.issueOpportunity 0) (alone { heads (.addVi 1 2 0x1FD .s32) 0 1 with
      lane := { Lane.reset with vl := 1, v := Lane.reset.v.setIfInBounds 2 { data := 10, side := 0 } } } [])
    s.me.lane.rd 1 32 0 = 7 ∧ s.me.queue = [] := by decide +kernel
/-- SETVL.E32 grants at most 512 elements at CAP 5 (R88). -/
theorem test_setvl : (after (.setvl 5 4 .s32) (withX [0, 0, 0, 1000])).me.rx 5 = 512 := by decide +kernel

/-! ### Hypotheses that are met: entries at their edges and dead stages -/

/-- A slot whose lanes have VL and VSTART given. -/
def edged (i : Instr) (vl : BitVec 13) (vstart : BitVec 12) : Slot := { heads i 0 vl with lane := { Lane.reset with vl := vl, vstart := vstart } }
theorem edged_atHead (i : Instr) (vl : BitVec 13) (vstart : BitVec 12) : AtHead (alone (edged i vl vstart) []) 0 i (entry i 0) :=
  alone_atHead i 0 _ _ rfl (alone_lanesFree _ _ ⟨nofun, nofun⟩ rfl ⟨nofun, rfl, rfl⟩ (show 5 ≤ 5 by decide)) rfl
/-- An element-wise entry at VL = 0, at a VSTART beyond VL, and at a VL of 513 that 32-bit registers do not hold. -/
theorem witness_ElementEdges :
    let i := Instr.addVv 1 2 3 .s32 0 .none
    (∀ vl vs, AtHead (alone (edged i vl vs) []) 0 i (entry i 0)) ∧
    (∃ l, elementwise i = some l ∧ ∀ vl vs, l ((alone (edged i vl vs) []).lenv 0 (entry i 0)) = 512) ∧ i.wf = true ∧
      (0#13).toNat ≤ (0#12).toNat ∧ (3#13).toNat ≤ (4#12).toNat ∧ 512 < (513#13).toNat ∧ (alone (edged i 513 0) []).reqs = [] :=
  ⟨fun _ _ => edged_atHead _ _ _, ⟨_, rfl, fun _ _ => show perReg 5 32 = 512 by decide⟩, rfl, by decide, by decide, by decide, rfl⟩
/-- A reduction at such a VL, and one at a VSTART other than 0. -/
theorem witness_WholeEdges :
    let i := Instr.redSum 1 2 3 .s32 false
    (∀ vl vs, AtHead (alone (edged i vl vs) []) 0 i (entry i 0)) ∧
    (∃ l, wholes i = some l ∧ ∀ vl vs, l ((alone (edged i vl vs) []).lenv 0 (entry i 0)) = 512) ∧ i.wf = true ∧
      512 < (edged i 513 0).lane.vl.toNat ∧ (edged i 4 1).lane.vstart ≠ 0 :=
  ⟨fun _ _ => edged_atHead _ _ _, ⟨_, rfl, fun _ _ => show perReg 5 32 = 512 by decide⟩, rfl, by decide, by decide⟩
/-- WMAC at VL = 0, and at a VL of 4,096. -/
theorem witness_AccumulatorEdges :
    let i := Instr.wmacVv 0 1 2 .s8 0 .none
    (∀ vl vs, AtHead (alone (edged i vl vs) []) 0 i (entry i 0)) ∧
    (∃ r, accRule i = some r ∧ ∀ vl vs, let most := r.limit ((alone (edged i vl vs) []).lenv 0 (entry i 0)); 0 < most ∧ most < (4096#13).toNat) ∧
      i.wf = true :=
  ⟨fun _ _ => edged_atHead _ _ _, ⟨_, rfl, fun _ _ =>
    ⟨show 0 < (if 0 < 32 then perReg 5 8 else 0) by decide, show (if 0 < 32 then perReg 5 8 else 0) < 4096 by decide⟩⟩, rfl⟩
theorem witness_DeadEntries :
    let e := { entry (.addVv 1 2 3 .s32 0 .none) 0 with p := false }
    let sl := ({ waiting with queue := [e] } : Slot)
    (alone sl []).lanesFree 0 ∧ sl.queue.head? = some e ∧ e.kind = .instr ∧ e.p = false :=
  ⟨alone_lanesFree _ _ ⟨nofun, nofun⟩ rfl ⟨nofun, rfl, rfl⟩ (show 5 ≤ 5 by decide), rfl, rfl, rfl⟩
/-- Words of a dead stage: a CSR word, a load, a privileged word in user mode, QSET with and without vector state, and a back-flow. -/
theorem witness_DeadStages :
    let d := alone (nested false) []
    let u := alone { nested false with tr := { TrapRegs.reset with vu := false } } []
    d.me.stageLive = false ∧ (csrOf (.csrw 1 0x005) = some 0x005 ∧ openCsrs.contains 0x005 = true ∧ privilegedCsrs.contains 0x005 = false ∧
        laneCsr d.me.lane 0x005 = none) ∧
      (scalarWord (.ldsW 5 8 9) = some false ∧ (Instr.ldsW 5 8 9).wf = true) ∧
      (scalarWord .tlbs = some true ∧ d.me.tr.priv = false ∧ d.trapsAtOnce) ∧ (queueWord (.qset 0 8 .thread) = true ∧ d.me.tr.vu = true) ∧
      (u.me.stageLive = false ∧ u.me.tr.vu = false ∧ u.trapsAtOnce) ∧
      (Instr.mpopc 5 7).wf = true ∧ d.pushes ∧ d.me.phase = .fresh ∧ ∀ n, (backValue n (.mpopc 5 7)).isSome = true :=
  ⟨rfl, ⟨rfl, rfl, rfl, rfl⟩, ⟨rfl, rfl⟩, ⟨rfl, rfl, alone_traps _ _ (.inl rfl) rfl⟩, ⟨rfl, rfl⟩,
    ⟨rfl, rfl, alone_traps _ _ (.inl rfl) rfl⟩, rfl, ⟨rfl, rfl, by decide⟩, rfl, fun _ => rfl⟩

/-! ### Hypotheses that are met: counter events, releases and the last thread -/

/-- A set that every counter moves, with deliveries up to its depth. -/
def moving (landed : Bool) : Slot :=
  { run with q := (Vector.replicate 16 ResReg.reset).setIfInBounds 0 { live1 with
      desc := { desc1 with flags := desc1.flags &&& ~~~ 0x1C0000000000#64 }, gens := [gen1 landed] } }
theorem alone_untraced (sl : Slot) (m : List Host.Cell) : (alone sl m).untraced := by
  unfold State.untraced; rw [alone_core]; exact (by decide : bitAt DebugBlock.reset.trctl 0 = false)
theorem moving_others (landed : Bool) {q : Nat} (h : q ≠ 0) : ¬ ((moving landed).reg q).st = .live := by
  rw [other_reg (moving landed) _ rfl h]; nofun
theorem moving_advances (named : BitVec 6) : (moving true).advances named :=
  ⟨rfl, rfl, by decide, fun q _ h => by
    by_cases h0 : q = 0
    · subst h0; exact ⟨by decide, nofun⟩
    · exact absurd h.1 (moving_others true h0)⟩
/-- The slice of a live nest of one loop of four passes at the end of its first. -/
def atEnd (sl : Slot) : Slot := { sl with nest := (nested true).nest, pc := 16 }
theorem atEnd_ends (sl : Slot) (hs : sl.st = .run) (hj : sl.jumped = false) (hi : sl.tr.inh = false) : (atEnd sl).endsPass 0 :=
  ⟨hs, hj, ⟨rfl, hi.symm⟩, show (16#64) = (nested true).nest.nbody + 4 * BitVec.ofNat 64 ((nested true).nest.lenm1.toNat + 1) by decide,
    ⟨by decide, show 0 < (nested true).nest.n.toNat by decide⟩, fun _ h => absurd h (Nat.not_lt_zero _),
    .inl (show 0 + 1 = (nested true).nest.n.toNat by decide)⟩
/-- KADV k0, LOOP of one counter that is not zero, and the end of a pass: when q0 may take its next delivery, and when it may not. -/
theorem witness_EventsCreate :
    let l := fun (b : Bool) => { moving b with x := xs [3], k := Vector.replicate 6 1 }
    (∀ b, (alone (moving b) []).outsideNest ∧ (alone (moving b) []).untraced) ∧ (moving true).moves 1 0 ∧ (moving true).advances 1 ∧
      (moving false).deep 1 ∧
    ((Instr.loop 1 1 0 0).wf = true ∧ (∀ b, (alone (l b) []).outsideNest ∧ (alone (l b) []).untraced) ∧ ((l true).rx 1).toNat = 3 ∧
      (∀ j : Fin 6, (1#6).getLsbD j.val = (decide (j.val < 1) && decide (vat (l true).k j.val 0 ≠ 0))) ∧ (l true).advances 1 ∧
      (l false).deep 1) ∧
    (∀ b, (atEnd (moving b)).endsPass 0 ∧ (alone (atEnd (moving b)) []).untraced) ∧
      (atEnd (moving true)).nest.npass.toNat + 1 < (atEnd (moving true)).nest.total ∧ (atEnd (moving true)).advances 1 ∧
      (atEnd (moving false)).deep 1 := by
  have hd : ∀ sl : Slot, sl.q = (moving false).q → sl.tr = (moving false).tr → sl.deep 1 := fun sl hq ht => by
    have hr : sl.reg 0 = (moving false).reg 0 := by unfold Slot.reg; rw [hq]
    exact ⟨by rw [ht]; rfl, by rw [ht]; rfl, 0, by decide, by unfold Slot.moves; rw [hr]; exact ⟨rfl, by decide⟩, by rw [hr]; decide⟩
  have ha : ∀ sl : Slot, sl.q = (moving true).q → sl.tr = (moving true).tr → sl.queue = [] → sl.advances 1 := fun sl hq ht he => by
    have hr : ∀ q, sl.reg q = (moving true).reg q := fun q => by unfold Slot.reg; rw [hq]
    have m := moving_advances 1
    exact ⟨by rw [ht]; exact m.unit, by rw [ht]; exact m.thawed, by rw [he]; decide, fun q h hm => by
      rw [hr]; exact m.depth q h ⟨by rw [← hr]; exact hm.1, by rw [← hr]; exact hm.2⟩⟩
  exact ⟨fun _ => ⟨rfl, alone_untraced _ _⟩, ⟨rfl, by decide⟩, moving_advances 1, hd _ rfl rfl,
    ⟨rfl, fun _ => ⟨rfl, alone_untraced _ _⟩, by decide, by decide, ha _ rfl rfl rfl, hd _ rfl rfl⟩,
    fun b => ⟨atEnd_ends _ rfl rfl rfl, alone_untraced _ _⟩, by decide, ha _ rfl rfl rfl, hd _ rfl rfl⟩
/-- The same without vector state. -/
theorem witness_EventsWithoutVectorState :
    let v := ({ run with tr := { TrapRegs.reset with vu := false }, x := xs [3] } : Slot)
    (alone v []).outsideNest ∧ v.tr.vu = false ∧ (Instr.loop 1 1 0 0).wf = true ∧ (v.rx 1).toNat = 3 ∧ (atEnd v).endsPass 0 ∧
      (atEnd v).tr.vu = false := ⟨rfl, rfl, rfl, by decide, atEnd_ends _ rfl rfl rfl, rfl⟩
/-- A frozen queue outside a handler and in one, at a counter instruction, at a LOOP that zeroes k0, and at the end of a pass. -/
theorem witness_FrozenEvents :
    let f := ({ run with tr := { TrapRegs.reset with froz := true } } : Slot)
    let h := ({ run with tr := { TrapRegs.reset with froz := true, inh := true } } : Slot)
    let c := ({ f with k := Vector.replicate 6 1, x := xs [3] } : Slot)
    let e := ({ nested true with tr := { TrapRegs.reset with froz := true }, pc := 16 } : Slot)
    ((alone f []).outsideNest ∧ f.tr.vu = true ∧ f.tr.froz = true ∧ (alone f []).trapsAtOnce) ∧
    ((alone h []).outsideNest ∧ h.tr.inh = true ∧ (alone h []).untraced) ∧
    ((Instr.loop 1 1 0 0).wf = true ∧ (c.rx 1).toNat = 3 ∧ vat c.k 0 0 ≠ 0) ∧
    (e.st = .run ∧ e.jumped = false ∧ e.nest.act = true ∧ e.nest.own = e.tr.inh ∧ e.nest.npass.toNat + 1 < e.nest.total ∧
      e.pc = e.nest.nbody + 4 * BitVec.ofNat 64 (e.nest.lenm1.toNat + 1) ∧ (alone e []).trapsAtOnce) :=
  ⟨⟨rfl, rfl, rfl, alone_traps _ _ (.inr rfl) rfl⟩, ⟨rfl, rfl, rfl⟩, ⟨rfl, by decide, by decide⟩,
    rfl, rfl, rfl, rfl, by decide, by decide, alone_traps _ _ (.inr rfl) rfl⟩
/-- A WMARK that has pushed its marker and waits: an entry is left, a writeback, and a dirty byte of a drained stack. -/
theorem witness_WmarkWaits :
    let m := ({ pointers with phase := .marked, queue := waiting.queue } : Slot)
    let d := ({ alone m [] with
      cores := (Vector.replicate 64 Core.reset).setIfInBounds 0 { core0 with l1 := [(0x1000, 1)] }
      svc := { Service.reset with offParts := (List.range 8).map fun u => 768 + u } } : State)
    m.tr.vu = true ∧ m.phase = .marked ∧ (m.rx 8).toNat % 8 = 0 ∧ m.owesRelease ∧ ({ owing with phase := .marked } : Slot).owesRelease ∧
      ¬ d.flushes 0 := by
  intro m d
  refine ⟨rfl, rfl, by decide, .inl (List.cons_ne_nil _ _), .inr ⟨0, by decide, .inl ⟨_, List.mem_singleton.mpr rfl, .inl rfl⟩⟩, fun h => ?_⟩
  have h0 : d.stackHeld 0x1000 = false := h (0x1000, 1) (List.mem_singleton.mpr rfl)
  refine absurd ?_ (Bool.eq_false_iff.mp h0)
  refine List.any_eq_true.mpr ⟨768 + (Config.stackOf 32).toNat, List.mem_filter.mpr ⟨List.mem_map.mpr
    ⟨_, List.mem_range.mpr (Config.stackOf 32).isLt, rfl⟩, ?_⟩, List.any_eq_true.mpr ⟨0x1000, List.mem_cons_self .., ?_⟩⟩
  · have := (Config.stackOf 32).isLt
    exact beq_iff_eq.mpr (by omega)
  · have := (Config.stackOf 32).isLt
    exact Bool.and_eq_true_iff.mpr ⟨by decide, decide_eq_true (show (768 + (Config.stackOf 32).toNat) % 256 = (Config.stackOf 32).toNat by omega)⟩
/-- The only thread of a launch at its ENDK. -/
theorem witness_LastEndk :
    let sl := { member 0 with st := .drain, cause := 9 }
    let g := { grp0 with slots := [some 0], ended := [false] }
    let c := { ctx0 with groups := [(0, g)], counts := [1] }
    let s := ({ alone sl [] with ctxs := [(3, c)] } : State)
    sl.st = .drain ∧ sl.cause = 9 ∧ sl.pend = none ∧ sl.performed ∧ (∀ j, j < 16 → (sl.reg j).st = .retired) ∧ sl.ctx = some 3 ∧
      s.ctxOf (some 3) = some c ∧ c.st = .running ∧ c.word = none ∧ s.groupAt 3 sl.group = some g ∧ g.st = .bound ∧
      (g.ended.set sl.f0 true).all id = true ∧ c.endedGroups + 1 = (c.counts.drop 1).foldl (· * ·) 1 ∧ s.plain ∧ s.reqs = [] ∧ c.hq < 64 ∧
      bitAt c.hqroot 0 = false ∧ wholeIn c.crec 8 8 ∧ wholeIn c.cwaddr 8 8 :=
  ⟨rfl, rfl, rfl, performed_of _ rfl rfl, fun j _ => by rw [reset_regs _ rfl j]; rfl, rfl, rfl, rfl, rfl, rfl, rfl, rfl, rfl,
    ⟨⟨rfl, rfl, rfl⟩, fun c => congrArg Core.l1 (alone_core run [] c)⟩, rfl, by decide, rfl, ⟨by decide, by decide, by decide⟩,
    by decide, by decide, by decide⟩
/-- A core's L1 with room for a line, and one of 512 dirty lines without it. -/
theorem witness_Room : Core.reset.hasRoom 0x1000 ∧
    ¬ ({ Core.reset with l1 := (List.range 512).map fun i => (128 * i, 0) } : Core).hasRoom (128 * 512) := by
  refine ⟨.inr (by decide), ?_⟩
  rintro (⟨b, hb, h⟩ | h)
  · obtain ⟨i, hi, rfl⟩ := List.mem_map.mp hb
    have := List.mem_range.mp hi
    have : 128 * i / 128 = 128 * 512 / 128 := h
    omega
  · exact absurd h (by decide +kernel)
/-- An MMA with a VL of 33, of 1,056 and into group 32 of 32, a resident one at a register that is not LIVE, with one of another type, and
one whose k-blocks are done; and ACCZ where the launch has no accumulator group. -/
theorem witness_MmaEdges :
    let i := Instr.mmaAccRegister 0 8 16 .bf16 0 1
    let q := Instr.mmaAccResident 0 8 0 .bf16 0 0
    let none_ := ({ alone { heads (.accz 0) 0 0 with ctx := some 3 } [] with ctxs := [(3, { ctx0 with agrp := 0 })] } : State)
    let other := ({ heads q 0 32 with q := (Vector.replicate 16 ResReg.reset).setIfInBounds 0 live1 } : Slot)
    (∀ vl vs, AtHead (alone (edged i vl vs) []) 0 i (entry i 0)) ∧ mmaFormOf i = some (.bf16, 0, 2, none) ∧ i.wf = true ∧
      mmaRefused (alone (edged i 33 0) []) 0 (entry i 0) .bf16 0 none ∧ mmaRefused (alone (edged i 1056 0) []) 0 (entry i 0) .bf16 0 none ∧
      ¬ mmaRefused (alone (edged i 32 0) []) 0 (entry i 0) .bf16 0 none ∧ 2 ≤ (edged i 32 2).lane.vstart.toNat ∧
    (AtHead (alone (edged q 32 0) []) 0 q (entry q 0) ∧ mmaFormOf q = some (.bf16, 0, 1, some 0) ∧ q.wf = true ∧
      ¬ mmaRefused (alone (edged q 32 0) []) 0 (entry q 0) .bf16 0 (some 0) ∧ ((edged q 32 0).reg 0).lanesSee = false ∧
      (edged q 32 0).lane.gov 0 = true ∧ mmaRefused (alone other []) 0 (entry q 0) .bf16 0 (some 0)) ∧
    (none_.lenv 0 (entry (.accz 0) 0)).agrp ≤ 0 ∧ none_.reqs = [] ∧ (none_.slot 0).queue.head? = some (entry (.accz 0) 0) := by
  intro i q none_ other
  have nr : ∀ (vs : BitVec 12), ¬ mmaRefused (alone (edged i 32 vs) []) 0 (entry i 0) .bf16 0 none := fun vs h => by
    rcases h with h | h | h | h <;> exact absurd h (by decide +revert)
  refine ⟨fun _ _ => edged_atHead _ _ _, rfl, rfl, .inl (by decide), .inr (.inl (by decide)), nr 0, by decide,
    ⟨edged_atHead _ _ _, rfl, rfl, fun h => ?_, rfl, by decide +kernel, .inr (.inr (.inr (.inr ⟨rfl, by decide⟩)))⟩, by decide, rfl, rfl⟩
  rcases h with h | h | h | h | h
  · exact absurd h (by decide)
  · exact absurd h (by decide)
  · exact absurd h (by decide)
  · exact absurd h (by decide)
  · exact absurd h.1 (by decide)
/-- A launch whose slots all run, and one that is halted and not drained. -/
theorem witness_Halts :
    let s := grouped (member 0) (member 1) grp0
    (∃ c, s.runsContext 3 c) ∧ s.halted = false ∧
    let h := ({ s with halted := true } : State)
    h.halted = true ∧ (h.slot 0).st ≠ .stop ∧ (h.slot 0).st ≠ .vacant ∧ bitAt (h.coreAt (coreOf 0)).dbg.trctl 0 = false := by
  refine ⟨⟨_, rfl, ⟨nofun, nofun, nofun, nofun⟩, rfl, ⟨(0, member 0), List.mem_cons_self .., rfl, nofun⟩, fun p hp _ _ => ?_⟩,
    rfl, rfl, nofun, nofun, rfl⟩
  rcases List.mem_cons.mp hp with rfl | hp
  · rfl
  · cases List.mem_singleton.mp hp; rfl
/-- A cluster in each state, a core with a piece outstanding and one without, and a lane group that a thread holds. -/
theorem witness_Power : (Cluster.reset.st = .running ∧ Cluster.reset.auto = true ∧ Cluster.reset.gidle ≠ 0) ∧
    (∀ x, ∃ c : Cluster, c.st = x) ∧ Core.reset.outstanding = 0 ∧ (∃ p ∈ core0.lanes, p.1 = 3) ∧
    ∀ p ∈ Core.reset.lanes, p.1 ≠ 3 := ⟨⟨rfl, rfl, by decide⟩, fun x => ⟨{ Cluster.reset with st := x }, rfl⟩, rfl, ⟨(3, 0), by decide, rfl⟩, nofun⟩

end Sys2Proof.Tests
end

section
/-! PROOFS. Traps that the slice enters at once, the checks of a word at the slice, and the push of an entry: one rule for each
answer of the shared operations, and which of them each kind of instruction runs. -/

namespace Sys2Proof.Machine

/-! ### A slice trap that is entered at once (R77, R254) -/

theorem causeWord_sync {code : TrapCode} (hp : code ≠ .preempt) (hr : code ≠ .resume) (kind : Nat) :
    causeWord code kind false = BitVec.ofNat 64 (kind * 256 + code.num) := by
  simp [causeWord, b2n, hp, hr]

/-- A trap that the slice raises itself: every cause of R253 but those of R255. -/
structure PendTrap.synchronous (p : PendTrap) : Prop where
  slice : p.lane = false
  notPreempt : p.code ≠ .preempt
  notResume : p.code ≠ .resume

/-- With nothing to drain, no handler running and no trace, a slice trap is taken in the same step. -/
theorem State.sliceTrap_enters {s : State} (h : s.trapsAtOnce) {p : PendTrap} (hp : p.synchronous) (hpc : p.epc = s.me.pc) :
    s.sliceTrap p = s.setMe (s.me.trapped p.code p.kind p.tval p.rpc) := by
  obtain ⟨hq, hinh, htr⟩ := h
  obtain ⟨hl, hpre, hres⟩ := hp
  have hdrained : (s.me.queue.isEmpty || s.me.tr.froz) = true := by
    rcases hq with hq | hq <;> simp [hq]
  have hinh' : (s.slot s.cur).tr.inh = false := hinh
  simp only [State.sliceTrap, hdrained, if_true, State.enterTrap, hinh', Bool.false_eq_true, if_false]
  rw [State.trace_quiet _ _ _ _ _ _ (by rw [State.coreAt_setSlot]; exact htr)]
  simp only [hl, hpc, causeWord_sync hpre hres, hpre, decide_false, Bool.or_self]
  rfl

theorem State.trapHere_enters {s : State} (h : s.trapsAtOnce) {code : TrapCode} (hp : code ≠ .preempt) (hr : code ≠ .resume)
    (kind : Nat) (val : X64) : s.trapHere code kind val = s.setMe (s.me.trapped code kind val s.me.pc) :=
  State.sliceTrap_enters h ⟨rfl, hp, hr⟩ rfl

/-- An instruction whose meaning is a trap that returns to it, in a state that takes traps at once. -/
theorem trapsHere_of_exec {s : State} {i : Instr} {code : TrapCode} {kind : Nat} {val : X64} (h : s.trapsAtOnce)
    (he : exec i s = .next (s.trapHere code kind val)) (hp : code ≠ .preempt := by nofun) (hr : code ≠ .resume := by nofun) :
    trapsHere i s code kind val := by
  rw [trapsHere, he, State.trapHere_enters h hp hr]

/-! ### The checks of a word at the slice (R77, R99, R100) -/

theorem Slot.adv_eq_onward (sl : Slot) : sl.adv = sl.onward := rfl

theorem State.scalarStep_forbidden {s : State} (w : Word) (priv : Bool) (type : Option DecodeTrap) (act : State → Res State)
    (hn : s.me.inBody = true) : s.scalarStep w true priv type act = .ok (s.trapWord .undefinedInstruction w) := by
  simp [State.scalarStep, hn]

theorem State.scalarStep_privilege {s : State} (w : Word) {forbid : Bool} (type : Option DecodeTrap) (act : State → Res State)
    (hn : (forbid && s.me.inBody) = false) (hp : s.me.tr.priv = false) :
    s.scalarStep w forbid true type act = .ok (s.trapWord .privilege w) := by
  simp [State.scalarStep, hn, hp]

theorem State.scalarStep_type {s : State} (w : Word) {forbid priv : Bool} (t : DecodeTrap) (act : State → Res State)
    (hn : (forbid && s.me.inBody) = false) (hp : (priv && !s.me.tr.priv) = false) :
    s.scalarStep w forbid priv (some t) act = .ok (s.trapWord (decodeTrapCode t) w) := by
  simp [State.scalarStep, hn, hp]

/-- In a live stage, a scalar instruction that passes its checks acts. -/
theorem State.scalarStep_acts {s : State} (w : Word) {forbid priv : Bool} (act : State → Res State) (hs : s.acts)
    (hn : (forbid && s.me.inBody) = false) (hp : (priv && !s.me.tr.priv) = false) :
    s.scalarStep w forbid priv none act = act s := by
  have hs : s.me.stageLive = true := hs
  simp [State.scalarStep, hn, hp, hs]

theorem State.queueStep_privilege {s : State} (w : Word) (act : State → Res State) (hp : s.me.tr.priv = false) :
    s.queueStep w true act = .ok (s.trapWord .privilege w) := by
  simp [State.queueStep, hp]

theorem State.queueStep_unavailable {s : State} (w : Word) {priv : Bool} (act : State → Res State)
    (hp : (priv && !s.me.tr.priv) = false) (hv : s.me.tr.vu = false) :
    s.queueStep w priv act = .ok (s.trapWord .vectorUnavailable w) := by
  simp [State.queueStep, hp, hv]

theorem State.queueStep_acts {s : State} (w : Word) {priv : Bool} (act : State → Res State) (hs : s.acts)
    (hp : (priv && !s.me.tr.priv) = false) (hv : s.me.tr.vu = true) : s.queueStep w priv act = act s := by
  rw [State.queueStep, if_neg (by simp [hp]), if_neg (by simp [hv]), State.scalarStep_acts w act hs rfl rfl]

/-! ### The push of an entry (R24, R256, R258) -/

theorem State.enqueue_unavailable {s : State} (w : Word) (mk : Slot → Entry) (after : Slot → Slot) (hv : s.me.tr.vu = false) :
    s.enqueue w mk after = s.trapWord .vectorUnavailable w := by
  simp [State.enqueue, hv]

theorem State.enqueue_frozen {s : State} (w : Word) (mk : Slot → Entry) (after : Slot → Slot) (hv : s.me.tr.vu = true)
    (hf : s.me.tr.froz = true) : s.enqueue w mk after = s.trapOperand := by
  simp [State.enqueue, hv, hf]

theorem State.enqueue_full {s : State} (w : Word) (mk : Slot → Entry) (after : Slot → Slot) (hv : s.me.tr.vu = true)
    (hf : s.me.tr.froz = false) (hq : 64 ≤ s.me.queue.length) : s.enqueue w mk after = s.setMe (s.me.stall 1) := by
  simp [State.enqueue, hv, hf, hq]

theorem State.enqueue_pushes {s : State} (w : Word) (mk : Slot → Entry) (after : Slot → Slot) (h : s.pushes) :
    s.enqueue w mk after = s.setMe (after (s.me.push (mk s.me))) := by
  simp [State.enqueue, h.unit, h.thawed, Nat.not_le.mpr h.room]

theorem State.pushVector_illTyped {s : State} {i : Instr} {t : DecodeTrap} (x : X64) (ht : i.typeTrap = some t) :
    s.pushVector i x = s.trapWord (decodeTrapCode t) (wordOf i) := by
  simp [State.pushVector, ht]

theorem State.pushVector_typed {s : State} {i : Instr} (x : X64) (ht : i.typeTrap = none) :
    s.pushVector i x = s.enqueue (wordOf i) (fun sl => sl.entryOf (some i) (wordOf i) x) Slot.adv := by
  simp [State.pushVector, ht]

theorem State.pushBack_illTyped {s : State} {i : Instr} {t : DecodeTrap} (d : Nat) (ht : i.typeTrap = some t) :
    s.pushBack i d = s.trapWord (decodeTrapCode t) (wordOf i) := by
  simp [State.pushBack, ht]

theorem Instr.typeTrap_of_wf {i : Instr} (h : i.wf = true) : i.typeTrap = none := by
  simp only [Instr.wf, Bool.and_eq_true, Option.isNone_iff_eq_none] at h
  exact h.2

/-! ### What the slice does with each kind of word (R24, R27, R62, R99) -/

/-- The instructions whose entry returns a value to the slice (R27). -/
def returnsValue : Instr → Bool
  | .mpopc .. | .mfirst .. | .vmoveExt .. => true
  | _ => false

/-- The instructions that push a marker, a grant or a peer's value, and no entry of their own lanes (R88, R231, R281). -/
def pushesMarker : Instr → Bool
  | .fenceSv .. | .fenceVs .. | .fenceVv .. | .fenceAll .. | .qset .. | .qdrop .. | .endk .. | .wmark .. | .vpush .. => true
  | _ => false

/-- SETVL, whose grant the slice makes (R87). -/
def grantsLength : Instr → Bool
  | .setvl .. => true
  | _ => false

/-- The instructions that the slice runs alone, CSRR and CSRW apart. -/
def runsAtSlice (i : Instr) : Bool :=
  !i.isEvent && !entersQueue i && !returnsValue i && !pushesMarker i && !grantsLength i && (csrOf i).isNone

/-- A word that enters the queue and returns nothing is pushed with its scalar value. -/
theorem exec_of_entersQueue {i : Instr} (s : State) (h : entersQueue i = true) :
    exec i s = .next (s.pushVector i (scalarOf s.me i)) := by
  cases i <;> cases h <;> rfl

theorem exec_of_returnsValue {i : Instr} (s : State) (h : returnsValue i = true) : ∃ d, exec i s = .next (s.pushBack i d) := by
  cases i <;> cases h <;> exact ⟨_, rfl⟩

/-- The type check of an atomic is step 4 of R77 alone. -/
theorem atomicType_eq (t : Ty) :
    atomicType t = if !t.isAtomic then some .illegalType else if !true then some .illegalOperand else none := by
  cases h : t.isAtomic <;> simp [atomicType, h]

/-- A word that the slice runs alone passes the checks of R77 and R100, in the order of a scalar instruction. -/
theorem exec_of_runsAtSlice {i : Instr} (s : State) (h : runsAtSlice i = true) : ∃ act,
    exec i s = finish (s.scalarStep (wordOf i) (forbiddenInNest i) (privilegedInstr i) i.typeTrap act) := by
  cases i
  case amoAdd _ _ _ _ t | amoMin _ _ _ _ t | amoMax _ _ _ _ t | amoAnd _ _ _ _ t | amoOr _ _ _ _ t | amoXor _ _ _ _ t |
      amoSwap _ _ _ _ t | cas _ _ _ _ t => exact ⟨_, congrArg (fun ty => finish (s.scalarStep _ _ _ ty _)) (atomicType_eq t)⟩
  all_goals cases h <;> exact ⟨_, rfl⟩

end Sys2Proof.Machine
end

section
/-! PROOFS. What decode refuses (O18): which check of R77 answers, and that every word is refused so. -/

namespace Sys2Proof.Machine

/-! ### The traps of a decoded word (R5, R74, R77, R100) -/

/-- The CSR numbers that exist are the privileged ones and the open ones (R5). -/
theorem csrKnown_eq_listed (c : Nat) : csrKnown c = (privilegedCsrs.contains c || openCsrs.contains c) := by
  by_cases h : c < 0x200
  · revert c; decide +kernel
  · have hk : csrKnown c = false := by
      simp [csrKnown, csrLane]; omega
    have hl : (privilegedCsrs.contains c || openCsrs.contains c) = false := by
      simp [privilegedCsrs, openCsrs]; omega
    rw [hk, hl]

/-- The privileged CSR numbers (R5). -/
theorem csrPriv_eq_listed (c : Nat) : csrPriv c = privilegedCsrs.contains c := by
  by_cases h : c < 0x200
  · revert c; decide +kernel
  · have hk : csrPriv c = false := by
      simp [csrPriv]; omega
    have hl : privilegedCsrs.contains c = false := by
      simp [privilegedCsrs]; omega
    rw [hk, hl]

/-- Steps 4 and 5 of R77 raise the illegal-type or the illegal-operand trap. -/
theorem Instr.typeTrap_cases {i : Instr} {t : DecodeTrap} (h : i.typeTrap = some t) : t = .illegalType ∨ t = .illegalOperand := by
  unfold Instr.typeTrap at h
  split at h
  · exact .inl (Option.some.inj h).symm
  · split at h
    · exact .inr (Option.some.inj h).symm
    · cases h

/-- The checks of R77 that an instruction has passed when its privilege is judged: its CSR exists and R100 allows it. -/
structure AllowedHere (s : State) (i : Instr) : Prop where
  known : ∀ c, csrOf i = some c → csrKnown c = true
  placed : (forbiddenInNest i && s.me.inBody) = false

/-- Which check of R77 refuses a decoded word, and with which code. -/
theorem sliceTrapOf_cases {s : State} {i : Instr} {code : TrapCode} (h : sliceTrapOf s i = some code) :
    (∃ c, csrOf i = some c ∧ csrKnown c = false ∧ code = .undefinedInstruction) ∨
    ((∀ c, csrOf i = some c → csrKnown c = true) ∧ forbiddenInNest i = true ∧ s.me.inBody = true ∧
      code = .undefinedInstruction) ∨
    (AllowedHere s i ∧ privilegedInstr i = true ∧ s.me.tr.priv = false ∧ code = .privilege) ∨
    (AllowedHere s i ∧ (privilegedInstr i && !s.me.tr.priv) = false ∧ ∃ t, i.typeTrap = some t ∧ code = decodeTrapCode t) := by
  have hknown : ((csrOf i).any fun c => !privilegedCsrs.contains c && !openCsrs.contains c) = (csrOf i).any fun c => !csrKnown c := by
    simp only [csrKnown_eq_listed, Bool.not_or]
  unfold sliceTrapOf at h
  rw [hknown] at h
  cases hu : (csrOf i).any fun c => !csrKnown c with
  | true =>
    obtain ⟨c, hc, hk⟩ := (Option.any_eq_true _ _).mp hu
    refine .inl ⟨c, hc, by simpa using hk, ?_⟩
    simpa [hu] using h.symm
  | false =>
    have known : ∀ c, csrOf i = some c → csrKnown c = true := fun c hc => by simpa [hc] using hu
    rw [hu, if_neg Bool.false_ne_true] at h
    cases hf : forbiddenInNest i && s.me.inBody with
    | true =>
      rw [hf, if_pos rfl] at h
      obtain ⟨h1, h2⟩ := Bool.and_eq_true_iff.mp hf
      exact .inr (.inl ⟨known, h1, h2, (Option.some.inj h).symm⟩)
    | false =>
      rw [hf, if_neg Bool.false_ne_true] at h
      cases hp : privilegedInstr i && !s.me.tr.priv with
      | true =>
        rw [hp, if_pos rfl] at h
        obtain ⟨h1, h2⟩ := Bool.and_eq_true_iff.mp hp
        exact .inr (.inr (.inl ⟨⟨known, hf⟩, h1, by simpa using h2, (Option.some.inj h).symm⟩))
      | false =>
        rw [hp, if_neg Bool.false_ne_true] at h
        refine .inr (.inr (.inr ⟨⟨known, hf⟩, rfl, ?_⟩))
        cases ht : i.typeTrap with
        | none => simp [ht] at h
        | some t => rcases Instr.typeTrap_cases ht with rfl | rfl <;> exact ⟨_, rfl, by simpa [ht, decodeTrapCode] using h.symm⟩

/-! ### Words of each kind refuse as R77 says -/

theorem sliceWord_eq_wordOf {i : Instr} (h : csrwOf i = none) : sliceWord i = wordOf i := by
  simp [sliceWord, h, wordOf]

theorem csrwOf_eq_none_of_csrOf {i : Instr} (h : csrOf i = none) : csrwOf i = none := by
  unfold csrOf at h
  split at h
  · cases h
  · simpa using h

/-- An instruction that names no CSR, is allowed in a nest and needs no privilege is refused for its type alone. -/
theorem sliceTrapOf_unprivileged {s : State} {i : Instr} {code : TrapCode} (h : sliceTrapOf s i = some code)
    (hc : csrOf i = none) (hf : forbiddenInNest i = false) (hp : privilegedInstr i = false) :
    ∃ t, i.typeTrap = some t ∧ code = decodeTrapCode t := by
  rcases sliceTrapOf_cases h with ⟨c, hc', -⟩ | ⟨-, hf', -⟩ | ⟨-, hp', -⟩ | ⟨-, -, ht⟩
  · rw [hc] at hc'; cases hc'
  · rw [hf] at hf'; cases hf'
  · rw [hp] at hp'; cases hp'
  · exact ht

/-- A scalar word of R77's order is refused by the checks of `scalarStep`. -/
theorem scalarStep_refused {s : State} {i : Instr} {code : TrapCode} (h : sliceTrapOf s i = some code) (hc : csrOf i = none)
    (act : State → Res State) :
    s.scalarStep (wordOf i) (forbiddenInNest i) (privilegedInstr i) i.typeTrap act = .ok (s.trapWord code (wordOf i)) := by
  rcases sliceTrapOf_cases h with ⟨c, hc', -⟩ | ⟨-, hf, hb, rfl⟩ | ⟨ha, hp, hu, rfl⟩ | ⟨ha, hp, t, ht, rfl⟩
  · rw [hc] at hc'; cases hc'
  · rw [hf, State.scalarStep_forbidden _ _ _ _ hb]
  · rw [hp, State.scalarStep_privilege _ _ _ ha.placed hu]
  · rw [ht, State.scalarStep_type _ _ _ ha.placed hp]

/-- The words of the queue that are refused for their type alone: those that push an entry of the lanes, a grant or a marker. -/
theorem unprivileged_of_queued {i : Instr}
    (h : (entersQueue i || returnsValue i || pushesMarker i || grantsLength i) = true) :
    csrOf i = none ∧ forbiddenInNest i = false ∧ privilegedInstr i = false := by
  cases i <;> cases h <;> exact ⟨rfl, rfl, rfl⟩

theorem typeTrap_of_pushesMarker {i : Instr} (h : pushesMarker i = true) : i.typeTrap = none := by
  cases i <;> cases h <;> rfl

/-- The parts into which the slice divides the words: CSRR and CSRW, those of the queue, and those it runs alone. -/
theorem encodable_cases {i : Instr} (h : i.encodable = true) :
    (csrOf i).isSome = true ∨ runsAtSlice i = true ∨
      (entersQueue i || returnsValue i || pushesMarker i || grantsLength i) = true := by
  have he : i.isEvent = false := by
    simp only [Instr.encodable, Bool.and_eq_true, Bool.not_eq_true'] at h
    exact h.1
  cases hc : csrOf i with
  | some c => exact .inl rfl
  | none =>
    cases hq : entersQueue i || returnsValue i || pushesMarker i || grantsLength i with
    | true => exact .inr (.inr rfl)
    | false =>
      simp only [Bool.or_eq_false_iff] at hq
      obtain ⟨⟨⟨h1, h2⟩, h3⟩, h4⟩ := hq
      exact .inr (.inl (by simp [runsAtSlice, he, hc, h1, h2, h3, h4]))

theorem setvl_of_grantsLength {i : Instr} (h : grantsLength i = true) : ∃ d a t, i = .setvl d a t := by
  unfold grantsLength at h
  split at h
  · exact ⟨_, _, _, rfl⟩
  · cases h

/-- A word of the queue that is refused traps before it is pushed. -/
theorem exec_refused_of_queued {s : State} {i : Instr} {code : TrapCode}
    (hq : (entersQueue i || returnsValue i || pushesMarker i || grantsLength i) = true) (h : sliceTrapOf s i = some code) :
    exec i s = .next (s.trapWord code (wordOf i)) := by
  obtain ⟨hc, hf, hp⟩ := unprivileged_of_queued hq
  obtain ⟨t, ht, rfl⟩ := sliceTrapOf_unprivileged h hc hf hp
  simp only [Bool.or_eq_true] at hq
  rcases hq with ((hq | hq) | hq) | hq
  · rw [exec_of_entersQueue s hq, State.pushVector_illTyped _ ht]
  · obtain ⟨d, he⟩ := exec_of_returnsValue s hq
    rw [he, State.pushBack_illTyped _ ht]
  · rw [typeTrap_of_pushesMarker hq] at ht; cases ht
  · obtain ⟨d, a, ty, rfl⟩ := setvl_of_grantsLength hq
    show execSetvl d a ty s = _
    simp only [execSetvl, ht]

/-! ### CSRR and CSRW refuse as R5 says -/

/-- CSRW and the writes with a name of their own are one step of the slice. -/
theorem exec_of_csrwOf {i : Instr} (s : State) {a c : Nat} (h : csrwOf i = some (a, c)) : exec i s = finish (s.csrwStep a c) := by
  cases i <;> cases h <;> rfl

theorem csrOf_of_csrwOf {i : Instr} {a c : Nat} (h : csrwOf i = some (a, c)) : csrOf i = some c := by
  cases i <;> cases h <;> rfl

theorem sliceWord_of_csrwOf {i : Instr} {a c : Nat} (h : csrwOf i = some (a, c)) : sliceWord i = csrwWord a c := by
  simp [sliceWord, h, csrwWord, packS]

/-- An instruction that names a CSR has no type and may stand in a nest; it is privileged when the register is. -/
theorem facts_of_csrOf {i : Instr} {c : Nat} (h : csrOf i = some c) :
    i.typeTrap = none ∧ forbiddenInNest i = false ∧ privilegedInstr i = csrPriv c := by
  rw [csrPriv_eq_listed]
  cases i <;> cases h <;> exact ⟨rfl, rfl, rfl⟩

/-- A CSRR or CSRW is refused for a CSR that does not exist, or a privileged one in user mode. -/
theorem sliceTrapOf_csr {s : State} {i : Instr} {code : TrapCode} {c : Nat} (h : sliceTrapOf s i = some code)
    (hc : csrOf i = some c) :
    (csrKnown c = false ∧ code = .undefinedInstruction) ∨
      (csrKnown c = true ∧ csrPriv c = true ∧ s.me.tr.priv = false ∧ code = .privilege) := by
  obtain ⟨hty, hf, hpr⟩ := facts_of_csrOf hc
  rcases sliceTrapOf_cases h with ⟨c', hc', hk, rfl⟩ | ⟨-, hf', -⟩ | ⟨ha, hp, hu, rfl⟩ | ⟨-, -, t, ht, -⟩
  · rw [hc] at hc'; cases hc'; exact .inl ⟨hk, rfl⟩
  · rw [hf] at hf'; cases hf'
  · exact .inr ⟨ha.known c hc, hpr ▸ hp, hu, rfl⟩
  · rw [hty] at ht; cases ht

theorem exec_refused_of_csrw {s : State} {i : Instr} {code : TrapCode} {a c : Nat} (hi : csrwOf i = some (a, c))
    (h : sliceTrapOf s i = some code) : exec i s = .next (s.trapWord code (sliceWord i)) := by
  rw [exec_of_csrwOf s hi, sliceWord_of_csrwOf hi]
  rcases sliceTrapOf_csr h (csrOf_of_csrwOf hi) with ⟨hk, rfl⟩ | ⟨hk, hp, hu, rfl⟩
  · simp [State.csrwStep, hk, finish]
  · simp only [State.csrwStep, hk, hp, Bool.not_true, Bool.false_eq_true, if_false, State.queueStep_privilege _ _ hu,
      State.scalarStep_privilege _ _ _ (Bool.false_and _) hu, ite_self, finish]

theorem exec_refused_of_csrr {s : State} {code : TrapCode} {d : Fin 32} {c : BitVec 11}
    (h : sliceTrapOf s (.csrr d c) = some code) : exec (.csrr d c) s = .next (s.trapWord code (wordOf (.csrr d c))) := by
  show execCsrr d c s = _
  rcases sliceTrapOf_csr h rfl with ⟨hk, rfl⟩ | ⟨hk, hp, hu, rfl⟩
  · simp only [execCsrr, hk, Bool.not_false, if_true]; rfl
  · simp only [execCsrr, hk, hp, Bool.not_true, Bool.false_eq_true, if_false, State.queueStep_privilege _ _ hu,
      State.scalarStep_privilege _ _ _ (Bool.false_and _) hu, ite_self, finish]
    rfl

theorem csrr_of_csrOf {i : Instr} (h : (csrOf i).isSome = true) (hw : csrwOf i = none) : ∃ d c, i = .csrr d c := by
  unfold csrOf at h
  split at h
  · exact ⟨_, _, rfl⟩
  · rw [hw] at h; cases h

/-- The slice refuses a word as R77 says: the trap names the check, and its TVAL holds the word. -/
theorem exec_refused {s : State} {i : Instr} {code : TrapCode} (hi : i.encodable = true ∨ (csrwOf i).isSome = true)
    (h : sliceTrapOf s i = some code) : exec i s = .next (s.trapWord code (sliceWord i)) := by
  cases hw : csrwOf i with
  | some ac => exact exec_refused_of_csrw hw h
  | none =>
    rw [sliceWord_eq_wordOf hw]
    rcases encodable_cases (hi.resolve_right (by simp [hw])) with hc | hr | hq
    · obtain ⟨d, c, rfl⟩ := csrr_of_csrOf hc hw
      exact exec_refused_of_csrr h
    · obtain ⟨act, he⟩ := exec_of_runsAtSlice s hr
      have hc : csrOf i = none := by
        simp only [runsAtSlice, Bool.and_eq_true, Option.isNone_iff_eq_none] at hr
        exact hr.2
      rw [he, scalarStep_refused h hc act]; rfl
    · exact exec_refused_of_queued hq h

/-- No check of R77 answers with a cause of R255. -/
theorem sliceTrapOf_synchronous {s : State} {i : Instr} {code : TrapCode} (h : sliceTrapOf s i = some code) :
    code ≠ .preempt ∧ code ≠ .resume := by
  rcases sliceTrapOf_cases h with ⟨c, -, -, rfl⟩ | ⟨-, -, -, rfl⟩ | ⟨-, -, -, rfl⟩ | ⟨-, -, t, -, rfl⟩
  · exact ⟨nofun, nofun⟩
  · exact ⟨nofun, nofun⟩
  · exact ⟨nofun, nofun⟩
  · cases t <;> exact ⟨nofun, nofun⟩

theorem refusedWordsTrapAtDecode : Claims.RefusedWordsTrapAtDecode := fun _ _ _ hi h hs =>
  trapsHere_of_exec hs (exec_refused hi h) (sliceTrapOf_synchronous h).1 (sliceTrapOf_synchronous h).2

theorem vectorWordsNeedTheQueue : Claims.VectorWordsNeedTheQueue := by
  intro s i hwf hq
  have he : exec i s = .next (s.enqueue (wordOf i) (fun sl => sl.entryOf (some i) (wordOf i) (scalarOf s.me i)) Slot.adv) := by
    rw [exec_of_entersQueue s hq, State.pushVector_typed _ (Instr.typeTrap_of_wf hwf)]
  refine ⟨fun hv hs => ?_, fun hv hf hs => ?_, fun hv hf hfull => ?_⟩
  · exact trapsHere_of_exec hs (by rw [he, State.enqueue_unavailable _ _ _ hv]; rfl)
  · exact trapsHere_of_exec hs (by rw [he, State.enqueue_frozen _ _ _ hv hf]; rfl)
  · rw [he, State.enqueue_full _ _ _ hv hf hfull]; rfl

/-- Settles O18: every word passes the checks of R77 in order, and a word of the queue those of its push. -/
theorem refusedWordsTrap : Obligations.RefusedWordsTrap :=
  ⟨refusedWordsTrapAtDecode, vectorWordsNeedTheQueue⟩

end Sys2Proof.Machine
end

section
/-! PROOFS. The reset state (O54). -/

namespace Sys2Proof.Machine

theorem State.slot_reset (k : Nat) : State.reset.slot k = Slot.reset := rfl

/-- Every element of a vector of one value reads as that value, as does an element beyond its end. -/
theorem vat_replicate_self {α : Type} (n j : Nat) (a : α) : vat (Vector.replicate n a) j a = a := by
  unfold vat
  rw [Vector.getElem?_replicate]
  split <;> rfl

theorem State.coreAt_reset (c : Nat) : State.reset.coreAt c = Core.reset := vat_replicate_self _ _ _
theorem State.clusterAt_reset (n : Nat) : State.reset.clusterAt n = Cluster.reset := vat_replicate_self _ _ _
theorem State.hqAt_reset (n : Nat) : State.reset.hqAt n = Hq.reset := vat_replicate_self _ _ _
theorem State.portAt_reset (p : Nat) : State.reset.portAt p = Port.reset := vat_replicate_self _ _ _

theorem Slot.rx_reset (j : Nat) : Slot.reset.rx j = 0 := by
  unfold Slot.rx
  split
  · rfl
  · exact vat_replicate_self _ _ _

/-- Every vector register of the lanes is zero at reset, its side bytes included (R12). -/
theorem Lane.v_reset (j : Nat) : vat Lane.reset.v j VReg.reset = VReg.reset := vat_replicate_self _ _ _

theorem Lane.rd_reset (j w e : Nat) : Lane.reset.rd j w e = 0 := by
  unfold Lane.rd
  rw [Lane.v_reset]
  simp only [VReg.reset, BitVec.ofNat_eq_ofNat, BitVec.toNat_ofNat, Nat.zero_mod, Nat.zero_div]

theorem Lane.side_reset (j q : Nat) : Lane.reset.side j q = 0 := by
  unfold Lane.side
  rw [Lane.v_reset]
  simp only [VReg.reset, BitVec.ofNat_eq_ofNat, BitVec.toNat_ofNat, Nat.zero_mod, Nat.zero_div]

/-- m0 to m6 are zero at reset (R12). -/
theorem Lane.m_reset {j : Nat} (h : j < 7) : vat Lane.reset.m j 0 = 0 := by
  have : j = 0 ∨ j = 1 ∨ j = 2 ∨ j = 3 ∨ j = 4 ∨ j = 5 ∨ j = 6 := by omega
  rcases this with rfl | rfl | rfl | rfl | rfl | rfl | rfl <;> rfl

/-- b1 to b7 hold no entry at reset (R41). -/
theorem Lane.b_reset {j : Nat} (h1 : 1 ≤ j) (h8 : j < 8) :
    (vat Lane.reset.b j (Vector.replicate 16 0)).toList = List.replicate 16 0 := by
  have : j = 1 ∨ j = 2 ∨ j = 3 ∨ j = 4 ∨ j = 5 ∨ j = 6 ∨ j = 7 := by omega
  rcases this with rfl | rfl | rfl | rfl | rfl | rfl | rfl <;> rfl

/-- The reset columns of the registers of a thread, of its lanes and of its residency registers, and those of the cores, clusters,
queues, ports and service registers. -/
theorem resetGivesTableValuesClaim : Claims.ResetGivesTableValues := by
  refine ⟨fun k => ?_, fun c => ?_, fun n => ?_, fun n => ?_, fun p => ?_, fun n => vat_replicate_self _ n _, rfl, rfl, rfl, rfl, rfl,
    rfl, rfl, rfl, rfl⟩
  · exact ⟨rfl, Slot.rx_reset, fun j => vat_replicate_self _ j _, fun j => vat_replicate_self _ j _, rfl,
      fun j => Lane.rd_reset j _ _, Lane.side_reset, fun j => vat_replicate_self _ j _, fun j => Lane.m_reset, rfl, rfl,
      fun j => Lane.b_reset, rfl, rfl, rfl, rfl, rfl, rfl, rfl, rfl, rfl, rfl, rfl, rfl, rfl, rfl, rfl, rfl, rfl, rfl, rfl, rfl,
      rfl, rfl, rfl, rfl, rfl, rfl, fun j => congrArg ResReg.st (vat_replicate_self _ j _)⟩
  · rw [State.coreAt_reset]
    exact ⟨rfl, rfl, rfl, rfl, rfl, rfl, rfl⟩
  · rw [State.clusterAt_reset]
    exact ⟨rfl, rfl, rfl⟩
  · rw [State.hqAt_reset]
    exact ⟨rfl, rfl, rfl, rfl, rfl, rfl⟩
  · rw [State.portAt_reset]
    exact ⟨rfl, rfl, rfl, rfl, rfl⟩

/-- Memory is empty at reset, and VLCAP is 5, the greatest legal cap (R12, R23). -/
theorem resetMeetsInvariants : Claims.ResetMeetsInvariants := ⟨rfl, rfl, fun _ => Nat.le_refl 5⟩

/-- Settles O54: the reset state read field by field; a vector of one value reads as that value everywhere. -/
theorem resetGivesTableValues : Obligations.ResetGivesTableValues := ⟨resetGivesTableValuesClaim, resetMeetsInvariants⟩

end Sys2Proof.Machine
end

section
/-! PROOFS. Control registers of the slice (O20): what CSRR reads, and what CSRW writes in each of them. -/

namespace Sys2Proof.Machine

/-! ### Fields of a control register (R3, R5) -/

theorem bitAt_eq_getLsbD (x : X64) (i : Nat) : bitAt x i = x.getLsbD i := by
  rw [BitVec.getLsbD, Nat.testBit_eq_decide_div_mod_eq]
  rfl

/-- One field of a value in its place is the value under the field's mask. -/
theorem ofNat_fld (v : X64) (lo n : Nat) :
    BitVec.ofNat 64 (fld v lo n * 2 ^ lo) = v &&& BitVec.ofNat 64 ((2 ^ n - 1) * 2 ^ lo) := by
  apply BitVec.eq_of_getLsbD_eq
  intro i hi
  have hfield : (fld v lo n * 2 ^ lo).testBit i = (decide (lo ≤ i) && decide (i - lo < n) && v.getLsbD i) := by
    rw [Nat.testBit_mul_two_pow, fld, Nat.testBit_mod_two_pow, Nat.testBit_div_two_pow, BitVec.getLsbD]
    by_cases hlo : lo ≤ i
    · simp [hlo, Nat.sub_add_cancel hlo]
    · simp [hlo]
  have hmask : ((2 ^ n - 1) * 2 ^ lo).testBit i = (decide (lo ≤ i) && decide (i - lo < n)) := by
    rw [Nat.testBit_mul_two_pow, Nat.testBit_two_pow_sub_one]
  simp only [BitVec.getLsbD_and, BitVec.getLsbD_ofNat, hi, decide_true, Bool.true_and, hfield, hmask]
  rw [Bool.and_comm]

/-- A value under two disjoint masks. -/
theorem and_add_and (v : X64) {a b : X64} (h : a &&& b = 0#64) : (v &&& a) + (v &&& b) = v &&& (a ||| b) := by
  have hd : (v &&& a) &&& (v &&& b) = 0#64 := by
    rw [show (v &&& a) &&& (v &&& b) = v &&& (a &&& b) by ac_nf, h, BitVec.and_zero]
  rw [BitVec.add_eq_or_of_and_eq_zero _ _ hd, ← BitVec.and_or_distrib_left]

/-- ASID, the table and EN of PTROOT (R234). -/
theorem maskTo_ptroot (v : X64) : maskTo v [(52, 12), (16, 36), (0, 1)] = v &&& 0xFFFFFFFFFFFF0001#64 := by
  simp only [maskTo, List.foldl_cons, List.foldl_nil, Nat.zero_add, BitVec.ofNat_add, ofNat_fld]
  rw [and_add_and v (by decide), and_add_and v (by decide)]
  rfl

/-- The flags, KIND and CODE of CAUSE (R253). -/
theorem maskTo_cause (v : X64) : maskTo v [(62, 2), (0, 10)] = v &&& 0xC0000000000003FF#64 := by
  simp only [maskTo, List.foldl_cons, List.foldl_nil, Nat.zero_add, BitVec.ofNat_add, ofNat_fld]
  rw [and_add_and v (by decide)]
  rfl

/-- SHARE, the metering bit and ID of CTXID (R263). -/
theorem maskTo_ctxid (v : X64) : maskTo v [(40, 8), (32, 1), (0, 32)] = v &&& 0x0000FF01FFFFFFFF#64 := by
  simp only [maskTo, List.foldl_cons, List.foldl_nil, Nat.zero_add, BitVec.ofNat_add, ofNat_fld]
  rw [and_add_and v (by decide), and_add_and v (by decide)]
  rfl

theorem bitOf_eq_b2n (b : Bool) (i : Nat) : bitOf b i = b2n b * 2 ^ i := by
  cases b <;> simp [bitOf, b2n]

/-! ### The lane-state registers (R17, R18, R20) -/

theorem csrLane_cases {c : Nat} (h : csrLane c = true) : c = 0x000 ∨ c = 0x001 ∨ c = 0x002 ∨ c = 0x003 ∨ c = 0x004 ∨ c = 0x006 ∨
    c = 0x020 ∨ c = 0x021 ∨ c = 0x022 ∨ c = 0x024 ∨ c = 0x128 := by
  simpa [csrLane] using h

theorem laneCsr_eq (l : Lane) (c : Nat) : laneCsr l c = if csrLane c = true then some (l.csr c) else none := by
  cases h : csrLane c with
  | true =>
    rcases csrLane_cases h with rfl | rfl | rfl | rfl | rfl | rfl | rfl | rfl | rfl | rfl | rfl
    case inr.inr.inr.inl =>
      rw [if_pos rfl]
      show some (BitVec.ofNat 64 (bitOf l.sre 8 + l.slices.toNat * 2 ^ 4 + l.rm.code)) = some l.vtype
      rw [bitOf_eq_b2n]
      rfl
    all_goals simp only [laneCsr, Lane.csr, BitVec.ofNat_toNat, if_true]
  | false =>
    unfold laneCsr
    split
    case h_12 => rfl
    all_goals cases h

/-- The value of VTYPE that its fields do not support (R20). -/
theorem csrUnsupported_iff (c : Nat) (v : X64) : csrUnsupported c v = true ↔
    c = 0x003 ∧ (v.toNat / 2 ^ 4 % 2 ^ 4 < 3 ∨ 8 < v.toNat / 2 ^ 4 % 2 ^ 4 ∨ 4 < v.toNat % 2 ^ 3) := by
  simp only [csrUnsupported, Bool.and_eq_true, Bool.or_eq_true, beq_iff_eq, decide_eq_true_eq, or_assoc]
  simp only [fld, Nat.pow_zero, Nat.div_one]

theorem RMode.ofCode_eq (n : Nat) : RMode.ofCode n =
    if n = 0 then .rne else if n = 1 then .rtz else if n = 2 then .rdn else if n = 3 then .rup else .rsr := by
  unfold RMode.ofCode
  split
  case h_5 h0 h1 h2 h3 => rw [if_neg h0, if_neg h1, if_neg h2, if_neg h3]
  all_goals rfl

/-- A write to a lane-state register keeps the lanes' value or refuses the written one (R18, R20). -/
theorem laneCsrSet_eq {c : Nat} (l : Lane) (v : X64) (h : csrLane c = true) :
    laneCsrSet l v c = if csrUnsupported c v = true then none else some (l.setCsr c v) := by
  by_cases hv : c = 0x003
  · subst hv
    simp only [laneCsrSet, csrUnsupported_iff, true_and]
    split
    · rfl
    · simp [Lane.setCsr, bitAt, fld, RMode.ofCode_eq]
  · have hu : csrUnsupported c v = false := by simp [csrUnsupported, hv]
    rw [hu, if_neg Bool.false_ne_true]
    rcases csrLane_cases h with rfl | rfl | rfl | rfl | rfl | rfl | rfl | rfl | rfl | rfl | rfl
    case inr.inr.inr.inl => exact absurd rfl hv
    all_goals simp [laneCsrSet, Lane.setCsr]

/-! ### CSRR (R5, R17, R27) -/

/-- The number of a register of the slice or the sequencer: it exists, and the lanes do not hold it. -/
structure SliceCsr (c : Nat) : Prop where
  known : csrKnown c = true
  atSlice : csrLane c = false

/-- CSRR reads the registers of the slice as their tables give them. -/
theorem sliceCsr_of_value {s : State} {c : Nat} {v : X64} (h : sliceCsrValue s s.me c = some v) :
    SliceCsr c ∧ s.sliceCsr s.cur c = (s, v) := by
  have hme : s.slot s.cur = s.me := rfl
  unfold sliceCsrValue at h
  by_cases hq : 0x010 ≤ c ∧ c < 0x020
  · rw [if_pos hq] at h
    refine ⟨⟨?_, ?_⟩, ?_⟩
    · simp [csrKnown, hq]
    · simp [csrLane]; omega
    · simpa [State.sliceCsr, hq, hme] using h
  rw [if_neg hq] at h
  by_cases ht : 0x038 ≤ c ∧ c < 0x03E
  · rw [if_pos ht] at h
    refine ⟨⟨?_, ?_⟩, ?_⟩
    · simp [csrKnown, ht]
    · simp [csrLane]; omega
    · simpa [State.sliceCsr, hq, ht, hme] using h
  rw [if_neg ht] at h
  split at h
  case h_26 => cases h
  all_goals
    cases h
    refine ⟨⟨rfl, rfl⟩, ?_⟩
    simp [State.sliceCsr, hme, bitOf_eq_b2n, TrapRegs.tsr, Nest.word, maskTo_ptroot, Core.held, List.countP_eq_length_filter]

/-- A register with privileged fields is reached by privileged code alone; others by any (R5). -/
theorem csrPriv_granted {s : State} {c : Nat} (h : privilegedCsrs.contains c = true → s.me.tr.priv = true) :
    (csrPriv c && !s.me.tr.priv) = false := by
  rw [csrPriv_eq_listed]
  cases hp : privilegedCsrs.contains c with
  | false => rfl
  | true => rw [h hp]; rfl

theorem csrKnown_of_csrLane {c : Nat} (h : csrLane c = true) : csrKnown c = true := by
  simp [csrKnown, h]

theorem exec_csrr_slice {s : State} {c : BitVec 11} (d : Fin 32) (hs : s.acts) (hc : SliceCsr c.toNat)
    (hp : (csrPriv c.toNat && !s.me.tr.priv) = false) :
    exec (.csrr d c) s = .next ((s.sliceCsr s.cur c.toNat).1.putX d.val (s.sliceCsr s.cur c.toNat).2) := by
  show execCsrr d c s = _
  simp only [execCsrr, hc.known, hc.atSlice, Bool.not_true, Bool.false_eq_true, if_false, State.scalarStep_acts _ _ hs
    (Bool.false_and _) hp, State.csrr, finish]

theorem exec_csrr_lane {s : State} {c : BitVec 11} (d : Fin 32) (hc : csrLane c.toNat = true) :
    exec (.csrr d c) s = finish (s.queueStep (wordOf (.csrr d c)) (csrPriv c.toNat) fun s =>
      s.csrr (wordOf (.csrr d c)) d.val c.toNat) := by
  show execCsrr d c s = _
  simp only [execCsrr, csrKnown_of_csrLane hc, hc, Bool.not_true, Bool.false_eq_true, if_false, if_true]
  rfl

/-- A count of lane-cycles is a free value above what was written (R91, log 4). -/
theorem State.sliceCsr_count (s : State) (k : Nat) {c : Nat} (h : 0x050 ≤ c ∧ c < 0x055) :
    s.sliceCsr k c = (s.tick, vat (s.slot k).lc (c - 0x050) 0 + Config.freeCount s.free) := by
  have hq : ¬(0x010 ≤ c ∧ c < 0x020) := by omega
  have ht : ¬(0x038 ≤ c ∧ c < 0x03E) := by omega
  simp only [State.sliceCsr, if_neg hq, if_neg ht, if_pos h]

theorem csrrReadsItsRegister : Claims.CsrrReadsItsRegister := by
  intro s d c v hs hpriv
  have hp := csrPriv_granted hpriv
  refine ⟨fun h => ?_, fun h hv hq => ?_, fun h hv hq hf => ?_, fun h hv ht => ?_, fun h1 h2 => ?_⟩
  · obtain ⟨hc, hr⟩ := sliceCsr_of_value h
    rw [exec_csrr_slice d hs hc hp, hr]
  · rw [laneCsr_eq, Option.ite_none_right_eq_some, Option.some.injEq] at h
    obtain ⟨hc, rfl⟩ := h
    have hready : (s.me.tr.froz || s.me.queue.isEmpty) = true := by
      rcases hq with hq | hq <;> simp [hq]
    rw [exec_csrr_lane d hc, State.queueStep_acts _ _ hs hp hv]
    simp only [State.csrr, hc, hv, hready, Bool.not_true, Bool.false_eq_true, if_false, if_true, finish]
  · rw [laneCsr_eq, Option.ite_none_right_eq_some] at h
    have hready : (s.me.tr.froz || s.me.queue.isEmpty) = false := by simp [hf, hq]
    rw [exec_csrr_lane d h.1, State.queueStep_acts _ _ hs hp hv]
    simp only [State.csrr, h.1, hv, hready, Bool.not_true, Bool.false_eq_true, if_false, if_true, finish]
    rfl
  · rw [laneCsr_eq, Option.isSome_ite] at h
    exact trapsHere_of_exec ht (by rw [exec_csrr_lane d h, State.queueStep_unavailable _ _ hp hv]; rfl)
  · have hc : SliceCsr c.toNat := ⟨by simp [csrKnown, h1, h2], by simp [csrLane]; omega⟩
    rw [exec_csrr_slice d hs hc hp, State.sliceCsr_count s s.cur ⟨h1, h2⟩]
    exact ⟨_, rfl⟩

/-! ### c8 to c15 (R98, R100) -/

/-- The condition bits after the first n stage bits are written. -/
theorem vat_foldl_stages (c : Vector Bool 16) (l : List Bool) (n : Nat) {i : Nat} (hi : i < 16) :
    vat ((List.range n).foldl (fun c j => c.setIfInBounds (8 + j) (l.getD j false)) c) i false =
      if 8 ≤ i ∧ i < 8 + n then l.getD (i - 8) false else vat c i false := by
  induction n with
  | zero => rw [if_neg (by omega)]; rfl
  | succ n ih =>
    rw [List.range_succ, List.foldl_append, List.foldl_cons, List.foldl_nil, vat_setIfInBounds_eq, ih]
    by_cases h : i = 8 + n
    · rw [if_pos ⟨h, by omega⟩, if_pos (by omega), h, Nat.add_sub_cancel_left]
    · rw [if_neg fun h' => h h'.1]
      have hiff : (8 ≤ i ∧ i < 8 + n) ↔ (8 ≤ i ∧ i < 8 + (n + 1)) := by omega
      simp only [hiff]

/-- Writing the stage bits leaves c0 to c7 as they were. -/
theorem Slot.setStages_c (sl : Slot) (l : List Bool) : (sl.setStages l).c =
    Vector.ofFn fun j => if j.val < 8 then vat sl.c j.val false else l.getD (j.val - 8) false := by
  ext i hi
  have hvat : ∀ v : Vector Bool 16, v[i] = vat v i false := fun v => by simp [vat, hi]
  rw [hvat, Vector.getElem_ofFn, Slot.setStages, vat_foldl_stages _ _ _ hi]
  by_cases h : i < 8
  · rw [if_neg (by omega), if_pos h]
  · rw [if_pos (by omega), if_neg h]

/-- c8 to c15 at the start of pass p of a nest: the stages live in the pass, and the four loop conditions (R98). -/
theorem Slot.startPass_c (sl : Slot) : sl.startPass.c = passConds sl sl.nest sl.nest.npass.toNat (vat sl.k 0 0) := by
  rw [Slot.startPass, Slot.setStages_c, passConds]
  congr 1
  funext j
  obtain ⟨j, hj⟩ := j
  by_cases h8 : j < 8
  · simp [h8]
  · have hlive : ∀ i : Nat, i < 4 → (stageBits sl.nest (vat sl.k 0 0)).getD i false =
        decide (i < sl.nest.sm1.toNat + 1 ∧ i ≤ sl.nest.npass.toNat ∧ sl.nest.npass.toNat < sl.nest.total + i) := by
      intro i hi
      have : (stageBits sl.nest (vat sl.k 0 0)).getD i false = (decide (i < sl.nest.stages) &&
          decide (i ≤ sl.nest.npass.toNat) && decide (sl.nest.npass.toNat - i < sl.nest.total)) := by
        have : i = 0 ∨ i = 1 ∨ i = 2 ∨ i = 3 := by omega
        rcases this with rfl | rfl | rfl | rfl <;> rfl
      rw [this, ← Bool.decide_and, ← Bool.decide_and]
      apply decide_eq_decide.mpr
      unfold Nest.stages
      omega
    by_cases h12 : j < 12
    · simp only [h8, h12, if_false, if_true, hlive (j - 8) (by omega)]
    · have : j = 12 ∨ j = 13 ∨ j = 14 ∨ j = 15 := by omega
      rcases this with rfl | rfl | rfl | rfl
      · rfl
      · rfl
      · rfl
      · exact decide_eq_decide.mpr (by unfold Nest.stages; omega)

/-- With no nest live c8 to c15 read 0 (R98, R100). -/
theorem Slot.setStages_nil (sl : Slot) :
    sl.setStages [] = { sl with c := Vector.ofFn fun j => decide (j.val < 8) && vat sl.c j.val false } := by
  have hc : (sl.setStages []).c = Vector.ofFn fun j => decide (j.val < 8) && vat sl.c j.val false := by
    rw [Slot.setStages_c]
    congr 1
    funext j
    by_cases h8 : j.val < 8 <;> simp [h8]
  rw [← hc]; rfl

theorem Slot.startPass_eq (sl : Slot) : sl.startPass =
    { sl with c := passConds sl sl.nest sl.nest.npass.toNat (vat sl.k 0 0) } := by
  rw [← Slot.startPass_c]; rfl

/-! ### CSRW of a register of the slice (R5, R21, R90, R101, R263) -/

/-- From s to t only the acting slot may have changed, to sl. -/
structure PutsMe (s t : State) (sl : Slot) : Prop where
  me : t.me = sl
  put : ∀ x, t.setMe x = s.setMe x

theorem PutsMe.refl (s : State) : PutsMe s s s.me := ⟨rfl, fun _ => rfl⟩
theorem PutsMe.setMe (s : State) (sl : Slot) : PutsMe s (s.setMe sl) sl := ⟨State.me_setMe _ _, fun _ => State.setMe_setMe _ _ _⟩

/-- The nest registers with a value in NEST, as the model cuts the fields. -/
theorem nestOf_eq (n : Nest) (v : X64) : nestOf n v = { n with
    act := bitAt v 31, own := bitAt v 30, n := BitVec.ofNat 3 (fld v 16 3), sm1 := BitVec.ofNat 2 (fld v 12 2)
    lenm1 := BitVec.ofNat 6 (fld v 0 6) } := by
  have h : ∀ w x : Nat, BitVec.ofNat w (x % 2 ^ w) = BitVec.ofNat w x := fun w x => by
    apply BitVec.eq_of_toNat_eq; simp
  simp only [nestOf, bitAt, fld, h, Nat.pow_zero, Nat.div_one, Nat.pow_one]

theorem nestIllegal_eq (n : Nest) : nestIllegal n = n.bad := by
  have hp : n.total + n.sm1.toNat ≤ n.npass.toNat ↔ n.total + n.stages - 1 ≤ n.npass.toNat := by unfold Nest.stages; omega
  rw [nestIllegal, Nest.bad, Bool.eq_iff_iff]
  simp only [Bool.and_eq_true, Bool.or_eq_true, decide_eq_true_eq, or_assoc, hp]
  rfl

/-- A write of NEST (R101, R357). -/
theorem Slot.setNest_eq (sl : Slot) (v : X64) : sl.setNest v =
    let n := nestOf sl.nest v
    if nestIllegal n then none
    else some { sl with
      nest := n
      c := if n.act then passConds sl n n.npass.toNat (vat sl.k 0 0)
        else Vector.ofFn fun j => decide (j.val < 8) && vat sl.c j.val false } := by
  have hn : sl.setNest v = (let n := nestOf sl.nest v
      if n.bad then none
      else some (if n.act then ({ sl with nest := n } : Slot).startPass else ({ sl with nest := n } : Slot).setStages [])) := by
    rw [nestOf_eq]; rfl
  rw [hn]
  generalize nestOf sl.nest v = n
  simp only [nestIllegal_eq]
  cases n.bad with
  | true => rfl
  | false =>
    cases ha : n.act with
    | true => simp only [Bool.false_eq_true, if_false, if_true, Slot.startPass_eq]; rfl
    | false => simp only [Bool.false_eq_true, if_false, Slot.setStages_nil]

/-- A write of VLCAP at an empty queue (R21, R90). -/
theorem Slot.setCap_eq (sl : Slot) (energy v : X64) : sliceCsrSet sl energy v 0x100 = some (some (sl.setCap v)) := by
  simp only [sliceCsrSet, Slot.setCap, vlmaxOf, fld, Nat.pow_zero, Nat.div_one]
  rfl

/-- The ID of a value that is written to CTXID (R263). -/
theorem ctxid_id_eq_iff (v x : X64) : (v &&& 0x0000FF01FFFFFFFF#64).setWidth 32 = x.setWidth 32 ↔ fld v 0 32 = fld x 0 32 := by
  have hlow : (v &&& 0x0000FF01FFFFFFFF#64).setWidth 32 = v.setWidth 32 := by
    rw [BitVec.setWidth_and, show (0x0000FF01FFFFFFFF#64).setWidth 32 = BitVec.allOnes 32 by decide, BitVec.and_allOnes]
  rw [hlow, ← BitVec.toNat_inj]
  simp only [BitVec.toNat_setWidth, fld, Nat.pow_zero, Nat.div_one]

theorem State.setCtxid_noShare {s : State} {v : X64} (h : fld v 40 8 = 0) : s.setCtxid s.cur v = none := by
  rw [State.setCtxid, if_pos h]

theorem State.setCtxid_sameId {s : State} {v : X64} (h : fld v 40 8 ≠ 0) (hid : fld v 0 32 = fld s.me.ctxid 0 32) :
    s.setCtxid s.cur v = some (s.setMe { s.me with ctxid := v &&& 0x0000FF01FFFFFFFF#64 }) := by
  have hid : ¬fld v 0 32 ≠ fld (s.slot s.cur).ctxid 0 32 := not_not_intro hid
  rw [State.setCtxid, if_neg h, if_neg hid, maskTo_ctxid]
  rfl

/-- A changed ID is a switch point (R263). -/
theorem State.setCtxid_switch {s : State} {v : X64} (h : fld v 40 8 ≠ 0) (hid : fld v 0 32 ≠ fld s.me.ctxid 0 32) :
    s.setCtxid s.cur v = some (s.setMe { s.me with
      ctxid := v &&& 0x0000FF01FFFFFFFF#64, elast := (s.clusterAt (clusterOf s.cur)).energy
      tr := if s.me.ctxid.getLsbD 32 then
        { s.me.tr with acct := s.me.tr.acct + ((s.clusterAt (clusterOf s.cur)).energy - s.me.elast) } else s.me.tr }) := by
  have hid : fld v 0 32 ≠ fld (s.slot s.cur).ctxid 0 32 := hid
  rw [State.setCtxid, if_neg h, if_pos hid, maskTo_ctxid, ← bitAt_eq_getLsbD]
  simp only [State.switchPoint, State.modSlot, State.slot_setSlot_same, State.setSlot_setSlot]
  rfl

/-- What a write of a slice register answers: refused, or the acting slot put. -/
def PutsOrRefuses (s : State) (o : Option State) : Option Slot → Prop
  | none => o = none
  | some sl => ∃ t, o = some t ∧ PutsMe s t sl

theorem PutsOrRefuses.refused {s : State} {o : Option State} (h : PutsOrRefuses s o none) : o = none := h

theorem PutsOrRefuses.put {s : State} {o : Option State} {sl : Slot} (h : PutsOrRefuses s o (some sl)) :
    ∃ t, o = some t ∧ PutsMe s t sl := h

/-- CSRW writes the registers of the slice as their tables say, VLCAP and RLATE apart. -/
theorem setSliceCsr_of_set {s : State} {c : Nat} {v : X64} {r : Option Slot} (hc : c ≠ 0x100)
    (h : sliceCsrSet s.me (s.clusterAt (clusterOf s.cur)).energy v c = some r) :
    SliceCsr c ∧ PutsOrRefuses s (s.setSliceCsr s.cur c v) r := by
  have hme : s.slot s.cur = s.me := rfl
  unfold sliceCsrSet at h
  by_cases hq : 0x010 ≤ c ∧ c < 0x020
  · rw [if_pos hq, Option.some.injEq] at h
    subst h
    have hr : s.setSliceCsr s.cur c v = some s := by
      have ht : ¬(0x038 ≤ c ∧ c < 0x03E) := by omega
      have hl : ¬(0x050 ≤ c ∧ c < 0x055) := by omega
      simp only [State.setSliceCsr, if_neg ht, if_neg hl]
      split
      case h_17 => rfl
      all_goals omega
    exact ⟨⟨by simp [csrKnown, hq], by simp [csrLane]; omega⟩, s, hr, PutsMe.refl s⟩
  rw [if_neg hq] at h
  by_cases ht : 0x038 ≤ c ∧ c < 0x03E
  · rw [if_pos ht, Option.some.injEq] at h
    subst h
    exact ⟨⟨by simp [csrKnown, ht], by simp [csrLane]; omega⟩, _,
      by simp only [State.setSliceCsr, if_pos ht]; rfl, PutsMe.setMe s _⟩
  rw [if_neg ht] at h
  by_cases hl : 0x050 ≤ c ∧ c < 0x055
  · rw [if_pos hl, Option.some.injEq] at h
    subst h
    exact ⟨⟨by simp [csrKnown, hl], by simp [csrLane]; omega⟩, _,
      by simp only [State.setSliceCsr, if_neg ht, if_pos hl]; rfl, PutsMe.setMe s _⟩
  rw [if_neg hl] at h
  split at h
  case h_2 | h_3 | h_4 | h_5 | h_6 | h_7 | h_8 | h_9 => cases h; exact ⟨⟨rfl, rfl⟩, s, rfl, PutsMe.refl s⟩
  case h_10 =>
    have hset : s.setSliceCsr s.cur 0x030 v = (s.me.setNest v).map s.setMe := rfl
    refine ⟨⟨rfl, rfl⟩, ?_⟩
    rw [hset, Slot.setNest_eq]
    rw [Option.some.injEq] at h
    subst h
    by_cases hbad : nestIllegal (nestOf s.me.nest v) = true
    · simp only [hbad, if_true]
      exact rfl
    · simp only [hbad, Bool.false_eq_true, if_false]
      exact ⟨_, rfl, PutsMe.setMe s _⟩
  case h_13 => exact absurd rfl hc
  case h_15 => cases h; rw [← maskTo_cause]; exact ⟨⟨rfl, rfl⟩, _, rfl, PutsMe.setMe s _⟩
  case h_23 =>
    rw [Option.some.injEq] at h
    refine ⟨⟨rfl, rfl⟩, ?_⟩
    have hset : s.setSliceCsr s.cur 0x12A v = s.setCtxid s.cur v := rfl
    rw [hset]
    subst h
    by_cases hshare : v.toNat / 2 ^ 40 % 2 ^ 8 = 0
    · rw [State.setCtxid_noShare hshare, if_pos hshare]
      exact rfl
    rw [if_neg hshare]
    by_cases hid : fld v 0 32 = fld s.me.ctxid 0 32
    · rw [State.setCtxid_sameId hshare hid, if_pos ((ctxid_id_eq_iff _ _).mpr hid)]
      exact ⟨_, rfl, PutsMe.setMe s _⟩
    · rw [State.setCtxid_switch hshare hid, if_neg (mt (ctxid_id_eq_iff _ _).mp hid)]
      exact ⟨_, rfl, PutsMe.setMe s _⟩
  case h_25 => cases h
  all_goals cases h; exact ⟨⟨rfl, rfl⟩, _, rfl, PutsMe.setMe s _⟩

end Sys2Proof.Machine
end

section
/-! PROOFS. CSRW at the slice, in the queue and at the lanes (O20). -/

namespace Sys2Proof.Machine

/-! ### CSRW at the slice (R5, R77, R90) -/

theorem exec_csrw_slice {s : State} {i : Instr} {a c : Nat} (h : csrwOf i = some (a, c)) (hs : s.acts) (hc : SliceCsr c)
    (hp : (csrPriv c && !s.me.tr.priv) = false) : exec i s = finish (s.csrw (csrwWord a c) c (s.me.rx a)) := by
  rw [exec_of_csrwOf s h]
  simp only [State.csrwStep, hc.known, hc.atSlice, Bool.not_true, Bool.false_eq_true, if_false,
    State.scalarStep_acts _ _ hs (Bool.false_and _) hp]

theorem sliceCsr_cap : SliceCsr 0x100 := ⟨rfl, rfl⟩

theorem sliceCsr_rlate : SliceCsr 0x111 := ⟨rfl, rfl⟩

/-- A value that a register of the slice does not support traps (R5). -/
theorem State.csrw_refused {s : State} {c : Nat} (w : Word) (v : X64) (hc : SliceCsr c) (h : c ≠ 0x100)
    (hset : s.setSliceCsr s.cur c v = none) : s.csrw w c v = .ok s.trapOperand := by
  simp only [State.csrw, hc.atSlice, Bool.false_eq_true, if_false, if_neg h, hset]

/-- A register of the slice other than VLCAP is written at once (R90). -/
theorem State.csrw_written {s t : State} {c : Nat} (w : Word) (v : X64) (hc : SliceCsr c) (h : c ≠ 0x100)
    (hset : s.setSliceCsr s.cur c v = some t) : s.csrw w c v = .ok (t.setMe t.me.adv) := by
  simp only [State.csrw, hc.atSlice, Bool.false_eq_true, if_false, if_neg h, hset]

theorem csrwWritesSliceRegister : Claims.CsrwWritesSliceRegister := by
  intro s i a c r hs hi hpriv
  have hp := csrPriv_granted hpriv
  refine ⟨?_, ?_, fun hempty h => ?_⟩
  · rintro rfl hq
    rw [exec_csrw_slice hi hs sliceCsr_cap hp]
    simp [State.csrw, csrLane, hq, finish, Slot.stall]
  · rintro rfl
    rw [exec_csrw_slice hi hs sliceCsr_rlate hp, State.csrw_written _ _ sliceCsr_rlate (by decide) rfl]
    rfl
  · by_cases hcap : c = 0x100
    · subst hcap
      rw [Slot.setCap_eq, Option.some.injEq] at h
      subst h
      rw [exec_csrw_slice hi hs sliceCsr_cap hp]
      refine ⟨fun sl hsl => ?_, nofun⟩
      cases hsl
      simp [State.csrw, csrLane, hempty rfl, finish, Slot.adv_eq_onward]
    · obtain ⟨hc, hset⟩ := setSliceCsr_of_set hcap h
      clear h
      have hexec := exec_csrw_slice hi hs hc hp
      cases r with
      | none =>
        rw [State.csrw_refused _ _ hc hcap hset.refused] at hexec
        exact ⟨fun sl h => absurd h (Option.some_ne_none sl).symm, fun _ ht => trapsHere_of_exec ht hexec⟩
      | some sl =>
        obtain ⟨t, hsome, hput⟩ := hset.put
        refine ⟨fun sl hsl => ?_, fun h => absurd h (Option.some_ne_none _)⟩
        cases hsl
        rw [hexec, State.csrw_written _ _ hc hcap hsome, hput.me, hput.put, finish, Slot.adv_eq_onward]

/-! ### CSRW in the queue (R18, R24, R256) -/

theorem exec_csrw_lane {s : State} {i : Instr} {a c : Nat} (h : csrwOf i = some (a, c)) (hc : csrLane c = true) :
    exec i s = finish (s.queueStep (csrwWord a c) (csrPriv c) fun s => s.csrw (csrwWord a c) c (s.me.rx a)) := by
  rw [exec_of_csrwOf s h]
  simp only [State.csrwStep, csrKnown_of_csrLane hc, hc, Bool.not_true, Bool.false_eq_true, if_false, if_true]

theorem State.csrw_thawed {s : State} {c : Nat} (w : Word) (v : X64) (hc : csrLane c = true) (hv : s.me.tr.vu = true)
    (hf : s.me.tr.froz = false) : s.csrw w c v = .ok (s.enqueue w (fun sl => sl.entryOf none w v) Slot.adv) := by
  simp only [State.csrw, hc, hv, hf, Bool.not_true, Bool.false_eq_true, if_false, if_true]

theorem State.csrw_frozen {s : State} {c : Nat} (w : Word) (v : X64) (hc : csrLane c = true) (hv : s.me.tr.vu = true)
    (hf : s.me.tr.froz = true) : s.csrw w c v =
      .ok (if csrUnsupported c v then s.trapOperand else s.setMe { s.me with lane := s.me.lane.setCsr c v }.adv) := by
  simp only [State.csrw, hc, hv, hf, Bool.not_true, Bool.false_eq_true, if_false, if_true]

/-- An entry of no instruction never chains: it begins a convoy of its own (R28). -/
theorem Slot.push_alone {sl : Slot} {e : Entry} (h : e.ins = none) :
    sl.push e = { sl with queue := sl.queue ++ [e], lastCv := some e } := by
  have hch : ∀ p, sl.chains p e = false := fun p => by
    unfold Slot.chains
    rw [h]
    cases p.ins <;> rfl
  unfold Slot.push
  cases sl.lastCv with
  | none => rfl
  | some p => simp [hch p]

/-! ### CSRW at the lanes (R18, R20, R25) -/

/-- The fields of the word of a CSRW as the lanes read them. -/
theorem csrwWord_fields {i : Instr} {a c : Nat} (h : csrwOf i = some (a, c)) :
    isCsrw (csrwWord a c) = true ∧ (csrwWord a c).toNat % 2048 = c := by
  have hac : a < 32 ∧ c < 2048 := by
    cases i <;> cases h <;> exact ⟨Fin.isLt _, by omega⟩
  have hw : (csrwWord a c).toNat = 0x7F * 33554432 + 4 * 2097152 + a * 2048 + c := by
    simp only [csrwWord, packS, BitVec.toNat_ofNat]
    omega
  constructor
  · simp only [isCsrw, opOf, hw, Bool.and_eq_true, beq_iff_eq]
    omega
  · omega

/-- The head entry of slot k has had its opportunity: the slot is put, and lane groups, the core's turn and answered requests
have changed besides. -/
structure IssuePuts (s u : State) (k : Nat) (sl : Slot) : Prop where
  slot : u.slot k = sl
  others : s.sameSlotsBut u k
  memory : u.mem = s.mem
  cores : ∀ c, u.coreAt c = { s.coreAt c with rr := (u.coreAt c).rr, lanes := (u.coreAt c).lanes }

/-- The core's turn passes on after an opportunity that put slot k. -/
theorem IssuePuts.of_lanesOnly {s t : State} {k : Nat} (h : LanesOnly s t) (hk : coreOf k < 64) (reqs : List LinkReq) (sl : Slot)
    (n : Nat) : IssuePuts s (({ t with reqs := reqs }.setSlot k sl).modCore (coreOf k) fun c => { c with rr := n }) k sl where
  slot := by rw [State.modCore_setSlot, State.slot_setSlot_same]
  others j hj := by rw [State.modCore_setSlot, State.slot_setSlot_ne _ _ hj]; exact h.slot j
  memory := by show t.mem = s.mem; rw [h.rest]
  cores c := by
    rw [State.modCore_setSlot, State.coreAt_setSlot]
    by_cases hc : c = coreOf k
    · subst hc
      rw [State.coreAt_modCore_same _ _ _ hk]
      exact congrArg (fun c : Core => { c with rr := n }) (h.cores _)
    · rw [State.coreAt_modCore_ne _ _ hc]
      show t.coreAt c = { s.coreAt c with rr := (t.coreAt c).rr, lanes := (t.coreAt c).lanes }
      rw [h.cores c]

/-- ISSUE_OPPORTUNITY of a core whose only entries are those of slot k: whatever its head entry does at a state that differs in
lane groups alone, once slot k holds some. -/
theorem exec_issue_head {s : State} {k : Nat} (h : s.lanesFree k) (hq : (s.slot k).queue ≠ []) (c : Fin 64)
    (hc : c.val = coreOf k) {sl : Slot} {reqs : List LinkReq}
    (hi : ∀ t, LanesOnly s t → t.issueHead k = some (.ok ({ t with reqs := reqs }.setSlot k sl))) :
    ∃ u, exec (.issueOpportunity c) s = .next u ∧ IssuePuts s u k sl ∧
      u = { s with slots := u.slots, cores := u.cores, reqs := reqs } := by
  obtain ⟨t, ht⟩ := Option.isSome_iff_exists.mp h.granted
  have hk : coreOf k < 64 := by have := h.inPart; unfold coreOf; omega
  have htrim := State.trimLanes_only 32 s (coreOf k)
  have hlo := htrim.trans (State.claimLanes_only ht)
  have hissue := State.issue_head (by rw [htrim.slot]; exact hq) ht (hi t hlo)
  have hcore := State.issueCore_alone s _ k (fun j hj hc => by rw [htrim.slot]; exact h.alone j hj hc) hissue (by
    show (t.coreAt (coreOf k)).waiting = []
    rw [hlo.cores]; exact h.leave.1)
  refine ⟨_, ?_, IssuePuts.of_lanesOnly hlo hk reqs sl ((k % 16 + 1) % 16), ?_⟩
  · show execIssueOpportunity c s = _
    rw [execIssueOpportunity, hc, hcore]; rfl
  · rw [hlo.rest]; rfl

/-- The entry of a CSRW of a lane-state register stands at the head of slot k's queue, in a live stage. -/
structure CsrwAtHead (s : State) (k c : Nat) (e : Entry) : Prop where
  free : s.lanesFree k
  head : (s.slot k).queue.head? = some e
  kind : e.kind = .instr
  ins : e.ins = none
  stage : e.p = true
  write : isCsrw e.word = true
  csr : e.word.toNat % 2048 = c

namespace CsrwAtHead

variable {s t : State} {k c : Nat} {e : Entry}

theorem queue (h : CsrwAtHead s k c e) : (s.slot k).queue = e :: (s.slot k).queue.tail := by
  obtain ⟨rest, hq⟩ := List.head?_eq_some_iff.mp h.head
  rw [hq, List.tail_cons]

theorem nonempty (h : CsrwAtHead s k c e) : (s.slot k).queue ≠ [] := by rw [h.queue]; exact List.cons_ne_nil _ _

theorem lanesRun (h : CsrwAtHead s k c e) (ht : LanesOnly s t) : t.lanesRun k = true := by
  obtain ⟨-, hb, hf, hs, -⟩ := h.free
  simp [State.lanesRun, ht.slot, hf, hs.1, hs.2.1, hs.2.2, hb.1, hb.2]

theorem dbg_trctl (h : CsrwAtHead s k c e) (ht : LanesOnly s t) : bitAt (t.coreAt (coreOf k)).dbg.trctl 0 = false := by
  rw [ht.cores]; exact h.free.quiet.trace

/-- The lanes judge the value that the entry carries (R18, log 27). -/
theorem issueHead (h : CsrwAtHead s k c e) (ht : LanesOnly s t) : t.issueHead k =
    if csrUnsupported c e.scalar then (t.settleEntry k e t .illegal).map .ok
    else some (.ok ((t.modSlot k fun sl => { sl with lane := sl.lane.setCsr c e.scalar }).retireHead k)) := by
  have hq : (t.slot k).queue = e :: (s.slot k).queue.tail := by rw [ht.slot]; exact h.queue
  simp only [State.issueHead, hq, h.lanesRun ht, h.kind, h.ins, h.stage, h.write, h.csr, Bool.not_true, Bool.false_eq_true,
    if_false, if_true]

end CsrwAtHead

/-- The slot after the entry e of a CSRW of register c at its queue's head: the register is written and the entry retired. -/
def Slot.csrWritten (sl : Slot) (c : Nat) (e : Entry) : Slot :=
  { sl with
    lane := sl.lane.setCsr c e.scalar, queue := sl.queue.tail
    lastCv := if sl.queue.tail.isEmpty then none else sl.lastCv
    cvVl := if e.cvPos = 0 then (sl.lane.setCsr c e.scalar).vl else sl.cvVl }

/-- A supported value is the lanes' value of the register, and the entry retires. -/
theorem exec_issue_csrw_written {s : State} {k c : Nat} {e : Entry} (h : CsrwAtHead s k c e) (core : Fin 64)
    (hcore : core.val = coreOf k) (hu : csrUnsupported c e.scalar = false) :
    ∃ u, exec (.issueOpportunity core) s = .next u ∧ OnlyLanes s u k ∧ (u.slot k).lane = (s.slot k).lane.setCsr c e.scalar ∧
      (u.slot k).queue = (s.slot k).queue.tail := by
  obtain ⟨u, hu, hp, hrest⟩ := exec_issue_head h.free h.nonempty core hcore (reqs := s.reqs) (sl := (s.slot k).csrWritten c e)
    fun t ht => by
      have hreqs : t.reqs = s.reqs := by rw [ht.rest]
      rw [h.issueHead ht, hu, if_neg Bool.false_ne_true, State.modSlot, ht.slot,
        State.retireHead_quiet (t.setSlot k _) k e (s.slot k).queue.tail (by rw [State.slot_setSlot_same]; exact h.queue)
          (by rw [State.slot_setSlot_same]; exact h.free.bound.2) (by rw [State.coreAt_setSlot]; exact h.dbg_trctl ht),
        State.slot_setSlot_same, State.setSlot_setSlot, ← hreqs]
      rfl
  refine ⟨u, hu, ⟨by rw [hp.slot]; rfl, hp.others, hp.memory, fun c => ?_, hrest⟩, by rw [hp.slot]; rfl, by rw [hp.slot]; rfl⟩
  rw [hp.cores c]

/-- Settling a back-flow leaves the lanes as they are. -/
theorem Slot.settle_lane (sl : Slot) : sl.settle.lane = sl.lane := by
  unfold Slot.settle
  split
  · rfl
  · next d v _ => rw [Slot.adv_eq_onward]; unfold Slot.wx Slot.onward; split <;> rfl
  · rfl

/-- A lane fault of a running slot that waits for no leave: it drains into the trap. -/
theorem State.laneTrap_running {s : State} {k : Nat} (hw : (s.coreAt (coreOf k)).waiting = []) (hs : (s.slot k).st ≠ .stop)
    (code : TrapCode) (kind : Nat) (epc val : X64) : s.laneTrap k code kind epc val =
      { s with reqs := s.reqs.filter fun r => r.owner != 4 * k + 1 }.setSlot k
        (let x := (s.slot k).recall.settle
        { x with st := .drain, cause := 6
                 pend := some { code := code, kind := kind, lane := true, epc := epc, tval := val, rpc := x.pc } }) := by
  have hu : s.unwait k = s := by simp [State.unwait, hw]
  have hs : ¬(s.slot k).recall.st = .stop := hs
  rw [State.laneTrap, hu]
  exact if_neg hs

/-- An unsupported value is a lane fault at the entry's word: nothing of the lanes changes (R18, log 27). -/
theorem exec_issue_csrw_refused {s : State} {k c : Nat} {e : Entry} (h : CsrwAtHead s k c e) (core : Fin 64)
    (hcore : core.val = coreOf k) (hu : csrUnsupported c e.scalar = true) (hown : ∀ q ∈ s.reqs, q.owner ≠ 4 * k) :
    ∃ u, exec (.issueOpportunity core) s = .next u ∧ LaneFault s u k .illegalOperand 0 e.pc 0 (s.slot k).lane.vstart := by
  obtain ⟨u, hu, hp, hrest⟩ := exec_issue_head h.free h.nonempty core hcore
    (reqs := s.reqs.filter fun r => r.owner != 4 * k + 1) (sl := (let x := (s.slot k).recall.settle
      { x with st := .drain, cause := 6
               pend := some { code := .illegalOperand, kind := 0, lane := true, epc := e.pc, tval := 0, rpc := x.pc } }))
    fun t ht => by
    have hreqs : t.reqs = s.reqs := by rw [ht.rest]
    have hfree : t.laneFree k = true := by
      simpa [State.laneFree, hreqs] using hown
    have htrap := State.laneTrap_running (s := t) (k := k) (by rw [ht.cores]; exact h.free.leave.1)
      (by rw [ht.slot]; exact h.free.bound.2) .illegalOperand 0 e.pc 0
    rw [ht.slot, hreqs] at htrap
    rw [h.issueHead ht, if_pos hu]
    simp only [State.settleEntry, hfree, if_true, htrap, Option.map]
  refine ⟨u, hu, ⟨?_, hp.others, hp.memory, fun c => ?_, ?_⟩⟩
  · rw [hp.slot]
    have hlane : (s.slot k).recall.settle.lane = (s.slot k).lane := Slot.settle_lane _
    simp only [← hlane]
  · rw [hp.cores c]
  · rw [hrest]

/-! ### CSRW of a lane-state register -/

theorem csrwWritesLaneRegister : Claims.CsrwWritesLaneRegister := by
  intro s i a c hs hi hpriv hlane
  rw [laneCsr_eq, Option.isSome_ite] at hlane
  have hp := csrPriv_granted hpriv
  have hexec := exec_csrw_lane (s := s) hi hlane
  have hword := sliceWord_of_csrwOf hi
  refine ⟨fun hv ht => ?_, fun hv hf hq => ?_, fun hv hf hq => ?_, fun hv hf => ⟨fun l hl => ?_, fun hl ht => ?_⟩,
    fun k e core hfree hcore hhead hkind hins hstage hw => ?_⟩
  · rw [State.queueStep_unavailable _ _ hp hv] at hexec
    rw [hword]
    exact trapsHere_of_exec ht hexec
  · rw [hexec, State.queueStep_acts _ _ hs hp hv, State.csrw_thawed _ _ hlane hv hf, State.enqueue_full _ _ _ hv hf hq]
    rfl
  · rw [State.queueStep_acts _ _ hs hp hv, State.csrw_thawed _ _ hlane hv hf, State.enqueue_pushes _ _ _ ⟨hv, hf, hq⟩,
      Slot.push_alone rfl] at hexec
    refine ⟨_, s.me.entryOf none (csrwWord a c) (s.me.rx a), hexec, ?_, ?_, rfl, rfl, hword.symm, rfl, hs⟩
    · rw [State.onlySlot]; simp [State.setMe]
    · simp [State.setMe, Slot.adv_eq_onward]; rfl
  · rw [laneCsrSet_eq _ _ hlane, Option.ite_none_left_eq_some, Option.some.injEq] at hl
    rw [hexec, State.queueStep_acts _ _ hs hp hv, State.csrw_frozen _ _ hlane hv hf, if_neg hl.1, ← hl.2]
    rfl
  · rw [laneCsrSet_eq _ _ hlane] at hl
    have hu : csrUnsupported c (s.me.rx a) = true := by simpa using hl
    rw [State.queueStep_acts _ _ hs hp hv, State.csrw_frozen _ _ hlane hv hf, if_pos hu] at hexec
    exact trapsHere_of_exec ht hexec
  · obtain ⟨hcsrw, hnum⟩ := csrwWord_fields hi
    rw [hword] at hw
    have hat : CsrwAtHead s k c e := ⟨hfree, hhead, hkind, hins, hstage, hw ▸ hcsrw, hw ▸ hnum⟩
    simp only [laneCsrSet_eq _ _ hlane, Option.ite_none_left_eq_some, Option.some.injEq]
    refine ⟨fun l hl => ?_, fun hl hown => ?_⟩
    · obtain ⟨hsup, rfl⟩ := hl
      exact exec_issue_csrw_written hat core hcore (by simpa using hsup)
    · exact exec_issue_csrw_refused hat core hcore (by simpa using hl) hown

/-- Settles O20: every register is read and written as its table says, at the slice, in the queue and at the lanes. -/
theorem controlRegistersAreReadAndWritten : Obligations.ControlRegistersAreReadAndWritten :=
  ⟨csrrReadsItsRegister, csrwWritesSliceRegister, csrwWritesLaneRegister⟩

end Sys2Proof.Machine
end

section
/-! PROOFS. Scalar loads and stores (O21): a data L1 as a list of dirty bytes, and the accesses of the slice to it. -/

namespace Sys2Proof.Machine

/-! ### What the data L1s hold of an address (R31) -/

/-- The dirty byte of an address in one data L1. -/
def Core.dirtyAt (c : Core) (x : Nat) : Option Host.Cell := c.l1.find? fun b => b.1 == x

/-- How often a data L1 lists an address. -/
def Core.dirtyCount (c : Core) (x : Nat) : Nat := (c.l1.filter fun b => b.1 == x).length

theorem State.cores_toList (s : State) : s.cores.toList = (List.range 64).map s.coreAt := by
  apply List.ext_getElem
  · simp
  · intro j h1 h2
    have hj : j < 64 := by simpa using h1
    simp [State.coreAt, vat, hj]

theorem State.dirtyByte_eq (s : State) (x : Nat) :
    s.dirtyByte x = ((List.range 64).findSome? fun c => (s.coreAt c).dirtyAt x).map (·.2) := by
  rw [State.dirtyByte, State.cores_toList, List.findSome?_map]
  rfl

/-- An address of which every data L1 holds the same as before is seen as before when its byte of memory is. -/
theorem State.seen_congr {s t : State} {x : Nat} (hl : ∀ c, (t.coreAt c).dirtyAt x = (s.coreAt c).dirtyAt x)
    (hm : Memory.read t.mem x = Memory.read s.mem x) : t.seen x = s.seen x := by
  simp only [State.seen, State.dirtyByte_eq, hl, hm]

/-- An address that is dirty in no data L1 is seen as memory has it. -/
theorem State.seen_of_clean {s : State} {x : Nat} (h : ∀ c, (s.coreAt c).dirtyAt x = none) : s.seen x = Memory.read s.mem x := by
  have hn : (List.range 64).findSome? (fun c => (s.coreAt c).dirtyAt x) = none := by simp [h]
  rw [State.seen, State.dirtyByte_eq, hn]
  rfl

/-- An address that is dirty in one data L1 alone is seen as that one has it. -/
theorem State.seen_of_dirty {s : State} {c x : Nat} {b : Byte} (hc : c < 64) (h : (s.coreAt c).dirtyAt x = some (x, b))
    (ho : ∀ j, j ≠ c → (s.coreAt j).dirtyAt x = none) : s.seen x = b := by
  have hs : (List.range 64).findSome? (fun c => (s.coreAt c).dirtyAt x) = some (x, b) := by
    rw [List.findSome?_eq_some_iff]
    refine ⟨List.range c, c, (List.range' (c + 1) (63 - c)), ?_, h, fun j hj => ho j (Nat.ne_of_lt (List.mem_range.mp hj))⟩
    have happ := List.range'_append_1 (s := 0) (m := c) (n := 63 - c + 1)
    rw [Nat.zero_add, show c + (63 - c + 1) = 64 by omega] at happ
    rw [List.range_eq_range', List.range_eq_range', ← List.range'_succ, happ]
  rw [State.seen, State.dirtyByte_eq, hs]
  rfl

theorem Core.dirtyAt_eq_none_iff {c : Core} {x : Nat} : c.dirtyAt x = none ↔ c.dirtyCount x = 0 := by
  simp [Core.dirtyAt, Core.dirtyCount]

/-- A sum bounds each two of its terms together. -/
theorem add_le_sum_map {l : List Nat} {f : Nat → Nat} {c j : Nat} (hc : c ∈ l) (hj : j ∈ l) (h : j ≠ c) :
    f c + f j ≤ (l.map f).sum := by
  have one : ∀ {l : List Nat} {x : Nat}, x ∈ l → f x ≤ (l.map f).sum := fun {l x} hx => by
    induction l with
    | nil => cases hx
    | cons y t ih =>
      rw [List.map_cons, List.sum_cons]
      rcases List.mem_cons.mp hx with rfl | hxt
      · omega
      · have := ih hxt; omega
  induction l with
  | nil => cases hc
  | cons y t ih =>
    rw [List.map_cons, List.sum_cons]
    rcases List.mem_cons.mp hc with rfl | hct
    · have := one ((List.mem_cons.mp hj).resolve_left h); omega
    · rcases List.mem_cons.mp hj with rfl | hjt
      · have := one hct; omega
      · have := ih hct hjt; omega

theorem sum_map_le_sum_map (l : List Nat) {f g : Nat → Nat} (h : ∀ x, f x ≤ g x) : (l.map f).sum ≤ (l.map g).sum := by
  induction l with
  | nil => exact Nat.le_refl _
  | cons y t ih =>
    rw [List.map_cons, List.sum_cons, List.map_cons, List.sum_cons]
    exact Nat.add_le_add (h y) ih

/-- One place among the first n counts once at most. -/
theorem sum_map_range_single (n c : Nat) : ((List.range n).map fun j => if j = c then 1 else 0).sum = if c < n then 1 else 0 := by
  induction n with
  | zero => rfl
  | succ n ih =>
    rw [List.range_succ, List.map_append, List.sum_append, ih, List.map_cons, List.map_nil, List.sum_cons, List.sum_nil]
    split <;> split <;> split <;> omega

theorem State.dirtyOnce_iff (s : State) (x : Nat) :
    s.dirtyOnce x ↔ ((List.range 64).map fun c => (s.coreAt c).dirtyCount x).sum ≤ 1 := Iff.rfl

/-- An address that one data L1 holds is in no other. -/
theorem State.dirtyOnce.alone {s : State} {x c : Nat} (h : s.dirtyOnce x) (hc : c < 64) (hpos : (s.coreAt c).dirtyAt x ≠ none) :
    (s.coreAt c).dirtyCount x = 1 ∧ ∀ j, j ≠ c → j < 64 → (s.coreAt j).dirtyAt x = none := by
  rw [State.dirtyOnce_iff] at h
  rw [Ne, Core.dirtyAt_eq_none_iff] at hpos
  have hpair : ∀ j, j ≠ c → j < 64 → (s.coreAt c).dirtyCount x + (s.coreAt j).dirtyCount x ≤ 1 := fun j hj hj64 =>
    Nat.le_trans (add_le_sum_map (f := fun c => (s.coreAt c).dirtyCount x) (List.mem_range.mpr hc) (List.mem_range.mpr hj64) hj) h
  refine ⟨?_, fun j hj hj64 => ?_⟩
  · by_cases h0 : c = 0
    · have := hpair 1 (by omega) (by omega); omega
    · have := hpair 0 (by omega) (by omega); omega
  · rw [Core.dirtyAt_eq_none_iff]
    have := hpair j hj hj64
    omega

/-- An address that no data L1 lists more often than before stays in one at most. -/
theorem State.dirtyOnce.mono {s t : State} {x : Nat} (h : s.dirtyOnce x)
    (hle : ∀ c, (t.coreAt c).dirtyCount x ≤ (s.coreAt c).dirtyCount x) : t.dirtyOnce x := by
  rw [State.dirtyOnce_iff] at h ⊢
  exact Nat.le_trans (sum_map_le_sum_map _ hle) h

/-- Beyond the 64 cores there is no data L1. -/
theorem State.coreAt_outside (s : State) {c : Nat} (h : ¬c < 64) : s.coreAt c = Core.reset := by
  simp [State.coreAt, vat, h]

/-! ### One byte of a scalar store (R31, R221) -/

/-- A byte becomes dirty in the data L1 of core c and leaves every other one. -/
def State.putDirty (s : State) (c a : Nat) (b : Byte) : State :=
  { s with cores := s.cores.map fun (x : Core) => { x with l1 := x.l1.filter fun e => e.1 != a } }.modCore c fun x =>
    { x with l1 := x.l1 ++ [(a, b)] }

theorem State.putDirty_only (s : State) (c a : Nat) (b : Byte) :
    s.putDirty c a b = { s with cores := (s.putDirty c a b).cores } := rfl

/-- The cores whose data L1s no longer hold an address. -/
theorem State.coreAt_dropped (s : State) (a j : Nat) :
    ({ s with cores := s.cores.map fun (x : Core) => { x with l1 := x.l1.filter fun e => e.1 != a } } : State).coreAt j =
      { s.coreAt j with l1 := (s.coreAt j).l1.filter fun e => e.1 != a } := by
  by_cases hj : j < 64
  · simp [State.coreAt, vat, hj]
  · rw [State.coreAt_outside _ hj, State.coreAt_outside _ hj]; rfl

theorem State.coreAt_putDirty (s : State) {c : Nat} (a : Nat) (b : Byte) (hc : c < 64) (j : Nat) : (s.putDirty c a b).coreAt j =
    { s.coreAt j with
      l1 := ((s.coreAt j).l1.filter fun e => e.1 != a) ++ if j = c then [(a, b)] else [] } := by
  unfold State.putDirty
  by_cases hj : j = c
  · subst hj
    rw [State.coreAt_modCore_same _ _ _ hc, State.coreAt_dropped]
    simp
  · rw [State.coreAt_modCore_ne _ _ hj, State.coreAt_dropped]
    simp [hj]

theorem State.dirtyAt_putDirty_ne (s : State) {c a x : Nat} (b : Byte) (hc : c < 64) (h : x ≠ a) (j : Nat) :
    ((s.putDirty c a b).coreAt j).dirtyAt x = (s.coreAt j).dirtyAt x := by
  have hf : ∀ l : List Host.Cell, (l.filter fun e => e.1 != a).find? (fun e => e.1 == x) = l.find? fun e => e.1 == x := fun l => by
    rw [List.find?_filter]
    congr 1
    funext e
    by_cases he : e.1 = x <;> simp [he, h]
  have hnew : (if j = c then [(a, b)] else [] : List Host.Cell).find? (fun e => e.1 == x) = none := by
    split <;> simp [Ne.symm h]
  rw [State.coreAt_putDirty _ _ _ hc, Core.dirtyAt, List.find?_append, hf, hnew, Option.or_none]
  rfl

theorem State.dirtyAt_putDirty_same (s : State) {c : Nat} (a : Nat) (b : Byte) (hc : c < 64) (j : Nat) :
    ((s.putDirty c a b).coreAt j).dirtyAt a = if j = c then some (a, b) else none := by
  have hf : ∀ l : List Host.Cell, (l.filter fun e => e.1 != a).find? (fun e => e.1 == a) = none := fun l => by simp
  rw [State.coreAt_putDirty _ _ _ hc, Core.dirtyAt, List.find?_append, hf]
  split <;> simp

theorem State.dirtyCount_putDirty_ne (s : State) {c a x : Nat} (b : Byte) (hc : c < 64) (h : x ≠ a) (j : Nat) :
    ((s.putDirty c a b).coreAt j).dirtyCount x = (s.coreAt j).dirtyCount x := by
  have hf : ∀ l : List Host.Cell, (l.filter fun e => e.1 != a).filter (fun e => e.1 == x) = l.filter fun e => e.1 == x := fun l => by
    rw [List.filter_filter]
    congr 1
    funext e
    by_cases he : e.1 = x <;> simp [he, h]
  have hnew : (if j = c then [(a, b)] else [] : List Host.Cell).filter (fun e => e.1 == x) = [] := by
    split <;> simp [Ne.symm h]
  rw [State.coreAt_putDirty _ _ _ hc, Core.dirtyCount, List.filter_append, hf, hnew, List.append_nil]
  rfl

theorem State.dirtyCount_putDirty_same (s : State) {c : Nat} (a : Nat) (b : Byte) (hc : c < 64) (j : Nat) :
    ((s.putDirty c a b).coreAt j).dirtyCount a = if j = c then 1 else 0 := by
  rw [State.coreAt_putDirty _ _ _ hc, Core.dirtyCount, List.filter_append]
  split <;> simp

theorem State.seen_putDirty_same (s : State) {c : Nat} (a : Nat) (b : Byte) (hc : c < 64) : (s.putDirty c a b).seen a = b :=
  State.seen_of_dirty hc (by rw [State.dirtyAt_putDirty_same _ _ _ hc, if_pos rfl])
    fun j hj => by rw [State.dirtyAt_putDirty_same _ _ _ hc, if_neg hj]

theorem State.seen_putDirty_ne (s : State) {c a x : Nat} (b : Byte) (hc : c < 64) (h : x ≠ a) :
    (s.putDirty c a b).seen x = s.seen x :=
  State.seen_congr (State.dirtyAt_putDirty_ne s b hc h) rfl

theorem State.dirtyOnce.putDirty {s : State} {x c : Nat} (h : s.dirtyOnce x) (a : Nat) (b : Byte) (hc : c < 64) :
    (s.putDirty c a b).dirtyOnce x := by
  by_cases hx : x = a
  · subst hx
    rw [State.dirtyOnce_iff]
    simp only [State.dirtyCount_putDirty_same s x b hc]
    rw [sum_map_range_single]
    split <;> decide
  · exact h.mono fun j => Nat.le_of_eq (State.dirtyCount_putDirty_ne s b hc hx j)

/-! ### Room in a data L1 (R2, R31; log 85) -/

/-- Bytes written to memory in any order: an address that none of them names reads as before. -/
theorem Memory.read_foldl_write_ne {x : Nat} (l : List Host.Cell) (m : List Host.Cell) (h : ∀ b ∈ l, b.1 ≠ x) :
    Memory.read (l.foldl (fun m b => Memory.write m b.1 b.2) m) x = Memory.read m x := by
  induction l generalizing m with
  | nil => rfl
  | cons b t ih =>
    rw [List.foldl_cons, ih _ (fun e he => h e (List.mem_cons_of_mem b he)),
      Memory.read_write_ne _ _ (h b List.mem_cons_self).symm]

/-- A byte that stands once among the bytes written reads as written. -/
theorem Memory.read_foldl_write {x : Nat} {b : Byte} (l : List Host.Cell) (m : List Host.Cell)
    (h : l.filter (fun e => e.1 == x) = [(x, b)]) : Memory.read (l.foldl (fun m b => Memory.write m b.1 b.2) m) x = b := by
  induction l generalizing m with
  | nil => cases h
  | cons e t ih =>
    by_cases he : e.1 = x
    · rw [List.filter_cons_of_pos (by simpa using he), List.cons.injEq] at h
      obtain ⟨rfl, ht⟩ := h
      rw [List.foldl_cons, Memory.read_foldl_write_ne t _ (by simpa using ht), Memory.read_write_same]
    · rw [List.filter_cons_of_neg (by simpa using he)] at h
      exact ih _ h

/-- From s to t, dirty bytes of core c may have gone to memory, and nothing else has changed for a scalar agent. -/
structure Spills (s t : State) : Prop where
  rest : t = { s with cores := t.cores, mem := t.mem, free := t.free }
  cores : ∀ j, t.coreAt j = { s.coreAt j with l1 := (t.coreAt j).l1 }
  seen : ∀ x, s.dirtyOnce x → t.seen x = s.seen x
  once : ∀ x, s.dirtyOnce x → t.dirtyOnce x

theorem Spills.refl (s : State) : Spills s s := ⟨rfl, fun _ => rfl, fun _ _ => rfl, fun _ h => h⟩

/-- With no stack drained an eviction writes a whole line back. -/
theorem State.evictLine_eq {s : State} (hs : s.settled) (c line : Nat) : s.evictLine c line =
    { s with
      mem := ((s.coreAt c).l1.filter fun (b : Host.Cell) => b.1 / 128 == line).foldl (fun m (b : Host.Cell) => Memory.write m b.1 b.2) s.mem
    }.modCore c fun x => { x with l1 := x.l1.filter fun b => !(b.1 / 128 == line) } := by
  have hheld : s.stackHeld (line * 128) = false := by simp [State.stackHeld, hs.drained]
  simp only [State.evictLine, hheld, Bool.not_false, Bool.and_true]

theorem State.coreAt_evictLine {s : State} (hs : s.settled) {c : Nat} (hc : c < 64) (line j : Nat) :
    (s.evictLine c line).coreAt j =
      { s.coreAt j with
        l1 := if j = c then (s.coreAt j).l1.filter fun b => !(b.1 / 128 == line) else (s.coreAt j).l1 } := by
  rw [State.evictLine_eq hs]
  by_cases hj : j = c
  · subst hj
    rw [State.coreAt_modCore_same _ _ _ hc, if_pos rfl]
    rfl
  · rw [State.coreAt_modCore_ne _ _ hj, if_neg hj]
    rfl

theorem State.mem_evictLine {s : State} (hs : s.settled) (c line : Nat) : (s.evictLine c line).mem =
    ((s.coreAt c).l1.filter fun (b : Host.Cell) => b.1 / 128 == line).foldl (fun m (b : Host.Cell) => Memory.write m b.1 b.2) s.mem := by
  rw [State.evictLine_eq hs]; rfl

/-- What another line's address has in the data L1s stays there. -/
theorem State.dirtyAt_evictLine_ne {s : State} (hs : s.settled) {c line x : Nat} (hc : c < 64) (hx : x / 128 ≠ line) (j : Nat) :
    ((s.evictLine c line).coreAt j).dirtyAt x = (s.coreAt j).dirtyAt x := by
  rw [State.coreAt_evictLine hs hc, Core.dirtyAt, Core.dirtyAt]
  split
  · rw [List.find?_filter]
    congr 1
    funext e
    by_cases he : e.1 = x
    · subst he; simp [hx]
    · simp [he]
  · rfl

/-- The evicted core holds nothing of the line any more; the others hold what they held. -/
theorem State.dirtyAt_evictLine_same {s : State} (hs : s.settled) {c line x : Nat} (hc : c < 64) (hx : x / 128 = line) (j : Nat) :
    ((s.evictLine c line).coreAt j).dirtyAt x = if j = c then none else (s.coreAt j).dirtyAt x := by
  rw [State.coreAt_evictLine hs hc, Core.dirtyAt]
  split
  · simp only [List.find?_eq_none, List.mem_filter]
    rintro e ⟨-, he⟩ hex
    simp only [beq_iff_eq] at hex
    simp [hex, hx] at he
  · rfl

theorem Core.dirtyAt_of_count {c : Core} {x : Nat} (h : c.dirtyCount x = 1) :
    ∃ b, c.dirtyAt x = some (x, b) ∧ c.l1.filter (fun e => e.1 == x) = [(x, b)] := by
  obtain ⟨⟨y, b⟩, he⟩ := List.length_eq_one_iff.mp h
  have hy : y = x := by
    have : (y, b) ∈ c.l1.filter fun e => e.1 == x := by rw [he]; exact List.mem_singleton.mpr rfl
    simpa using (List.mem_filter.mp this).2
  subst hy
  refine ⟨b, ?_, he⟩
  rw [Core.dirtyAt, ← List.head?_filter, he]
  rfl

/-- A byte of a line that goes to memory is seen there as it was in the data L1. -/
theorem State.seen_evictLine {s : State} (hs : s.settled) {c x : Nat} (line : Nat) (hc : c < 64) (h : s.dirtyOnce x) :
    (s.evictLine c line).seen x = s.seen x := by
  by_cases hx : x / 128 = line
  · by_cases hheld : (s.coreAt c).dirtyAt x = none
    · refine State.seen_congr (fun j => ?_) ?_
      · rw [State.dirtyAt_evictLine_same hs hc hx]
        split
        · next hj => rw [hj, hheld]
        · rfl
      · rw [State.mem_evictLine hs, Memory.read_foldl_write_ne]
        intro b hb hbx
        rw [Core.dirtyAt, List.find?_eq_none] at hheld
        exact hheld b (List.mem_filter.mp hb).1 (beq_iff_eq.mpr hbx)
    · obtain ⟨hone, hothers⟩ := h.alone hc hheld
      have hothers : ∀ j, j ≠ c → (s.coreAt j).dirtyAt x = none := fun j hj => by
        by_cases hj64 : j < 64
        · exact hothers j hj hj64
        · rw [State.coreAt_outside _ hj64]; rfl
      obtain ⟨b, hfind, hfilter⟩ := Core.dirtyAt_of_count hone
      rw [State.seen_of_dirty hc hfind hothers, State.seen_of_clean, State.mem_evictLine hs, Memory.read_foldl_write]
      · rw [List.filter_filter]
        rw [← hfilter]
        congr 1
        funext e
        by_cases he : e.1 = x
        · subst he; simp [hx]
        · simp [he]
      · intro j
        rw [State.dirtyAt_evictLine_same hs hc hx]
        split
        · rfl
        · next hj => exact hothers j hj
  · refine State.seen_congr (State.dirtyAt_evictLine_ne hs hc hx) ?_
    rw [State.mem_evictLine hs, Memory.read_foldl_write_ne]
    rintro b hb rfl
    exact hx (by simpa using (List.mem_filter.mp hb).2)

theorem State.spills_evictLine {s : State} (hs : s.settled) {c : Nat} (line : Nat) (hc : c < 64) : Spills s (s.evictLine c line) where
  rest := by rw [State.evictLine_eq hs]; rfl
  cores j := by rw [State.coreAt_evictLine hs hc]
  seen x h := State.seen_evictLine hs line hc h
  once x h := h.mono fun j => by
    rw [State.coreAt_evictLine hs hc, Core.dirtyCount, Core.dirtyCount]
    split
    · exact (List.filter_sublist.filter _).length_le
    · exact Nat.le_refl _

/-- A free value more is used. -/
theorem Spills.free {s t : State} (h : Spills s t) (n : Nat) : Spills s { t with free := n } where
  rest := by rw [h.rest]
  cores := h.cores
  seen := h.seen
  once := h.once

/-- The lines of a data L1 that has room are enough for one more address. -/
theorem Core.hasRoom_iff (c : Core) (a : Nat) :
    c.hasRoom a ↔ (c.dirtyLines.contains (a / 128) || decide (c.dirtyLines.length < l1Lines)) = true := by
  rw [Core.hasRoom, Bool.or_eq_true, List.contains_iff_mem, decide_eq_true_iff, Core.dirtyLines, List.mem_eraseDups, List.mem_map]
  rfl

theorem State.l1Room_of_room {s : State} {c a : Nat} (h : (s.coreAt c).hasRoom a) : s.l1Room c a = s := by
  rw [Core.hasRoom_iff] at h
  exact if_pos h

theorem State.l1Room_spills {s : State} (hs : s.settled) {c : Nat} (a : Nat) (hc : c < 64) : Spills s (s.l1Room c a) := by
  by_cases h : (s.coreAt c).hasRoom a
  · rw [State.l1Room_of_room h]; exact Spills.refl s
  · rw [Core.hasRoom_iff] at h
    unfold State.l1Room
    rw [if_neg h]
    exact (State.spills_evictLine hs _ hc).free _

theorem Spills.settled {s t : State} (h : Spills s t) (hs : s.settled) : t.settled := by
  rw [h.rest]; exact ⟨hs.clean, hs.still, hs.drained⟩

/-! ### The bytes of a scalar store (R31, R221) -/

/-- Bytes from pa + n on become dirty in the data L1 of core c. -/
def State.putBytes (s : State) (c pa : Nat) : Nat → List Byte → State
  | _, [] => s
  | n, b :: t => (s.putDirty c (pa + n) b).putBytes c pa (n + 1) t

theorem State.putBytes_only (s : State) (c pa n : Nat) (l : List Byte) :
    s.putBytes c pa n l = { s with cores := (s.putBytes c pa n l).cores } := by
  induction l generalizing s n with
  | nil => rfl
  | cons b t ih => rw [State.putBytes, ih]; rfl

theorem State.coreAt_putBytes (s : State) {c : Nat} (pa n : Nat) (l : List Byte) (hc : c < 64) (j : Nat) :
    (s.putBytes c pa n l).coreAt j = { s.coreAt j with l1 := ((s.putBytes c pa n l).coreAt j).l1 } := by
  induction l generalizing s n with
  | nil => rfl
  | cons b t ih => rw [State.putBytes, ih, State.coreAt_putDirty _ _ _ hc]

theorem State.seen_putBytes_ne (s : State) {c pa n x : Nat} (l : List Byte) (hc : c < 64) (h : x < pa + n ∨ pa + n + l.length ≤ x) :
    (s.putBytes c pa n l).seen x = s.seen x := by
  induction l generalizing s n with
  | nil => rfl
  | cons b t ih =>
    rw [List.length_cons] at h
    rw [State.putBytes, ih _ (by omega), State.seen_putDirty_ne _ _ hc (by omega)]

theorem State.seen_putBytes (s : State) {c pa n j : Nat} (l : List Byte) (hc : c < 64) (h : j < l.length) :
    (s.putBytes c pa n l).seen (pa + n + j) = l[j] := by
  induction l generalizing s n j with
  | nil => simp at h
  | cons b t ih =>
    rw [State.putBytes]
    cases j with
    | zero => rw [State.seen_putBytes_ne _ _ hc (by omega)]; exact State.seen_putDirty_same _ _ _ hc
    | succ j =>
      rw [show pa + n + (j + 1) = pa + (n + 1) + j by omega, ih _ (by simpa using h)]
      rfl

theorem State.dirtyOnce.putBytes {s : State} {x c : Nat} (h : s.dirtyOnce x) (pa n : Nat) (l : List Byte) (hc : c < 64) :
    (s.putBytes c pa n l).dirtyOnce x := by
  induction l generalizing s n with
  | nil => exact h
  | cons b t ih => exact ih (h.putDirty _ _ hc) _

theorem State.forWrite_still {s : State} (h : s.fwds = []) (pa : Nat) : s.forWrite pa = (s, pa) := by
  simp [State.forWrite, h, State.forWriteIn]

/-- After a byte of its line the next byte of a store finds room. -/
theorem State.hasRoom_putDirty (s : State) {c a x : Nat} (b : Byte) (hc : c < 64) (h : a / 128 = x / 128) :
    ((s.putDirty c a b).coreAt c).hasRoom x := by
  rw [State.coreAt_putDirty _ _ _ hc, if_pos rfl]
  exact Or.inl ⟨(a, b), List.mem_append_right _ (List.mem_singleton.mpr rfl), h⟩

/-- One byte of a scalar store: room for its line, then the byte. -/
def State.storeByte (s : State) (c pa : Nat) (b : Byte × Nat) : State :=
  let w := s.forWrite (pa + b.2)
  (w.1.l1Room c w.2).putDirty c w.2 b.1

theorem State.writeScalar_eq_foldl (s : State) (c pa : Nat) (l : List Byte) :
    s.writeScalar c pa l = l.zipIdx.foldl (fun s b => s.storeByte c pa b) s := by
  unfold State.writeScalar State.storeByte State.putDirty
  rfl

theorem State.storeByte_still {s : State} (h : s.fwds = []) (c pa : Nat) (b : Byte × Nat) :
    s.storeByte c pa b = (s.l1Room c (pa + b.2)).putDirty c (pa + b.2) b.1 := by
  rw [State.storeByte, State.forWrite_still h]

/-- A scalar store whose line has room writes its bytes one by one. -/
theorem State.foldl_storeByte {s : State} {c pa n : Nat} (l : List Byte) (hf : s.fwds = []) (hc : c < 64)
    (hline : ∀ j, n ≤ j → j < n + l.length → (pa + j) / 128 = pa / 128) (hr : (s.coreAt c).hasRoom pa) :
    (l.zipIdx n).foldl (fun s b => s.storeByte c pa b) s = s.putBytes c pa n l := by
  induction l generalizing s n with
  | nil => rfl
  | cons b t ih =>
    have hn : (pa + n) / 128 = pa / 128 := hline n (Nat.le_refl _) (by simp)
    have hroom : (s.coreAt c).hasRoom (pa + n) := by
      unfold Core.hasRoom
      rw [hn]
      exact hr
    rw [List.zipIdx_cons, List.foldl_cons, State.storeByte_still hf, State.l1Room_of_room hroom, State.putBytes]
    exact ih hf (fun j h1 h2 => hline j (by omega) (by rw [List.length_cons]; omega)) (State.hasRoom_putDirty s b hc hn)

/-- A scalar store inside one line makes room for it and then writes its bytes. -/
theorem State.writeScalar_eq {s : State} {c pa : Nat} (l : List Byte) (hs : s.settled) (hc : c < 64) (hl : l ≠ [])
    (hline : ∀ j, j < l.length → (pa + j) / 128 = pa / 128) : s.writeScalar c pa l = (s.l1Room c pa).putBytes c pa 0 l := by
  obtain ⟨b, t, rfl⟩ := List.exists_cons_of_ne_nil hl
  have hstill := ((State.l1Room_spills hs pa hc).settled hs).still
  rw [State.writeScalar_eq_foldl, List.zipIdx_cons, List.foldl_cons, State.storeByte_still hs.still, Nat.add_zero, State.putBytes]
  exact State.foldl_storeByte t hstill hc (fun j h1 h2 => hline j (by rw [List.length_cons]; omega))
    (State.hasRoom_putDirty _ _ hc rfl)

/-! ### Accesses without translation (R221, R234, R240) -/

theorem physOf_mod {va : X64} {n : Nat} (h : va.toNat % n = 0) (hn : n ∣ 2 ^ 52) : physOf va % n = 0 := by
  rw [physOf, Nat.mod_mod_of_dvd _ hn, h]

namespace State.reaches

variable {s : State} {k n : Nat} {va : X64}

theorem placeOf_hbm (h : s.reaches k va n) (hn : 0 < n) : placeOf (physOf va) = .hbm := by
  have := h.inside
  rw [placeOf, if_pos (by unfold physOf; omega)]

theorem core_lt (h : s.reaches k va n) : coreOf k < 64 := by
  have := h.direct.inPart
  unfold coreOf; omega

/-- The access goes to its own physical address, whichever kind of access it is. -/
theorem translate (h : s.reaches k va n) (hn : 0 < n) (acc : Acc) : s.translate (coreOf k) (s.slot k).ptroot (s.slot k).tr.priv acc n va =
    .ok (s, .ok (.loc (physOf va)) va 0 none) := by
  have hroot : rootEn (s.slot k).ptroot = false := h.direct.root
  have hhost : (Target.loc (physOf va)).onHost = false := by simp [Target.onHost, Target.place, h.placeOf_hbm hn]
  have hhold : s.hold (.loc (physOf va)) = .loc (physOf va) := by simp [State.hold, State.stackHeld, h.settled.drained]
  have hva : va.toNat % 2 ^ 52 = physOf va := rfl
  rw [State.translate, if_neg (not_not_intro h.aligned)]
  simp only [State.xlatFrom, if_neg (Nat.not_le.mpr h.implemented), hroot, hva, hhost, hhold, Bool.not_false, if_true,
    Bool.false_and, Bool.false_eq_true, if_false]

theorem accessAt (h : s.reaches k va n) (hn : 0 < n) (acc : Acc) (xa : Option Nat) :
    s.accessAt k (s.sliceAgent k) acc n va xa = .ok (s, .ok (.loc (physOf va), va)) := by
  have := h.translate hn acc
  simp only [State.accessAt, State.sliceAgent, this, State.rebase]

theorem readAt (h : s.reaches k va n) (hn : 0 < n) (g : Agent) :
    s.readAt g true (.loc (physOf va)) n va = .ok (s, .ok (s.readScalar (physOf va) n)) := by
  have hhome : s.home (physOf va) = physOf va := by simp [State.home, h.settled.still, State.homeIn]
  have hclean : s.poisoned (physOf va) = false := by simp [State.poisoned, h.settled.clean]
  simp only [State.readAt, hhome, h.placeOf_hbm hn, hclean, Bool.false_eq_true, if_false, if_true]

theorem writeAt (h : s.reaches k va n) (hn : 0 < n) (g : Agent) (b : List Byte) :
    s.writeAt g true (.loc (physOf va)) b va = .ok (s.writeScalar g.core (physOf va) b, .ok ()) := by
  simp only [State.writeAt, State.forWrite_still h.settled.still, h.placeOf_hbm hn, if_true]

end State.reaches

theorem State.dropReqs_none {s : State} (h : s.reqs = []) (o : Nat) : s.dropReqs o = s := by
  rw [State.dropReqs, h, List.filter_nil, ← h]

/-- A core whose comparators are all off halts for no access (R321). -/
theorem DebugBlock.dataHit_off {b : DebugBlock} (h : ∀ i, i < 8 → vat b.dbk i 0 = 0) (isR isW : Bool) (va n : Nat) :
    b.dataHit isR isW va n = none := by
  simp only [DebugBlock.dataHit, List.find?_eq_none, List.mem_range]
  intro i hi
  have hoff : dbkEn (vat b.dbk i 0) = false := by rw [h i hi]; rfl
  simp only [hoff, Bool.false_and, Bool.false_eq_true, not_false_eq_true]

theorem State.watch_off {s : State} {k : Nat} (h : ∀ i, i < 8 → vat (s.coreAt (coreOf k)).dbg.dbk i 0 = 0) (isR isW : Bool)
    (va n : Nat) : s.watch k isR isW va n = s := by
  rw [State.watch, DebugBlock.dataHit_off h]

theorem State.scalarPieces_only (s : State) (k n : Nat) (hit : Bool) :
    s.scalarPieces k n hit = { s with cores := (s.scalarPieces k n hit).cores } := by
  cases hit <;> rfl

/-- A scalar access changes nothing of a core but the pieces at its port. -/
theorem State.coreAt_scalarPieces (s : State) (k n : Nat) (hit : Bool) (c : Nat) : (s.scalarPieces k n hit).coreAt c =
    { s.coreAt c with pieces := ((s.scalarPieces k n hit).coreAt c).pieces } := by
  cases hit with
  | true => rfl
  | false =>
    show (s.addPieces k n).coreAt c = { s.coreAt c with pieces := ((s.addPieces k n).coreAt c).pieces }
    unfold State.addPieces
    by_cases hc : c < 64
    · by_cases hk : c = coreOf k
      · subst hk; rw [State.coreAt_modCore_same _ _ _ hc]
      · rw [State.coreAt_modCore_ne _ _ hk]
    · rw [State.coreAt_outside _ hc, State.coreAt_outside _ hc]

/-- The watched access of a slice whose comparators are off leaves its pieces at the port alone. -/
theorem State.watch_scalarPieces {s : State} {k : Nat} (h : ∀ i, i < 8 → vat (s.coreAt (coreOf k)).dbg.dbk i 0 = 0) (n : Nat)
    (hit isR isW : Bool) (va m : Nat) : (s.scalarPieces k n hit).watch k isR isW va m = s.scalarPieces k n hit :=
  State.watch_off (by rw [State.coreAt_scalarPieces]; exact h) _ _ _ _

/-! ### The words of scalar loads and stores (R221) -/

theorem exec_of_loadOf {s : State} {i : Instr} {n : Nat} {sg : Bool} {d a b : Fin 32} (h : loadOf i = some (n, sg, d, a, b))
    (hs : s.acts) : exec i s = finish (s.lds n sg d.val a.val b.val) := by
  cases i <;> cases h <;> exact congrArg finish (State.scalarStep_acts _ _ hs rfl rfl)

theorem exec_of_storeOf {s : State} {i : Instr} {n : Nat} {d a b : Fin 32} (h : storeOf i = some (n, d, a, b))
    (hs : s.acts) : exec i s = finish (s.sts n d.val a.val b.val) := by
  cases i <;> cases h <;> exact congrArg finish (State.scalarStep_acts _ _ hs rfl rfl)

/-- The sizes of a scalar access (R221). -/
theorem loadOf_size {i : Instr} {n : Nat} {sg : Bool} {d a b : Fin 32} (h : loadOf i = some (n, sg, d, a, b)) : 0 < n := by
  cases i <;> cases h <;> decide

theorem storeOf_size {i : Instr} {n : Nat} {d a b : Fin 32} (h : storeOf i = some (n, d, a, b)) : 0 < n ∧ n ∣ 128 := by
  cases i <;> cases h <;> decide

/-! ### LDS (R221) -/

theorem State.settleAt_done {α : Type} (s : State) (kind : Nat) {t : State} (v : α) (go : State → α → State)
    (h : t.reqs = []) : s.settleAt kind (.ok (t, .ok v)) go = .ok (go t v) := by
  simp only [State.settleAt, State.dropReqs_none h]

/-- The number of the bytes that the scalar agents see. -/
theorem State.ofBytes_readScalar {s : State} (h : s.fwds = []) (pa n : Nat) : ofBytes (s.readScalar pa n) = s.seenNat pa n := by
  have hread : ∀ n, s.readScalar pa n = (List.range n).map fun i => s.seen (pa + i) := fun n => by
    simp [State.readScalar, State.seen, State.home, h, State.homeIn]
  rw [hread]
  clear hread
  induction n generalizing pa with
  | zero => rfl
  | succ n ih =>
    rw [List.range_succ_eq_map, List.map_cons, List.map_map, ofBytes, State.seenNat, ← ih (pa + 1)]
    simp only [Function.comp_def, Nat.add_zero, Nat.succ_eq_add_one, Nat.add_assoc, Nat.add_comm 1]

theorem sext64_eq (w v : Nat) : sext64 w v = (BitVec.ofNat w v).signExtend 64 := by
  rw [sext64, BitVec.signExtend, toSigned, BitVec.toInt, BitVec.toNat_ofNat]

theorem extended_eq (sg : Bool) (n v : Nat) :
    (if sg then sext64 (8 * n) v else BitVec.ofNat 64 v) = extended sg (8 * n) v := by
  simp only [extended, sext64_eq]

theorem State.lds_reaches {s : State} {n : Nat} (sg : Bool) (d : Nat) {a b : Nat} (h : s.reaches s.cur (s.me.rx a + s.me.rx b) n)
    (hn : 0 < n) : ∃ hit, s.lds n sg d a b =
      .ok ((s.putX d (extended sg (8 * n) (s.seenNat (physOf (s.me.rx a + s.me.rx b)) n))).scalarPieces s.cur n hit) := by
  refine ⟨s.l1Hit (coreOf s.cur) (.loc (physOf (s.me.rx a + s.me.rx b))) n, ?_⟩
  simp only [State.lds, h.accessAt hn, thenA, h.readAt hn]
  rw [State.settleAt_done _ _ _ _ h.direct.reqs]
  simp only [State.ofBytes_readScalar h.settled.still, extended_eq]
  rw [State.watch_scalarPieces (by exact h.direct.watch)]

theorem scalarLoadsReadMemory : Claims.ScalarLoadsReadMemory := by
  intro s i n sg d a b hi hs hr v
  obtain ⟨hit, hlds⟩ := State.lds_reaches sg d.val hr (loadOf_size hi)
  refine ⟨_, by rw [exec_of_loadOf hi hs, hlds]; rfl, State.scalarPieces_only _ _ _ _, fun c => ?_⟩
  exact State.coreAt_scalarPieces (s.putX d.val (extended sg (8 * n) v)) s.cur n hit c

/-! ### STS (R221) -/

theorem length_toBytes (n v : Nat) : (toBytes n v).length = n := by simp [toBytes]

theorem getElem_toBytes {n v j : Nat} (h : j < (toBytes n v).length) : (toBytes n v)[j] = byteOf v j := by
  simp [toBytes, byteOf, Nat.pow_mul]

/-- An aligned scalar access stays inside its line. -/
theorem line_of_aligned {pa n j : Nat} (h : pa % n = 0) (hn : n ∣ 128) (hj : j < n) : (pa + j) / 128 = pa / 128 := by
  obtain ⟨m, hm⟩ := hn
  obtain ⟨p, rfl⟩ := Nat.dvd_of_mod_eq_zero h
  have hj' : (n * p + j) / n = p := by
    rw [Nat.mul_add_div (by omega), Nat.div_eq_of_lt hj, Nat.add_zero]
  rw [hm, ← Nat.div_div_eq_div_mul, ← Nat.div_div_eq_div_mul, hj', Nat.mul_div_cancel_left _ (by omega)]

/-- What a scalar store inside one line of memory leaves (R2, R31, R221). -/
structure Stores (s t : State) (c pa : Nat) (l : List Byte) : Prop where
  rest : t = { s with cores := t.cores, mem := t.mem, free := t.free }
  cores : ∀ j, t.coreAt j = { s.coreAt j with l1 := (t.coreAt j).l1 }
  stored : ∀ j, (h : j < l.length) → t.seen (pa + j) = l[j]
  others : ∀ x, x < pa ∨ pa + l.length ≤ x → s.dirtyOnce x → t.seen x = s.seen x
  room : (s.coreAt c).hasRoom pa → t.mem = s.mem ∧ t.free = s.free ∧ ∀ x, x < pa ∨ pa + l.length ≤ x → t.seen x = s.seen x
  once : ∀ x, s.dirtyOnce x → t.dirtyOnce x

theorem State.stores_writeScalar {s : State} {c pa : Nat} {l : List Byte} (hs : s.settled) (hc : c < 64) (hl : l ≠ [])
    (hline : ∀ j, j < l.length → (pa + j) / 128 = pa / 128) : Stores s (s.writeScalar c pa l) c pa l := by
  have hsp := State.l1Room_spills hs pa hc
  rw [State.writeScalar_eq l hs hc hl hline]
  refine ⟨?_, fun j => ?_, fun j hj => State.seen_putBytes _ l hc hj, fun x hx h => ?_, fun hr => ?_,
    fun x h => (hsp.once x h).putBytes _ _ _ hc⟩
  · rw [State.putBytes_only, hsp.rest]
  · rw [State.coreAt_putBytes _ _ _ _ hc, hsp.cores]
  · rw [State.seen_putBytes_ne _ l hc hx, hsp.seen x h]
  · rw [State.l1Room_of_room hr]
    exact ⟨by rw [State.putBytes_only], by rw [State.putBytes_only], fun x hx => State.seen_putBytes_ne _ l hc hx⟩

theorem Stores.cur {s t : State} {c pa : Nat} {l : List Byte} (h : Stores s t c pa l) : t.cur = s.cur := by rw [h.rest]

theorem Stores.reqs {s t : State} {c pa : Nat} {l : List Byte} (h : Stores s t c pa l) : t.reqs = s.reqs := by rw [h.rest]

theorem Stores.me {s t : State} {c pa : Nat} {l : List Byte} (h : Stores s t c pa l) : t.me = s.me := by rw [h.rest]; rfl

/-- The pieces at a port are nothing that a scalar agent sees. -/
theorem State.seen_scalarPieces (s : State) (k n : Nat) (hit : Bool) (x : Nat) : (s.scalarPieces k n hit).seen x = s.seen x :=
  State.seen_congr (fun c => by rw [State.coreAt_scalarPieces, Core.dirtyAt]; rfl) (by rw [State.scalarPieces_only])

theorem State.dirtyOnce.scalarPieces {s : State} {x : Nat} (h : s.dirtyOnce x) (k n : Nat) (hit : Bool) :
    (s.scalarPieces k n hit).dirtyOnce x :=
  h.mono fun c => by rw [State.coreAt_scalarPieces, Core.dirtyCount]; exact Nat.le_refl _

/-- The store of a slice whose access reaches memory: its bytes are stored and it goes on. -/
theorem State.sts_reaches {s : State} {n d a b : Nat} (h : s.reaches s.cur (s.me.rx a + s.me.rx b) n) (hn : 0 < n) {t : State}
    (ht : s.writeScalar (coreOf s.cur) (physOf (s.me.rx a + s.me.rx b)) (toBytes n (s.me.rx d).toNat) = t)
    (hst : Stores s t (coreOf s.cur) (physOf (s.me.rx a + s.me.rx b)) (toBytes n (s.me.rx d).toNat)) :
    ∃ hit, s.sts n d a b = .ok ((t.setMe s.me.onward).scalarPieces s.cur n hit) := by
  refine ⟨s.l1Hit (coreOf s.cur) (.loc (physOf (s.me.rx a + s.me.rx b))) n, ?_⟩
  have hwatch : ∀ i, i < 8 → vat ((t.setMe s.me.onward).coreAt (coreOf s.cur)).dbg.dbk i 0 = 0 := by
    show ∀ i, i < 8 → vat (t.coreAt (coreOf s.cur)).dbg.dbk i 0 = 0
    rw [hst.cores]; exact h.direct.watch
  have hcore : (s.sliceAgent s.cur).core = coreOf s.cur := rfl
  simp only [State.sts, h.accessAt hn, thenA, h.writeAt hn, hcore, ht]
  rw [State.settleAt_done _ _ _ _ (by rw [hst.reqs]; exact h.direct.reqs)]
  simp only [hst.cur, State.watch_scalarPieces hwatch, hst.me, Slot.adv_eq_onward]

theorem scalarStoresWriteMemory : Claims.ScalarStoresWriteMemory := by
  intro s i n d a b hi hs hr pa
  obtain ⟨hpos, hdvd⟩ := storeOf_size hi
  have halign : pa % n = 0 := physOf_mod hr.aligned (Nat.dvd_trans hdvd (by decide))
  have hlen := length_toBytes n (s.me.rx d.val).toNat
  have hst := State.stores_writeScalar (l := toBytes n (s.me.rx d.val).toNat) (pa := pa) hr.settled hr.core_lt
    (List.ne_nil_of_length_pos (by omega)) fun j hj => line_of_aligned halign hdvd (by omega)
  generalize hu : s.writeScalar (coreOf s.cur) pa (toBytes n (s.me.rx d.val).toNat) = u at hst
  obtain ⟨hit, hsts⟩ := State.sts_reaches hr hpos hu hst
  have hseen : ∀ x, ((u.setMe s.me.onward).scalarPieces s.cur n hit).seen x = u.seen x :=
    State.seen_scalarPieces (u.setMe s.me.onward) _ _ _
  refine ⟨_, by rw [exec_of_storeOf hi hs, hsts]; rfl, ?_, fun c => ?_, fun j hj => ?_, fun x hx h => ?_, fun hroom => ?_,
    fun x h => ?_⟩
  · rw [State.scalarPieces_only, hst.rest]; rfl
  · rw [State.coreAt_scalarPieces]
    exact congrArg (fun x : Core => { x with pieces := (((u.setMe s.me.onward).scalarPieces s.cur n hit).coreAt c).pieces })
      (hst.cores c)
  · rw [hseen, hst.stored j (by omega), getElem_toBytes]
  · rw [hseen, hst.others x (by omega) h]
  · obtain ⟨hmem, hfree, hkept⟩ := hst.room hroom
    refine ⟨?_, ?_, fun x hx => ?_⟩
    · rw [State.scalarPieces_only]; exact hmem
    · rw [State.scalarPieces_only]; exact hfree
    · rw [hseen, hkept x (by omega)]
  · exact State.dirtyOnce.scalarPieces (s := u.setMe s.me.onward) (hst.once x h) _ _ _

/-! ### Scalar accesses that trap (R221, R222, R240) -/

theorem State.accessAt_misaligned (s : State) (k : Nat) (g : Agent) (acc : Acc) {n : Nat} {va : X64} (xa : Option Nat)
    (h : va.toNat % n ≠ 0) : s.accessAt k g acc n va xa = .ok (s, .trap .misaligned va) := by
  simp only [State.accessAt, State.translate, if_pos h]

theorem State.accessAt_beyond (s : State) (k : Nat) (g : Agent) (acc : Acc) {n : Nat} {va : X64} (xa : Option Nat)
    (h : va.toNat % n = 0) (hva : 2 ^ 57 ≤ va.toNat) : s.accessAt k g acc n va xa = .ok (s, .trap .pageFault va) := by
  simp only [State.accessAt, State.translate, if_neg (not_not_intro h), State.xlatFrom, if_pos hva]

/-- An access that traps leaves the slice's state, and the instruction traps. -/
theorem State.settleAt_trap {α : Type} {s : State} (h : s.trapsAtOnce) (hr : s.reqs = []) {code : TrapCode} (hp : code ≠ .preempt)
    (hre : code ≠ .resume) (kind : Nat) (va : X64) (go : State → α → State) :
    s.settleAt kind (.ok (s, .trap code va)) go = .ok (s.setMe (s.me.trapped code kind va s.me.pc)) := by
  have hme := State.me_setMe s s.me
  have ht : (s.setMe s.me).trapsAtOnce := by
    refine ⟨?_, ?_, h.untraced⟩
    · rw [hme]; exact h.drained
    · rw [hme]; exact h.outside
  simp only [State.settleAt]
  rw [State.dropReqs_none (by exact hr), State.trapHere_enters ht hp hre, hme, State.setMe_setMe]

/-- An atomic that passes its type check updates memory. -/
theorem exec_of_atomicOf {s : State} {i : Instr} {d a : Fin 32} {t : Ty} {f : Slot → Nat → Option Nat}
    (h : atomicOf i = some (d, a, t, f)) (hwf : i.wf = true) (hs : s.acts) :
    ∃ sc host g args data, exec i s = finish (s.atomicAt sc d.val a.val t host g args data) := by
  have hty : atomicType t = none := by
    rw [atomicType_eq]
    cases i <;> cases h <;> exact Instr.typeTrap_of_wf hwf
  have hact : ∀ w act, finish (s.scalarStep w false false (atomicType t) act) = finish (act s) := fun w act => by
    rw [hty, State.scalarStep_acts w act hs rfl rfl]
  cases i <;> cases h <;> exact ⟨_, _, _, _, _, hact _ _⟩

/-- The memory access that a scalar load, store or atomic begins with. -/
theorem exec_of_access {s : State} {i : Instr} {n kind : Nat} {va : X64} (hs : s.acts)
    (h : (∃ sg d a b, loadOf i = some (n, sg, d, a, b) ∧ kind = 0 ∧ va = s.me.rx a.val + s.me.rx b.val) ∨
      (∃ d a b, storeOf i = some (n, d, a, b) ∧ kind = 1 ∧ va = s.me.rx a.val + s.me.rx b.val) ∨
      (∃ d a t f, atomicOf i = some (d, a, t, f) ∧ i.wf = true ∧ n = t.bits / 8 ∧ kind = 2 ∧ va = s.me.rx a.val)) :
    ∃ (α : Type) (acc : Acc) (xa : Option Nat) (f : State → Target × X64 → Res (State × Got α)) (go : State → α → State),
      exec i s = finish (s.settleAt kind (thenA (s.accessAt s.cur (s.sliceAgent s.cur) acc n va xa) f) go) := by
  rcases h with ⟨sg, d, a, b, h, rfl, rfl⟩ | ⟨d, a, b, h, rfl, rfl⟩ | ⟨d, a, t, f, h, hwf, rfl, rfl, rfl⟩
  · rw [exec_of_loadOf h hs]
    unfold State.lds
    exact ⟨_, _, _, _, _, rfl⟩
  · rw [exec_of_storeOf h hs]
    unfold State.sts
    exact ⟨_, _, _, _, _, rfl⟩
  · obtain ⟨sc, host, g, args, data, hexec⟩ := exec_of_atomicOf h hwf hs
    rw [hexec]
    unfold State.atomicAt
    exact ⟨_, _, _, _, _, rfl⟩

theorem scalarAccessesTrapPrecisely : Claims.ScalarAccessesTrapPrecisely := by
  intro s i n kind va hi hs ht hr
  obtain ⟨α, acc, xa, f, go, hexec⟩ := exec_of_access hs hi
  refine ⟨fun hmis => ?_, fun halign hva => ?_⟩
  · rw [trapsHere, hexec, State.accessAt_misaligned _ _ _ _ _ hmis, thenA, State.settleAt_trap (code := .misaligned) ht hr nofun nofun]
    rfl
  · rw [trapsHere, hexec, State.accessAt_beyond _ _ _ _ _ halign hva, thenA, State.settleAt_trap (code := .pageFault) ht hr nofun nofun]
    rfl

/-- Settles O21: a data L1 is a list of dirty bytes, and an access without translation goes to its own physical address. -/
theorem scalarAccessesReachMemory : Obligations.ScalarAccessesReachMemory :=
  ⟨scalarLoadsReadMemory, scalarStoresWriteMemory, scalarAccessesTrapPrecisely⟩

end Sys2Proof.Machine
end
